-- ==== Sys2Proof/Word.lean ====
section
/-! DEFINITION. The word types of the Craboene W80 and the agents that issue instructions.
Widths follow R17, R106 and R187. -/

namespace Sys2Proof

/-- A 64-bit scalar register, address or state-register value (R17). -/
abbrev Word := BitVec 64

/-- The smallest addressable unit of memory (R10). -/
abbrev Byte := BitVec 8

/-- A 512-bit row of the accumulator file (R18). -/
abbrev Row := BitVec 512

/-- A scalar register field: `s0` to `s31` (R106). -/
abbrev Reg := BitVec 5

/-- A vector register field: `v0` to `v63` (R106). -/
abbrev VReg := BitVec 6

/-- An extension register field: `e0` to `e7` (R117). -/
abbrev EReg := BitVec 3

/-- A queue number: `q0` to `q7` (R24). -/
abbrev QNum := BitVec 3

/-- An accumulator tile number: `a0` to `a3` (R17). -/
abbrev Acc := BitVec 2

/-- An element type field `ty` (R48). -/
abbrev Ty := BitVec 3

/-- A tile's name, as the nineteen bits [42:24] of its `TILE_ID` (R42). -/
abbrev TileName := Nat

/-- A bulkhead's id, 0 to 79 (R4). -/
abbrev BulkId := Nat

/-- What can issue instructions: an activation slot of a tile (R17), or one of the eight proctor
cores of a bulkhead's island (R302). -/
inductive Agent where
  | slot (t : TileName) (k : BitVec 2)
  | core (b : BulkId) (c : BitVec 3)
  deriving DecidableEq, Repr

/-- Reticle (bulkhead id) of a tile name: bits [42:36] of `TILE_ID` (R42). -/
def TileName.ret (t : TileName) : Nat := t / 4096

/-- Block site of a tile name: bits [34:28] of `TILE_ID` (R42). -/
def TileName.blk (t : TileName) : Nat := t / 16 % 128

/-- Core of a tile name: bits [27:24] of `TILE_ID` (R42). -/
def TileName.core (t : TileName) : Nat := t % 16

/-- The tile name of reticle, block and core (R42). -/
def TileName.mk (r b c : Nat) : TileName := r * 4096 + b * 16 + c

end Sys2Proof
end

