-- ==== Sys2Proof/Config.lean ====
section
/-! DEFINITION. The values the spec leaves open, as constants without a body (so that a claim about one
of them holds whatever it is), and the functions of cryptography that the spec names by their standard. -/

namespace Sys2Proof

/-- A byte the spec gives no value: bytes of a line that no key reads (R320, R400). Applied to the
counter `State.free`. -/
opaque Config.freeByte : Nat → Byte

/-- A 64-bit value the spec leaves open. Applied to the counter `State.free`. -/
opaque Config.freeWord : Nat → Word

/-- A choice the spec leaves open. Applied to the counter `State.free`. -/
opaque Config.freeBool : Nat → Bool

/-- SHA-512 (FIPS 180-4) of a byte sequence, 64 bytes (R347, R348). -/
opaque Config.sha512 : List Byte → List Byte

/-- HMAC-SHA-512 (RFC 2104) of a key and a message, 64 bytes. -/
opaque Config.hmac512 : List Byte → List Byte → List Byte

/-- Ed25519 verification (RFC 8032): public key, message, signature. -/
opaque Config.ed25519Verify : List Byte → List Byte → List Byte → Bool

/-- The Ed25519 signature of a message under the key with a serial number. -/
opaque Config.ed25519Sign : Nat → List Byte → List Byte

/-- The public key, certificate or other fixed bytes of an identity with a serial number. -/
opaque Config.identity : Nat → List Byte

/-- AES-256 (FIPS 197) of a 16-byte block, first byte highest, under the key with a serial number (R316, R317). -/
opaque Config.aes256 : Nat → BitVec 128 → BitVec 128

/-- X25519 (RFC 7748) of this module's secret with a serial number and the other side's public key (R360). -/
opaque Config.x25519 : Nat → List Byte → List Byte

/-- A key wrapped under an agreed secret, and the key that wrapped bytes hold under it: the spec names no method
(R365). -/
opaque Config.wrapKey : List Byte → List Byte → List Byte
opaque Config.unwrapKey : List Byte → List Byte → List Byte

/-- Results of the special functions of R198 where an enclosure by exact arithmetic does not decide the
rounding: function code, element type, lane bits. -/
opaque Config.special : Nat → Nat → Nat → Nat

end Sys2Proof
end

