-- ==== Sys2Proof/Machine/Bits.lean ====
section
/-! DEFINITION. Bit fields, sign extension, byte order and lanes (R10, R12, R187). -/

namespace Sys2Proof.Machine

/-- Bits [lo + n - 1 : lo] of a word, as a number (R10). -/
def field {w : Nat} (x : BitVec w) (lo n : Nat) : Nat := x.toNat / 2 ^ lo % 2 ^ n

/-- One bit of a word. -/
def bit {w : Nat} (x : BitVec w) (i : Nat) : Bool := x.getLsbD i

/-- A number placed at bit `lo` of a word. -/
def place (lo v : Nat) : Word := BitVec.ofNat 64 (v * 2 ^ lo)

/-- A truth value as a number. -/
def num (b : Bool) : Nat := if b then 1 else 0

/-- SignExtend(x, 64) (R12). -/
def sext {w : Nat} (x : BitVec w) : Word := x.signExtend 64

/-- ZeroExtend(x, 64) (R12). -/
def zext {w : Nat} (x : BitVec w) : Word := x.zeroExtend 64

/-- The n bytes of a number, least significant first (R10). -/
def toBytes : Nat → Nat → List Byte
  | 0, _ => []
  | n + 1, v => BitVec.ofNat 8 v :: toBytes n (v / 256)

/-- A byte list as a number, least significant first (R10). -/
def ofBytes : List Byte → Nat
  | [] => 0
  | b :: rest => b.toNat + 256 * ofBytes rest

/-- A byte list as a 64-bit word. -/
def wordOf (bs : List Byte) : Word := BitVec.ofNat 64 (ofBytes bs)

/-- The eight bytes of a word. -/
def bytesOf (w : Word) : List Byte := toBytes 8 w.toNat

/-- A list cut or padded with zero bytes to a length. -/
def padTo : Nat → List Byte → List Byte
  | 0, _ => []
  | n + 1, [] => 0 :: padTo n []
  | n + 1, b :: rest => b :: padTo n rest

/-- The numbers a, a + 1, …, a + n − 1. -/
def upFrom (a : Nat) : Nat → List Nat
  | 0 => []
  | n + 1 => a :: upFrom (a + 1) n

/-- Every byte of a list with its offset. -/
def indexed (bs : List Byte) : List (Nat × Byte) := (upFrom 0 bs.length).zip bs

/-- ceil(a / b). -/
def ceilDiv (a b : Nat) : Nat := (a + b - 1) / b

/-- The lane i of width w of a row (R187). -/
def lane (w : Nat) (r : Row) (i : Nat) : Nat := r.toNat / 2 ^ (w * i) % 2 ^ w

/-- The row whose lanes of width w are the list (R187). -/
def ofLanes (w : Nat) : List Nat → Nat
  | [] => 0
  | v :: rest => v % 2 ^ w + 2 ^ w * ofLanes w rest

/-- The row of lanes of width w. -/
def rowOf (w : Nat) (l : List Nat) : Row := BitVec.ofNat 512 (ofLanes w l)

/-- The n lanes of width w of a row. -/
def lanesOf (w n : Nat) (r : Row) : List Nat := (upFrom 0 n).map (lane w r)

/-- A w-bit number read as two's complement. -/
def signed (w v : Nat) : Int := if v % 2 ^ w < 2 ^ (w - 1) then (v % 2 ^ w : Nat) else (v % 2 ^ w : Nat) - ((2 ^ w : Nat) : Int)

/-- An integer modulo 2^w. -/
def wrap (w : Nat) (x : Int) : Nat := (x % ((2 ^ w : Nat) : Int)).toNat

end Sys2Proof.Machine
end

