-- ==== Sys2Proof/Machine/Flags.lean ====
section
/-! DEFINITION. Number formats, rounding and floating-point operations (R48 to R71). The device has no
flags: comparisons write truth values into registers, and status is kept in MSTATW and DDA_STAT. -/

namespace Sys2Proof.Machine

/-- A floating-point format of R48. -/
structure Fmt where
  width : Nat
  /-- mantissa bits -/
  man : Nat
  /-- exponent bits -/
  exp : Nat
  bias : Nat
  /-- the format has infinities -/
  inf : Bool
  /-- the largest finite magnitude's code -/
  maxCode : Nat
  /-- the canonical NaN's code (R51) -/
  nan : Nat
  deriving DecidableEq, Repr

def fp32 : Fmt := { width := 32, man := 23, exp := 8, bias := 127, inf := true, maxCode := 0x7F7FFFFF, nan := 0x7FC00000 }
def bf16 : Fmt := { width := 16, man := 7, exp := 8, bias := 127, inf := true, maxCode := 0x7F7F, nan := 0x7FC0 }
def fp16 : Fmt := { width := 16, man := 10, exp := 5, bias := 15, inf := true, maxCode := 0x7BFF, nan := 0x7E00 }
def e4m3 : Fmt := { width := 8, man := 3, exp := 4, bias := 7, inf := false, maxCode := 0x7E, nan := 0x7F }
def e5m2 : Fmt := { width := 8, man := 2, exp := 5, bias := 15, inf := true, maxCode := 0x7B, nan := 0x7E }
def e2m1 : Fmt := { width := 4, man := 1, exp := 2, bias := 1, inf := false, maxCode := 7, nan := 0 }

/-- The floating-point format of a type code; none for the integer types (R48). -/
def fmtOf (ty : Nat) : Option Fmt :=
  match ty with
  | 0 => some fp32 | 1 => some bf16 | 2 => some fp16 | 3 => some e4m3 | 4 => some e5m2 | 5 => some e2m1
  | _ => none

/-- A floating-point value: NaN, an infinity, or (−1)^neg × m × 2^e, zeros keeping their sign (R49, R52). -/
inductive FP where
  | nan
  | inf (neg : Bool)
  | fin (neg : Bool) (m : Nat) (e : Int)
  deriving DecidableEq, Repr

/-- The value of a code (R48, R49, R53). -/
def Fmt.value (f : Fmt) (code : Nat) : FP :=
  let neg := code / 2 ^ (f.width - 1) % 2 = 1
  let e := code / 2 ^ f.man % 2 ^ f.exp
  let m := code % 2 ^ f.man
  let top := 2 ^ f.exp - 1
  if f.inf && e = top then (if m = 0 then .inf neg else .nan)
  else if f.width = 8 && f.man = 3 && e = top && m = 7 then .nan
  else if e = 0 then .fin neg m (1 - (f.bias : Int) - f.man)
  else .fin neg (2 ^ f.man + m) ((e : Int) - f.bias - f.man)

/-- A magnitude code with a sign. -/
def Fmt.signed (f : Fmt) (neg : Bool) (mag : Nat) : Nat := mag + (if neg then 2 ^ (f.width - 1) else 0)

/-- The code of an infinity: the canonical NaN where the format has none (R57). -/
def Fmt.infCode (f : Fmt) (neg : Bool) : Nat :=
  if f.inf then f.signed neg ((2 ^ f.exp - 1) * 2 ^ f.man) else f.nan

/-- Overflow beyond the largest finite magnitude (R57). Modes: 0 RNE, 1 RZ, 2 RU, 3 RD. -/
def Fmt.overflow (f : Fmt) (mode : Nat) (sat neg : Bool) : Nat :=
  if sat then f.signed neg f.maxCode
  else if mode = 1 || (mode = 2 && neg) || (mode = 3 && !neg) then f.signed neg f.maxCode
  else f.infCode neg

/-- The nearest integer multiple that a mode chooses between k and k + 1, for a remainder `rem` of
`den` (R56). -/
def roundUp (mode : Nat) (neg : Bool) (k rem den : Nat) : Nat :=
  if rem = 0 then k
  else match mode with
    | 0 => if den < 2 * rem || (2 * rem = den && k % 2 = 1) then k + 1 else k
    | 1 => k
    | 2 => if neg then k else k + 1
    | _ => if neg then k + 1 else k

/-- RoundToFormat (R56). The saturating form is implied for E2M1 (R57). -/
def Fmt.round (f : Fmt) (mode : Nat) (sat : Bool) : FP → Nat
  | .nan => f.nan
  | .inf neg => if sat || f.width = 4 then f.signed neg f.maxCode else f.infCode neg
  | .fin neg m e =>
    if m = 0 then f.signed neg 0
    else
      let emin : Int := 1 - (f.bias : Int)
      let ex := max ((Nat.log2 m : Int) + e) emin
      let q := ex - f.man
      let mag := if q ≤ e then m * 2 ^ (e - q).toNat
        else roundUp mode neg (m / 2 ^ (q - e).toNat) (m % 2 ^ (q - e).toNat) (2 ^ (q - e).toNat)
      let code := (ex - emin).toNat * 2 ^ f.man + mag
      if f.maxCode < code then f.overflow mode (sat || f.width = 4) neg else f.signed neg code

/-- Rounding to FP32 under RNE. -/
def toFP32 (x : FP) : Nat := fp32.round 0 false x

/-- A finite value as an integer at an exponent not above its own. -/
def scaled (neg : Bool) (m : Nat) (e emin : Int) : Int :=
  let v : Int := (m * 2 ^ (e - emin).toNat : Nat)
  if neg then -v else v

/-- The exact sum of two values; an exact zero is +0 unless both addends are −0 (R51, R52). -/
def FP.add : FP → FP → FP
  | .nan, _ => .nan
  | _, .nan => .nan
  | .inf a, .inf b => if a = b then .inf a else .nan
  | .inf a, _ => .inf a
  | _, .inf b => .inf b
  | .fin na ma ea, .fin nb mb eb =>
    let e := min ea eb
    let v := scaled na ma ea e + scaled nb mb eb e
    if v = 0 then .fin (na && nb) 0 0 else .fin (v < 0) v.natAbs e

/-- The value with its sign inverted. -/
def FP.neg : FP → FP
  | .nan => .nan
  | .inf n => .inf (!n)
  | .fin n m e => .fin (!n) m e

/-- The exact product (R51). -/
def FP.mul : FP → FP → FP
  | .nan, _ => .nan
  | _, .nan => .nan
  | .inf a, .inf b => .inf (a != b)
  | .inf a, .fin b m _ => if m = 0 then .nan else .inf (a != b)
  | .fin a m _, .inf b => if m = 0 then .nan else .inf (a != b)
  | .fin na ma ea, .fin nb mb eb => .fin (na != nb) (ma * mb) (ea + eb)

/-- The exact sum of a list, from its first element. -/
def FP.sum : List FP → FP
  | [] => .fin false 0 0
  | [x] => x
  | x :: y :: rest => FP.add x (FP.sum (y :: rest))

def FP.isNan : FP → Bool
  | .nan => true
  | _ => false

def FP.isFinite : FP → Bool
  | .fin _ _ _ => true
  | _ => false

/-- The order of the codes of a format by value, with −0 below +0 (R52). -/
def Fmt.key (f : Fmt) (code : Nat) : Int :=
  let mag := code % 2 ^ (f.width - 1)
  if code / 2 ^ (f.width - 1) % 2 = 1 then -(mag : Int) - 1 else mag

/-- The smaller or larger of two lanes; NaN if either is NaN (R196). -/
def Fmt.pick (f : Fmt) (largest : Bool) (a b : Nat) : Nat :=
  if (f.value a).isNan || (f.value b).isNan then f.nan
  else if largest then (if f.key a < f.key b then b else a) else (if f.key b < f.key a then b else a)

/-- A value rounded to an integer by a mode and clamped to a range; NaN gives 0 (R58, R70). -/
def FP.toInt (mode : Nat) (lo hi : Int) : FP → Int
  | .nan => 0
  | .inf neg => if neg then lo else hi
  | .fin neg m e =>
    let mag := if 0 ≤ e then m * 2 ^ e.toNat else roundUp mode neg (m / 2 ^ (-e).toNat) (m % 2 ^ (-e).toNat) (2 ^ (-e).toNat)
    let v : Int := if neg then -(mag : Int) else mag
    max lo (min hi v)

/-- An integer as an exact value. -/
def FP.ofInt (v : Int) : FP := .fin (v < 0) v.natAbs 0

/-! ## FP32 operations under RNE -/

def fadd (a b : Nat) : Nat := toFP32 ((fp32.value a).add (fp32.value b))
def fma (a b c : Nat) : Nat := toFP32 (((fp32.value a).mul (fp32.value b)).add (fp32.value c))

/-- A lane of a floating-point type converted exactly to FP32 (R58). -/
def toFP32Exact (f : Fmt) (code : Nat) : Nat := toFP32 (f.value code)

/-! ## Special functions (R198)

A function value is enclosed between two fixed-point bounds. Where both round to one code, that code is
the correctly rounded result; `Config.special` stands for the rest. -/

/-- Fraction bits of the fixed-point bounds. -/
def fxBits : Nat := 220

/-- floor(ln 2 × 2^220). -/
def fxLn2 : Nat := 1167950688773872517954935089893261764285717328480531383045641523573

/-- Integer square root, from bit n downward. -/
def isqrt (x : Nat) : Nat → Nat → Nat
  | 0, r => r
  | n + 1, r => isqrt x n (if (r + 2 ^ n) * (r + 2 ^ n) ≤ x then r + 2 ^ n else r)

/-- A positive rational num/den × 2^e rounded under RNE: the quotient with a sticky last bit. -/
def Fmt.roundQuot (f : Fmt) (neg : Bool) (num den : Nat) (e : Int) : Nat :=
  let p : Nat := 96 + Nat.log2 den
  let q := num * 2 ^ p / den
  let sticky := if num * 2 ^ p % den = 0 then 0 else 1
  f.round 0 false (.fin neg (2 * q + sticky) (e - p - 1))

/-- Lower bound of exp(t) × 2^220 for t = x × 2^−220 below 1: the Taylor sum, every term rounded down. -/
def fxExp (x : Nat) : Nat → Nat → Nat → Nat → Nat
  | 0, _, _, acc => acc
  | n + 1, k, term, acc => fxExp x n (k + 1) (term * x / 2 ^ fxBits / k) (acc + term * x / 2 ^ fxBits / k)

/-- Bounds of exp(t) × 2^220 for t in [0, 1) known within 4 units. -/
def expBounds (x : Nat) : Nat × Nat :=
  let l := fxExp x 80 1 (2 ^ fxBits) (2 ^ fxBits)
  (l - 64, l + 1024)

/-- Lower bound of atanh(w) × 2^220 for w = x × 2^−220 at most 1/3. -/
def fxAtanh (x : Nat) : Nat → Nat → Nat → Nat → Nat
  | 0, _, _, acc => acc
  | n + 1, k, pw, acc => fxAtanh x n (k + 2) (pw * x / 2 ^ fxBits * x / 2 ^ fxBits) (acc + pw / k)

/-- The code that both bounds round to, or the open constant. -/
def Fmt.enclosed (f : Fmt) (fn ty code : Nat) (neg : Bool) (lo hi : Nat) (e : Int) : Nat :=
  let a := f.round 0 false (.fin neg lo e)
  if a = f.round 0 false (.fin neg hi e) then a else Config.special fn ty code

/-- The fixed-point magnitude of m × 2^e, rounded down. -/
def fxOf (m : Nat) (e : Int) : Nat :=
  if 0 ≤ e + fxBits then m * 2 ^ (e + fxBits).toNat else m / 2 ^ (-(e + fxBits)).toNat

/-- 2^x (R198). -/
def Fmt.exp2 (f : Fmt) (ty code : Nat) : Nat :=
  match f.value code with
  | .nan => f.nan
  | .inf neg => if neg then 0 else f.infCode false
  | .fin neg m e =>
    if m = 0 then f.round 0 false (.fin false 1 0)
    else if 10 ≤ (Nat.log2 m : Int) + e then (if neg then 0 else f.infCode false)
    else
      let t := fxOf m e
      let exact := 0 ≤ e || m % 2 ^ (-e).toNat = 0
      let whole := t / 2 ^ fxBits
      let frac := t % 2 ^ fxBits
      if exact then f.round 0 false (.fin false 1 (if neg then -(whole : Int) else whole))
      else
        -- for a negative x, 2^x = 2^(−whole − 1) × 2^(1 − frac)
        let g := if neg then 2 ^ fxBits - frac else frac
        let k : Int := if neg then -(whole : Int) - 1 else whole
        let b := expBounds (g * fxLn2 / 2 ^ fxBits)
        f.enclosed 0 ty code false b.1 b.2 (k - fxBits)

/-- log2 x (R198). -/
def Fmt.log2 (f : Fmt) (ty code : Nat) : Nat :=
  match f.value code with
  | .nan => f.nan
  | .inf neg => if neg then f.nan else f.infCode false
  | .fin neg m e =>
    if m = 0 then f.infCode true
    else if neg then f.nan
    else
      let l := Nat.log2 m
      let k : Int := (l : Int) + e
      if m = 2 ^ l then f.round 0 false (.fin (k < 0) k.natAbs 0)
      else
        -- ln(m / 2^l) = 2 atanh((m − 2^l) / (m + 2^l))
        let w := (m - 2 ^ l) * 2 ^ fxBits / (m + 2 ^ l)
        let s := 2 * fxAtanh w 90 1 w 0
        let lo : Int := k * ((2 ^ fxBits : Nat) : Int) + ((s * 2 ^ fxBits / (fxLn2 + 1) : Nat) : Int) - 4096
        let hi : Int := k * ((2 ^ fxBits : Nat) : Int) + ((s * 2 ^ fxBits / fxLn2 : Nat) : Int) + 4096
        if 0 < lo then f.enclosed 1 ty code false lo.toNat hi.toNat (-(fxBits : Int))
        else if hi < 0 then f.enclosed 1 ty code true (-hi).toNat (-lo).toNat (-(fxBits : Int))
        else Config.special 1 ty code

/-- 1/x (R198). -/
def Fmt.recip (f : Fmt) (code : Nat) : Nat :=
  match f.value code with
  | .nan => f.nan
  | .inf neg => f.signed neg 0
  | .fin neg m e => if m = 0 then f.infCode neg else f.roundQuot neg 1 m (-e)

/-- 1/√x (R198). -/
def Fmt.rsqrt (f : Fmt) (code : Nat) : Nat :=
  match f.value code with
  | .nan => f.nan
  | .inf neg => if neg then f.nan else 0
  | .fin neg m e =>
    if m = 0 then f.infCode neg
    else if neg then f.nan
    else
      -- x = m' × 2^(2h); 1/√x = √(2^(2p) / m') × 2^(−p − h)
      let odd := e % 2 != 0
      let m' := if odd then 2 * m else m
      let h := (if odd then e - 1 else e) / 2
      let p : Nat := 96
      let q := 2 ^ (2 * p) / m'
      let r := isqrt q 100 0
      let sticky := if r * r * m' = 2 ^ (2 * p) then 0 else 1
      f.round 0 false (.fin false (2 * r + sticky) (-(p : Int) - h - 1))

/-- 1 / (1 + e^−x) (R198). -/
def Fmt.sigmoid (f : Fmt) (ty code : Nat) : Nat :=
  match f.value code with
  | .nan => f.nan
  | .inf neg => if neg then 0 else f.round 0 false (.fin false 1 0)
  | .fin neg m e =>
    if m = 0 then f.round 0 false (.fin false 1 (-1))
    else if 8 ≤ (Nat.log2 m : Int) + e then (if neg then 0 else f.round 0 false (.fin false 1 0))
    else
      let t := fxOf m e
      let k := t / (fxLn2 + 1)
      let r := t - k * (fxLn2 + 1)
      let b := expBounds (r % 2 ^ fxBits)
      let lo := (b.1 - 1024) * 2 ^ k
      let hi := (b.2 + 1024) * 2 ^ k
      let d : Nat := 2 ^ fxBits
      let wide : Nat := 2 ^ 400
      let pair : Nat × Nat := if neg then (d * wide / (d + hi), d * wide / (d + lo) + 1)
        else (lo * wide / (d + lo), hi * wide / (d + hi) + 1)
      f.enclosed 4 ty code false pair.1 pair.2 (-400)

end Sys2Proof.Machine
end

