-- ==== Sys2Proof/Syntax.lean ====
section
/-! DEFINITION. The instruction set of the Craboene W80, one constructor per row of spec/opcode_table.json.
The first 219 constructors are instructions with words (R106 to R116); their arguments are the
encoded fields that the instruction uses, and the fields it ignores (R104) have no argument. The
others are the module's events (spec/95_what_each_step_holds.md): they have no word, and their
arguments name what the event befalls: a tile, a packet, a bulkhead, a region, a host master. -/

namespace Sys2Proof

/-- One step of the module: an instruction of an agent, or an event (R103; 95_what_each_step_holds). -/
inductive Instr where
  /-- `ADD` (R131): Writes A + B modulo 2^64 to d. -/
  | add (d a b : Reg)
  /-- `SUB` (R131): Writes A − B modulo 2^64 to d. -/
  | sub (d a b : Reg)
  /-- `AND` (R131): Writes A AND B to d. -/
  | and (d a b : Reg)
  /-- `OR` (R131): Writes A OR B to d. -/
  | or (d a b : Reg)
  /-- `XOR` (R131): Writes A XOR B to d. -/
  | xor (d a b : Reg)
  /-- `ANDN` (R131): Writes A AND NOT B to d. -/
  | andn (d a b : Reg)
  /-- `SHL` (R131): Shifts A left by B[5:0] into d. -/
  | shl (d a b : Reg)
  /-- `SHR` (R131): Shifts A right logically by B[5:0] into d. -/
  | shr (d a b : Reg)
  /-- `SHA` (R131): Shifts A right arithmetically by B[5:0] into d. -/
  | sha (d a b : Reg)
  /-- `ROT` (R131): Rotates A right by B[5:0] into d. -/
  | rot (d a b : Reg)
  /-- `MUL` (R131): Writes the low 64 bits of A × B to d. -/
  | mul (d a b : Reg)
  /-- `MULH` (R131): Writes the high 64 bits of the signed product to d. -/
  | mulh (d a b : Reg)
  /-- `MULHN` (R131): Writes the high 64 bits of the unsigned product to d. -/
  | mulhn (d a b : Reg)
  /-- `DIV` (R132): Signed division writing the truncated quotient to d on the shared divider. -/
  | div (d a b : Reg)
  /-- `DIVN` (R132): Unsigned division writing the quotient to d. -/
  | divn (d a b : Reg)
  /-- `REM` (R132): Signed remainder written to d. -/
  | rem (d a b : Reg)
  /-- `REMN` (R132): Unsigned remainder written to d. -/
  | remn (d a b : Reg)
  /-- `MIN` (R131): Writes the signed minimum of A and B to d. -/
  | min (d a b : Reg)
  /-- `MAX` (R131): Writes the signed maximum of A and B to d. -/
  | max (d a b : Reg)
  /-- `MINN` (R131): Writes the unsigned minimum of A and B to d. -/
  | minn (d a b : Reg)
  /-- `MAXN` (R131): Writes the unsigned maximum of A and B to d. -/
  | maxn (d a b : Reg)
  /-- `SEQ` (R131): Writes 1 to d if A equals B, else 0. -/
  | seq (d a b : Reg)
  /-- `SLT` (R131): Writes 1 to d if A is less than B signed. -/
  | slt (d a b : Reg)
  /-- `SLTN` (R131): Writes 1 to d if A is less than B unsigned. -/
  | sltn (d a b : Reg)
  /-- `SEL` (R131): Merges A and B bitwise under the mask held in d. -/
  | sel (d a b : Reg)
  /-- `ADDSH1` (R131): Writes (A << 1) + B to d. -/
  | addsh1 (d a b : Reg)
  /-- `ADDSH2` (R131): Writes (A << 2) + B to d. -/
  | addsh2 (d a b : Reg)
  /-- `ADDSH3` (R131): Writes (A << 3) + B to d. -/
  | addsh3 (d a b : Reg)
  /-- `POPC` (R131): Writes the count of 1 bits of A to d. -/
  | popc (d a : Reg)
  /-- `CLZ` (R131): Writes the count of leading zeros of A to d. -/
  | clz (d a : Reg)
  /-- `CTZ` (R131): Writes the count of trailing zeros of A to d. -/
  | ctz (d a : Reg)
  /-- `BEXT` (R133): Extracts a bit field of A described by B into d. -/
  | bext (d a b : Reg)
  /-- `BEXTS` (R133): Extracts a sign-extended bit field of A into d. -/
  | bexts (d a b : Reg)
  /-- `BINS` (R133): Inserts the low bits of A into d at the field described by B. -/
  | bins (d a b : Reg)
  /-- `MOV` (R131): Copies A to d. -/
  | mov (d a : Reg)
  /-- `ADDI` (R134): Adds a sign-extended 15-bit immediate to A into d. -/
  | addi (d a : Reg) (imm : BitVec 15)
  /-- `ANDI` (R134): ANDs A with a sign-extended 13-bit immediate into d. -/
  | andi (d a : Reg) (imm : BitVec 13)
  /-- `ORI` (R134): ORs A with a sign-extended 13-bit immediate into d. -/
  | ori (d a : Reg) (imm : BitVec 13)
  /-- `XORI` (R134): XORs A with a sign-extended 13-bit immediate into d. -/
  | xori (d a : Reg) (imm : BitVec 13)
  /-- `SLTI` (R134): Writes 1 to d if A is less than the signed immediate. -/
  | slti (d a : Reg) (imm : BitVec 13)
  /-- `SHLI` (R134): Shifts A left by an immediate amount into d. -/
  | shli (d a : Reg) (n : BitVec 6)
  /-- `SHRI` (R134): Shifts A right logically by an immediate amount into d. -/
  | shri (d a : Reg) (n : BitVec 6)
  /-- `SHAI` (R134): Shifts A right arithmetically by an immediate amount into d. -/
  | shai (d a : Reg) (n : BitVec 6)
  /-- `ROTI` (R134): Rotates A right by an immediate amount into d. -/
  | roti (d a : Reg) (n : BitVec 6)
  /-- `MOVI` (R134): Writes a sign-extended 20-bit immediate to d. -/
  | movi (d : Reg) (imm : BitVec 20)
  /-- `LIH` (R134): Replaces bits [63:20] of d with the sign-extended immediate, keeping d[19:0]. -/
  | lih (d : Reg) (imm : BitVec 20)
  /-- `LDB` (R136): Loads a zero-extended byte from A + off into d. -/
  | ldb (d a : Reg) (off : BitVec 12)
  /-- `LDH` (R136): Loads a zero-extended halfword into d. -/
  | ldh (d a : Reg) (off : BitVec 12)
  /-- `LDW` (R136): Loads a zero-extended word into d. -/
  | ldw (d a : Reg) (off : BitVec 12)
  /-- `LDD` (R136): Loads a doubleword into d. -/
  | ldd (d a : Reg) (off : BitVec 12)
  /-- `LDBS` (R136): Loads a sign-extended byte into d. -/
  | ldbs (d a : Reg) (off : BitVec 12)
  /-- `LDHS` (R136): Loads a sign-extended halfword into d. -/
  | ldhs (d a : Reg) (off : BitVec 12)
  /-- `LDWS` (R136): Loads a sign-extended word into d. -/
  | ldws (d a : Reg) (off : BitVec 12)
  /-- `LDQ` (R143): Reads a doubleword from a queue's read entry, taking the message for the activation. -/
  | ldq (d : Reg) (q : QNum) (off : BitVec 12)
  /-- `STB` (R136): Stores the low byte of C at A + off. -/
  | stb (c a : Reg) (off : BitVec 12)
  /-- `STH` (R136): Stores the low halfword of C. -/
  | sth (c a : Reg) (off : BitVec 12)
  /-- `STW` (R136): Stores the low word of C. -/
  | stw (c a : Reg) (off : BitVec 12)
  /-- `STD` (R136): Stores the doubleword C. -/
  | std (c a : Reg) (off : BitVec 12)
  /-- `BEQ` (R145): Branches when A equals C. -/
  | beq (a c : Reg) (off : BitVec 12)
  /-- `BNE` (R145): Branches when A differs from C. -/
  | bne (a c : Reg) (off : BitVec 12)
  /-- `BLT` (R145): Branches when A is less than C signed. -/
  | blt (a c : Reg) (off : BitVec 12)
  /-- `BGE` (R145): Branches when A is at least C signed. -/
  | bge (a c : Reg) (off : BitVec 12)
  /-- `BLTN` (R145): Branches when A is less than C unsigned. -/
  | bltn (a c : Reg) (off : BitVec 12)
  /-- `BGEN` (R145): Branches when A is at least C unsigned. -/
  | bgen (a c : Reg) (off : BitVec 12)
  /-- `BBS` (R145): Branches when bit C[5:0] of A is 1. -/
  | bbs (a c : Reg) (off : BitVec 12)
  /-- `BBC` (R145): Branches when bit C[5:0] of A is 0. -/
  | bbc (a c : Reg) (off : BitVec 12)
  /-- `B` (R146): Jumps to a PC-relative target. -/
  | b (off : BitVec 25)
  /-- `CALL` (R146): Jumps to a PC-relative target and writes the link to s1. -/
  | call (off : BitVec 25)
  /-- `J` (R146): Jumps to A + off with bit 0 cleared. -/
  | j (a : Reg) (off : BitVec 14)
  /-- `JAL` (R146): Jumps to A + off and writes the link to d. -/
  | jal (d a : Reg) (off : BitVec 14)
  /-- `LOOP` (R148): Opens a hardware loop level with trip count A[31:0], or skips the body when it is 0. -/
  | loop (a : Reg) (len : BitVec 12)
  /-- `XSET` (R152): Writes A into extension register ek. -/
  | xset (k : EReg) (a : Reg)
  /-- `XGET` (R152): Copies extension register ek into d. -/
  | xget (d : Reg) (k : EReg)
  /-- `CADD` (R157): Adds B to the counter at A with a release, at the home. -/
  | cadd (a b : Reg)
  /-- `CADDF` (R157): Adds B to the counter at A and returns the old value to d, with release and acquire. -/
  | caddf (d a b : Reg)
  /-- `CWAIT` (R158): Waits until the counter at A holds at least B, then acquires. -/
  | cwait (a b : Reg)
  /-- `CWAITT` (R158): Waits for the counter target with a timeout from e0 and writes a met flag to d. -/
  | cwaitt (d a b : Reg)
  /-- `CREAD` (R159): Reads the value word of the counter at A into d. -/
  | cread (d a : Reg)
  /-- `CWATCH` (R160): Registers a watch at the counter's home that sends a wake message when the target is reached. -/
  | cwatch (a b : Reg)
  /-- `REDADD` (R162): Adds B into the integer word at A at its home. -/
  | redadd (m : BitVec 2) (a b : Reg)
  /-- `REDADDF` (R162): Adds FP32 B into the word at A at its home with RNE rounding. -/
  | redaddf (a b : Reg)
  /-- `REDMIN` (R162): Replaces the word at A by the minimum of it and B. -/
  | redmin (m : BitVec 2) (a b : Reg)
  /-- `REDMAX` (R162): Replaces the word at A by the maximum of it and B. -/
  | redmax (m : BitVec 2) (a b : Reg)
  /-- `REDAND` (R162): ANDs B into the word at A at its home. -/
  | redand (m : BitVec 2) (a b : Reg)
  /-- `REDOR` (R162): ORs B into the word at A at its home. -/
  | redor (m : BitVec 2) (a b : Reg)
  /-- `REDXOR` (R162): XORs B into the word at A at its home. -/
  | redxor (m : BitVec 2) (a b : Reg)
  /-- `FENCE` (R163): Orders the slot's own accesses by kind and scope, waiting for earlier accesses. -/
  | fence (kind : BitVec 2) (scope : BitVec 3)
  /-- `BARW` (R165): Releases, arrives on the tile's roll-call wires and waits for their release, then acquires. -/
  | barw (wire : BitVec 2)
  /-- `SEND` (R166): Releases and injects a message of D bytes to a queue of the tile named by A. -/
  | send (lc : Bool) (a b d : Reg)
  /-- `SENDS` (R168): Forms a message with its release and holds it as a draft in the draft buffer. -/
  | sends (lc : Bool) (a b d : Reg)
  /-- `COMMIT` (R168): Injects the calling slot's drafts in the order written. -/
  | commit
  /-- `ABORT` (R168): Frees the calling slot's drafts without sending. -/
  | abort
  /-- `FWD` (R169): Writes A into the facing mailbox of the neighbour in a direction over the forwarding lane. -/
  | fwd (dir : BitVec 2) (a : Reg)
  /-- `FWDW` (R170): Pops the oldest mailbox entry of a direction into d, waiting while it is empty. -/
  | fwdw (dir : BitVec 2) (d : Reg)
  /-- `LLPUT` (R171): Appends 32 bytes at A to the tile's levelling work list. -/
  | llput (a : Reg)
  /-- `LLGET` (R171): Takes the oldest work-list entry and writes its offset, or 0, to d. -/
  | llget (d : Reg)
  /-- `ARM` (R172): Binds a queue and tag to a handler entry, completion counter and share. -/
  | arm (q : QNum) (a b : Reg)
  /-- `DISARM` (R172): Removes the binding of a queue and tag. -/
  | disarm (q : QNum) (a : Reg)
  /-- `TRIG` (R173): Adds the activation's share to its completion counter once. -/
  | trig
  /-- `END` (R173): Ends the activation: discards drafts and loops, frees entries, queues the share add and frees the
  slot. -/
  | endI
  /-- `JOIN` (R174): Asks the region's group directory to add the tile to a group and waits for the acknowledgement. -/
  | join (a : Reg)
  /-- `LEAVE` (R174): Asks the group directory to remove the tile from a group and waits for the acknowledgement. -/
  | leave (a : Reg)
  /-- `QWAIT` (R176): Waits for an untaken read entry, takes and passes it and returns its offset, tag and length. -/
  | qwait (d : Reg) (q : QNum)
  /-- `QADV` (R177): Waits for a read entry and passes it. -/
  | qadv (q : QNum)
  /-- `QFREE` (R177): Frees a queue entry that the calling activation holds. -/
  | qfree (q : QNum) (a : Reg)
  /-- `QPUSH` (R178): Writes a message into the tile's own queue as if it had arrived. -/
  | qpush (q : QNum) (a b : Reg)
  /-- `QSTAT` (R179): Writes the queue's pending, held, free and blocked counts to d. -/
  | qstat (d : Reg) (q : QNum)
  /-- `TRAP` (R180): Raises TRAP_INSN after completing, with its immediate in EVAL. -/
  | trap (imm : BitVec 12)
  /-- `SYSCALL` (R181): Sends a 64-byte request block to the tenant image with a dependency token and completion
  counter. -/
  | syscall (c : Reg)
  /-- `MIGRATE` (R182): Moves the activation's slot state to a proctor core, or back to its home slot. -/
  | migrate
  /-- `BRK` (R180): Raises BREAK before it takes effect. -/
  | brk (imm : BitVec 12)
  /-- `MFS` (R183): Reads a state register by index into c. -/
  | mfs (c : Reg) (imm : BitVec 12)
  /-- `MTS` (R183): Writes C to a state register by index, with that register's side effects. -/
  | mts (c : Reg) (imm : BitVec 12)
  /-- `ERET` (R184): Returns a proctor core from a trap or hypercall to the saved level and PC. -/
  | eret
  /-- `WFI` (R184): Waits until an interrupt or trap message is pending for the proctor core. -/
  | wfi
  /-- `HVCALL` (R184): Enters level H at HVENTRY with the immediate in HVIMM. -/
  | hvcall (imm : BitVec 12)
  /-- `ATINV` (R184): Invalidates the proctor core's translations of a page, or all. -/
  | atinv (c : Reg)
  /-- `DCWB` (R184): Writes back the data- and island-cache line holding C. -/
  | dcwb (c : Reg)
  /-- `DCINV` (R184): Discards the cache line holding C without writing it back. -/
  | dcinv (c : Reg)
  /-- `ICINV` (R184): Discards the instruction-cache line holding C. -/
  | icinv (c : Reg)
  /-- `NOP` (R105): Any major 0x1F word executes as a no-operation in one issue cycle. -/
  | nop
  /-- `VADD` (R196): Adds lanes of va and vb into vd. -/
  | vadd (ty : Ty) (vd va vb : VReg)
  /-- `VSUB` (R196): Subtracts lanes of vb from va into vd. -/
  | vsub (ty : Ty) (vd va vb : VReg)
  /-- `VMUL` (R196): Multiplies lanes of va and vb into vd. -/
  | vmul (ty : Ty) (vd va vb : VReg)
  /-- `VFMA` (R196): Computes va × vb + vd per lane with one rounding. -/
  | vfma (ty : Ty) (vd va vb : VReg)
  /-- `VMIN` (R196): Writes the lane minimum of va and vb to vd. -/
  | vmin (ty : Ty) (vd va vb : VReg)
  /-- `VMAX` (R196): Writes the lane maximum of va and vb to vd. -/
  | vmax (ty : Ty) (vd va vb : VReg)
  /-- `VAND` (R196): Bitwise AND of lanes into vd. -/
  | vand (ty : Ty) (vd va vb : VReg)
  /-- `VOR` (R196): Bitwise OR of lanes into vd. -/
  | vor (ty : Ty) (vd va vb : VReg)
  /-- `VXOR` (R196): Bitwise XOR of lanes into vd. -/
  | vxor (ty : Ty) (vd va vb : VReg)
  /-- `VSHL` (R196): Shifts integer lanes of va left by vb. -/
  | vshl (ty : Ty) (vd va vb : VReg)
  /-- `VSHR` (R196): Shifts integer lanes of va right logically by vb. -/
  | vshr (ty : Ty) (vd va vb : VReg)
  /-- `VSHA` (R196): Shifts integer lanes of va right arithmetically by vb. -/
  | vsha (ty : Ty) (vd va vb : VReg)
  /-- `VABS` (R196): Writes the absolute value of each lane of va to vd. -/
  | vabs (ty : Ty) (vd va : VReg)
  /-- `VNEG` (R196): Writes the negation of each lane of va to vd. -/
  | vneg (ty : Ty) (vd va : VReg)
  /-- `VREC` (R197): Updates carried FP32 state vd ← va × vd + vb per lane. -/
  | vrec (ty : Ty) (vd va vb : VReg)
  /-- `VEXP2` (R198): Writes 2^x per lane, correctly rounded. -/
  | vexp2 (ty : Ty) (vd va : VReg)
  /-- `VLOG2` (R198): Writes log2 x per lane, correctly rounded. -/
  | vlog2 (ty : Ty) (vd va : VReg)
  /-- `VRCP` (R198): Writes 1/x per lane, correctly rounded. -/
  | vrcp (ty : Ty) (vd va : VReg)
  /-- `VRSQ` (R198): Writes 1/√x per lane, correctly rounded. -/
  | vrsq (ty : Ty) (vd va : VReg)
  /-- `VSIG` (R198): Writes the logistic sigmoid per lane, correctly rounded. -/
  | vsig (ty : Ty) (vd va : VReg)
  /-- `VCVT` (R199): Converts lanes from a source type to the target type by rounding mode and saturation, across
  several rows when lane counts differ. -/
  | vcvt (ty src : Ty) (mode : BitVec 2) (sat : Bool) (vd va : VReg)
  /-- `VPERM` (R201): Permutes lanes of va by the indices in vb. -/
  | vperm (ty : Ty) (vd va vb : VReg)
  /-- `VSHF` (R201): Interleaves the lower halves of va and vb into vd. -/
  | vshf (ty : Ty) (vd va vb : VReg)
  /-- `VSCAN` (R208): Writes the inclusive Kogge–Stone scan of 16 lanes of va to vd. -/
  | vscan (ty : Ty) (vd va : VReg) (op : BitVec 2)
  /-- `VMOV` (R201): Copies all 512 bits of va to vd. -/
  | vmov (ty : Ty) (vd va : VReg)
  /-- `VLD` (R202): Loads 64 bytes from A + 64·off into row v. -/
  | vld (v : VReg) (a : Reg) (off : BitVec 6)
  /-- `VST` (R202): Stores row v to A + 64·off. -/
  | vst (v : VReg) (a : Reg) (off : BitVec 6)
  /-- `VLDQ` (R204): Takes a queue's read entry and loads 64 bytes of it into row v. -/
  | vldq (v : VReg) (q : QNum) (off : BitVec 6)
  /-- `VBCAST` (R205): Broadcasts A into every lane of v. -/
  | vbcast (ty : Ty) (v : VReg) (a : Reg)
  /-- `VEXT` (R205): Extracts a lane of v into scalar register a. -/
  | vext (ty : Ty) (a : Reg) (v : VReg) (lane : BitVec 6)
  /-- `VINS` (R205): Inserts A into one lane of v. -/
  | vins (ty : Ty) (v : VReg) (a : Reg) (lane : BitVec 6)
  /-- `VCMPEQ` (R206): Writes a lane mask of v = vx to scalar a. -/
  | vcmpeq (ty : Ty) (a : Reg) (v vx : VReg)
  /-- `VCMPLT` (R206): Writes a lane mask of v < vx to scalar a. -/
  | vcmplt (ty : Ty) (a : Reg) (v vx : VReg)
  /-- `VCMPLE` (R206): Writes a lane mask of v ≤ vx to scalar a. -/
  | vcmple (ty : Ty) (a : Reg) (v vx : VReg)
  /-- `VSEL` (R206): Sets lanes of v from vx where the mask A has a 1. -/
  | vsel (ty : Ty) (v : VReg) (a : Reg) (vx : VReg)
  /-- `VREDADD` (R207): Reduces the lanes of v by a halving-tree sum into scalar a. -/
  | vredadd (ty : Ty) (a : Reg) (v : VReg)
  /-- `VREDMAX` (R207): Writes the largest lane of v to scalar a. -/
  | vredmax (ty : Ty) (a : Reg) (v : VReg)
  /-- `VREDMIN` (R207): Writes the smallest lane of v to scalar a. -/
  | vredmin (ty : Ty) (a : Reg) (v : VReg)
  /-- `XSCAN` (R209): Scans rows in place along a chain of neighbouring tiles, carrying through the forwarding
  mailboxes. -/
  | xscan (ty : Ty) (v : VReg) (dirIn dirOut op role : BitVec 2)
  /-- `VFENCE` (R193): Waits until every earlier-issued vector command of the tile has completed. -/
  | vfence
  /-- `VSTM` (R203): Stores the bytes of row v enabled by the mask in sM. -/
  | vstm (v : VReg) (a m : Reg)
  /-- `GANG` (R213): Sets the tile's gang width and position once no matrix operation is joined or waiting. -/
  | gang (w : BitVec 3) (pos : BitVec 2)
  /-- `MOPA_ACC` (R215): Sets DESC_A to an operand in accumulator tile aN. -/
  | mopaAcc (ty : Ty) (acc : Acc)
  /-- `MOPA_BLOCK` (R216): Sets DESC_A to a block-scratch operand with base A and layout word B. -/
  | mopaBlock (ty : Ty) (a b : Reg)
  /-- `MOPB_ACC` (R215): Sets DESC_B to an operand in accumulator tile aN. -/
  | mopbAcc (ty : Ty) (acc : Acc)
  /-- `MOPB_BLOCK` (R216): Sets DESC_B to a block-scratch operand with base A and layout word B. -/
  | mopbBlock (ty : Ty) (a b : Reg)
  /-- `MMA` (R219): Arrives at the gang join for a dense matrix multiply-accumulate into aN, or an FP4 block into pN. -/
  | mma (acc : Acc) (pb : Bool)
  /-- `MMAS` (R224): Arrives at the gang join for a 2:4 sparse multiply-accumulate with metadata at A. -/
  | mmas (acc : Acc) (a : Reg)
  /-- `MSCA` (R226): Scales partial buffer pN by row and column scale vectors and accumulates into aN. -/
  | msca (acc : Acc) (pb : Bool) (vsa vsb : VReg)
  /-- `MZERO` (R228): Clears accumulator tile aN in issue order. -/
  | mzero (acc : Acc)
  /-- `MSTAT` (R228): Reads MSTATW into d and clears its sticky bits. -/
  | mstat (d : Reg)
  /-- `MWAIT` (R228): Waits until every earlier matrix command of the tile has completed. -/
  | mwait
  /-- `DPATCH` (R249): Loads patch words for a range of cells, or the map block, from scratch. -/
  | dpatch (cell : BitVec 9) (a d : Reg)
  /-- `DSET` (R250): Sets a cell's integrand Y from an FP32 value. -/
  | dset (cell : BitVec 8) (a : Reg)
  /-- `DGET` (R250): Reads a cell's Y as FP32 into d. -/
  | dget (d : Reg) (cell : BitVec 8)
  /-- `DRES` (R250): Reads a cell's residue and last output into d. -/
  | dres (d : Reg) (cell : BitVec 8)
  /-- `DSAVE` (R251): Writes the halted fabric's save image to scratch. -/
  | dsave (a : Reg)
  /-- `DLOAD` (R251): Restores the halted fabric from a save image. -/
  | dload (a : Reg)
  /-- `DCLK` (R252): Sets divider, domain and policy and enrols the halted tile in its step domain. -/
  | dclk (div : BitVec 4) (a : Reg)
  /-- `DSTEP` (R252): Sets the step budget the next DRUN asks for. -/
  | dstep (a : Reg)
  /-- `DRUN` (R243): Arms the tile for a run; the start is taken when the last member arms. -/
  | drun
  /-- `DHALT` (R252): Requests a halt of the running domain or withdraws an arming before the start. -/
  | dhalt
  /-- `DWAIT` (R252): Waits until the fabric is HALTED. -/
  | dwait
  /-- `DRDC` (R254): Reads a readout count into d, optionally subtracting it from the count. -/
  | drdc (clr : Bool) (d : Reg) (cnt : BitVec 5)
  /-- `DCLRC` (R254): Clears a readout count at the applicable boundary. -/
  | dclrc (cnt : BitVec 5)
  /-- `DSTAT` (R254): Reads DDA_STAT into d. -/
  | dstat (d : Reg)
  /-- `DINJ` (R253): Loads a 64-byte pattern that forces cell outputs in the next step. -/
  | dinj (a : Reg)
  /-- `FETCH` (R262): Queues a stream transfer from any space into own tile scratch, signalling counter B. -/
  | fetch (acq rel : Bool) (scope : BitVec 3) (lc : Bool) (d a b : Reg)
  /-- `PUT` (R262): Queues a stream transfer from own tile scratch to any space. -/
  | put (acq rel : Bool) (scope : BitVec 3) (lc : Bool) (d a b : Reg)
  /-- `COPY` (R262): Queues a stream transfer between any spaces. -/
  | copy (acq rel : Bool) (scope : BitVec 3) (lc : Bool) (d a b : Reg)
  /-- `MCAST` (R262): Queues a transfer from own scratch to every member of a group. -/
  | mcast (acq rel : Bool) (scope : BitVec 3) (lc : Bool) (d a b : Reg)
  /-- `GATHER` (R263): Queues a transfer of listed elements into contiguous own scratch. -/
  | gather (acq rel : Bool) (scope : BitVec 3) (lc : Bool) (d a b : Reg)
  /-- `SCATTER` (R263): Queues a transfer of contiguous own scratch to listed elements. -/
  | scatter (acq rel : Bool) (scope : BitVec 3) (lc : Bool) (d a b : Reg)
  /-- `TREC` (R259): Writes a tensor record from e0–e3 into a slot and returns the new handle. -/
  | trec (d a : Reg)
  /-- `TRINV` (R261): Invalidates a record slot and advances its generation. -/
  | trinv (a : Reg)
  /-- `SFENCE` (R269): Waits until every earlier transfer command of the tile has made its counter adds. -/
  | sfence
  /-- `C_MOV` (R116): Compact form of MOV d, b. -/
  | cMov (d b : BitVec 4)
  /-- `C_ADD` (R116): Compact form of ADD d, d, b. -/
  | cAdd (d b : BitVec 4)
  /-- `C_SUB` (R116): Compact form of SUB d, d, b. -/
  | cSub (d b : BitVec 4)
  /-- `C_AND` (R116): Compact form of AND d, d, b. -/
  | cAnd (d b : BitVec 4)
  /-- `C_OR` (R116): Compact form of OR d, d, b. -/
  | cOr (d b : BitVec 4)
  /-- `C_XOR` (R116): Compact form of XOR d, d, b. -/
  | cXor (d b : BitVec 4)
  /-- `C_SHL` (R116): Compact form of SHL d, d, b. -/
  | cShl (d b : BitVec 4)
  /-- `C_SHR` (R116): Compact form of SHR d, d, b. -/
  | cShr (d b : BitVec 4)
  /-- `C_ADDI` (R116): Compact form of ADDI d, d, imm7. -/
  | cAddi (d : BitVec 4) (imm : BitVec 7)
  /-- `C_MOVI` (R116): Compact form of MOVI d, imm7. -/
  | cMovi (d : BitVec 4) (imm : BitVec 7)
  /-- `C_SHLI` (R116): Compact form of SHLI d, d, n. -/
  | cShli (d : BitVec 4) (n : BitVec 6)
  /-- `C_LDD` (R116): Compact form of LDD with offset 8·off3. -/
  | cLdd (d a : BitVec 4) (off : BitVec 3)
  /-- `C_STD` (R116): Compact form of STD with offset 8·off3. -/
  | cStd (c a : BitVec 4) (off : BitVec 3)
  /-- `C_LDW` (R116): Compact form of LDW with offset 4·off3. -/
  | cLdw (d a : BitVec 4) (off : BitVec 3)
  /-- `C_STW` (R116): Compact form of STW with offset 4·off3. -/
  | cStw (c a : BitVec 4) (off : BitVec 3)
  /-- `C_BEQZ` (R116): Compact form of BEQ a, s0. -/
  | cBeqz (a : BitVec 4) (off : BitVec 7)
  /-- `C_BNEZ` (R116): Compact form of BNE a, s0. -/
  | cBnez (a : BitVec 4) (off : BitVec 7)
  /-- `C_B` (R116): Compact form of B with an 11-bit offset. -/
  | cB (off : BitVec 11)
  /-- `C_J` (R116): Compact form of J a, 0. -/
  | cJ (a : BitVec 4)
  /-- `C_END` (R116): Compact form of END. -/
  | cEnd
  /-- `C_QADV` (R116): Compact form of QADV qN. -/
  | cQadv (q : QNum)
  /-- `COMPACT_HINT` (R105): The compact hint executes as a no-operation. -/
  | compactHint
  /-- `MESSAGE_ARRIVAL` (R156): A message's flits are written into its queue entry and it arrives when its tail flit
  is written. -/
  | messageArrival (p : Nat)
  /-- `ACTIVATION_FIRING` (R27): A firable message at a queue head fires a handler into a FREE slot with the registers
  of R28. -/
  | activationFiring (t : TileName)
  /-- `SHARE_ADD_DEPARTURE` (R173): The share add queued by END leaves once every access its release covers is
  performed. -/
  | shareAddDeparture (t : TileName) (i : Nat)
  /-- `REMOTE_ACCESS_AT_HOME` (R82): A load or store request is performed at its location's home and answered. -/
  | remoteAccessAtHome (p : Nat)
  /-- `COUNTER_REQUEST_AT_HOME` (R157): A counter add, read or watch request is performed atomically at the counter's
  home. -/
  | counterRequestAtHome (p : Nat)
  /-- `REDUCTION_AT_HOME` (R162): A reduction request is combined into its word at the home. -/
  | reductionAtHome (p : Nat)
  /-- `LOAD_RESPONSE` (R370): A load's data arrives and writes its destination, or an ECC_UE trap is taken. -/
  | loadResponse (p : Nat)
  /-- `OFF_TILE_ACK` (R141): An acknowledgement of an off-tile store or request arrives and releases its slot in the
  16 unacknowledged. -/
  | offTileAck (p : Nat)
  /-- `WAKE_ARRIVAL` (R94): A watch wake on VC1 completes a waiting CWAIT or CWAITT, or is discarded after a timeout. -/
  | wakeArrival (p : Nat)
  /-- `CWAITT_TIMEOUT` (R158): A CWAITT's timeout expires and it completes with flag 0. -/
  | cwaittTimeout (ag : Agent)
  /-- `MAC_RESULT_ARRIVAL` (R98): The deferred MAC result of an edge line arrives, lowering OUTST and raising FAILS on
  failure. -/
  | macResultArrival (p : Nat)
  /-- `WIRE_RELEASE` (R165): A roll-call wire releases all its waiting members after its last arrival. -/
  | wireRelease (b : BulkId) (col : Bool) (i : Nat)
  /-- `FWD_VALUE_ARRIVAL` (R169): A forwarded value or scan carry arrives in a neighbour's mailbox. -/
  | fwdValueArrival (p : Nat)
  /-- `LANE_GATE_REFUSAL` (R279): A forwarding-lane value refused at a seam gate returns and the sender takes GATE. -/
  | laneGateRefusal (p : Nat)
  /-- `GROUP_DIRECTORY_REQUEST` (R174): The group directory performs a JOIN or LEAVE and acknowledges it. -/
  | groupDirectoryRequest (p : Nat)
  /-- `GROUP_ACK_ARRIVAL` (R35): The directory's acknowledgement completes a waiting JOIN or LEAVE. -/
  | groupAckArrival (p : Nat)
  /-- `MIGRATED_ACTIVATION_PLACEMENT` (R182): The Dean places a migrated activation on a free proctor core running the
  tenant image. -/
  | migratedActivationPlacement (p : Nat) (c : BitVec 3)
  /-- `VECTOR_COMMAND_START` (R190): The oldest queued vector command starts once its operands and the unit are ready,
  freeing its queue entry. -/
  | vectorCommandStart (t : TileName)
  /-- `VECTOR_COMMAND_COMPLETE` (R195): A vector command completes, writing its row, scalar or memory. -/
  | vectorCommandComplete (t : TileName) (i : Nat)
  /-- `GANG_JOIN_COMPLETION` (R220): A gang join completes, compares members and reads the operand descriptors. -/
  | gangJoinCompletion (t : TileName)
  /-- `GANG_ABORT` (R222): An abort signalled on the gang bus makes every arrived member take MATRIX_COMBO in the next
  cycle. -/
  | gangAbort (t : TileName)
  /-- `MATRIX_ARRAY_START` (R231): A joined matrix operation starts in the array once it is free and bank delays have
  passed. -/
  | matrixArrayStart (t : TileName)
  /-- `MATRIX_ARRAY_COMPLETE` (R231): A matrix operation's results become visible and MSTATW is updated. -/
  | matrixArrayComplete (t : TileName)
  /-- `MSCA_STAGE_START` (R227): An MSCA starts in the scale stage once its partial buffer is written. -/
  | mscaStageStart (t : TileName)
  /-- `MSCA_STAGE_COMPLETE` (R227): An MSCA completes and writes its accumulator. -/
  | mscaStageComplete (t : TileName)
  /-- `DOMAIN_START` (R243): All members of a step domain start step 1 on the start edge with the run's budget. -/
  | domainStart (t : TileName)
  /-- `FABRIC_STEP` (R236): Every member cell of a running domain computes its new state and all values replace the
  old at the boundary. -/
  | fabricStep (t : TileName)
  /-- `DOMAIN_HALT` (R244): A running domain halts at a boundary on budget expiry, DHALT, FAULT overrun, cell error or
  freeze. -/
  | domainHalt (t : TileName)
  /-- `STREAM_COMMAND_START` (R265): The engine takes a held command into service in issue order, after its acquire. -/
  | streamCommandStart (t : TileName)
  /-- `STREAM_WRITE_AT_HOME` (R96): A stream write packet is performed at its destination home and acknowledged. -/
  | streamWriteAtHome (p : Nat)
  /-- `STREAM_READ_RESPONSE` (R265): A stream read response arrives at the engine. -/
  | streamReadResponse (p : Nat)
  /-- `STREAM_COUNTER_ADD` (R97): A command whose writes are all performed raises its counter by its byte count, with
  error bits. -/
  | streamCounterAdd (t : TileName)
  /-- `LEVELLING_BOUNDARY` (R271): At each interval boundary an eligible tile ships work entries to its least-loaded
  neighbour. -/
  | levellingBoundary (t : TileName)
  /-- `LEVELLING_ENTRY_ARRIVAL` (R271): A shipped work entry arrives and is appended to the receiver's list. -/
  | levellingEntryArrival (p : Nat)
  /-- `FLIT_FORWARD` (R282): A router output port forwards one flit chosen by VC budgets and wormhole rules. -/
  | flitForward (node : Nat) (port : Nat) (merge : Bool)
  /-- `PACKET_PROMOTION` (R283): A packet whose age reaches AGE_LIMIT is promoted ahead of budget arbitration. -/
  | packetPromotion (node : Nat) (port : Nat) (vc : Nat)
  /-- `GATE_REFUSAL` (R295): A gate's refusal arrives at the source, which takes GATE. -/
  | gateRefusal (p : Nat)
  /-- `CODE_STORE_REFUSAL` (R138): A refusal of a store to a locked code region arrives and the storing slot takes
  PRIV. -/
  | codeStoreRefusal (p : Nat)
  /-- `MESSAGE_REFUSAL` (R167): A destination's refusal of a message arrives and the sender takes QUEUE_ERR. -/
  | messageRefusal (p : Nat)
  /-- `STATION_TRANSLATE` (R312): A translated request reaches its station and is translated by range entry, cache or
  walk. -/
  | stationTranslate (p : Nat)
  /-- `WALK_READ` (R312): A sealed read of a walk returns and the walk proceeds, faults or finishes. -/
  | walkRead (p : Nat)
  /-- `STATION_FORWARDED_REQUEST` (R280): A request forwarded by one station reaches the home station and is performed
  there. -/
  | stationForwardedRequest (p : Nat)
  /-- `PAGE_REENCRYPTION` (R319): A page's re-encryption completes and the requests waiting on it proceed. -/
  | pageReencryption (page : Nat)
  /-- `TRAP_RECORD_ARRIVAL` (R325): A trap record arrives at the island, is written into the ring and TQTAIL advances.
  -/
  | trapRecordArrival (p : Nat)
  /-- `INVIGILATOR_EXPIRY` (R341): The idle count reaches the window, freezing the region and raising STALL. -/
  | invigilatorExpiry (r : Nat)
  /-- `BACKGROUND_SCRUB` (R345): The background scrubber reads an ECC word, correcting or reporting errors. -/
  | backgroundScrub (ecc : Nat)
  /-- `SLOT_RESUME` (R329): A RESUME write to a slot record makes a PARKED slot READY. -/
  | slotResume (t : TileName) (k : BitVec 2)
  /-- `SLOT_KILL` (R330): A KILL write frees a slot, adding its share with KILLED and abandoning its waits. -/
  | slotKill (t : TileName) (k : BitVec 2)
  /-- `SLOT_REGISTER_WRITE` (R327): A write to a parked slot's register supplies a pending load value and clears its
  PENDMASK bit. -/
  | slotRegisterWrite (t : TileName) (k : BitVec 2) (off : Nat) (v : Word)
  /-- `INTEG_CLEAR` (R344): A write to INTEG through the tile state space sets FAILS to 0. -/
  | integClear (t : TileName)
  /-- `DBG_CTL_WRITE` (R332): A write to DBG_CTL sets breakpoints and the stepped slot, marking the region debugged
  when it sets EN. -/
  | dbgCtlWrite (t : TileName) (v : Word)
  /-- `DEBUG_STEP` (R333): A DBG_STEP write runs a parked slot for COUNT instructions, then parks it with BREAK. -/
  | debugStep (t : TileName) (v : Word)
  /-- `PREEMPT_STOP` (R334): STOP stops the tile from firing and issuing at the end of the cycle. -/
  | preemptStop (t : TileName)
  /-- `PREEMPT_SAVE` (R334): SAVE starts writing the stopped tile's save image. -/
  | preemptSave (t : TileName) (v : Word)
  /-- `PREEMPT_LOAD` (R338): LOAD starts restoring the tile from its save image. -/
  | preemptLoad (t : TileName) (v : Word)
  /-- `PREEMPT_RUN` (R334): RUN lets a stopped or loaded tile issue and fire again. -/
  | preemptRun (t : TileName)
  /-- `PREEMPT_SAVE_COMPLETE` (R337): The save image is written and DONE or ERR is set. -/
  | preemptSaveComplete (t : TileName)
  /-- `PREEMPT_LOAD_COMPLETE` (R338): The tile is restored from its image, re-arming its fabric, and DONE or ERR is
  set. -/
  | preemptLoadComplete (t : TileName)
  /-- `QUEUE_CANCEL` (R340): A cancel word write cancels an unfired message or reports it started or not found. -/
  | queueCancel (t : TileName) (v : Word)
  /-- `XLATE_RETRY` (R331): An XRETRY write retranslates the stalled request it names. -/
  | xlateRetry (b : BulkId) (xid : Nat)
  /-- `FABRIC_STATE_WRITE` (R326): A write to the fabric state area while halted acts as DLOAD. -/
  | fabricStateWrite (t : TileName) (off : Nat) (v : Word)
  /-- `ST_INV_REGION` (R315): ST_INV mode 1 invalidates every translation of the region. -/
  | stInvRegion (b : BulkId)
  /-- `ST_INV_PID` (R315): ST_INV mode 2 invalidates the translations of one PID. -/
  | stInvPid (b : BulkId) (pid : BitVec 16)
  /-- `ST_INV_PAGE` (R315): ST_INV mode 3 invalidates one PID's translation of the page in ST_INVVA. -/
  | stInvPage (b : BulkId) (pid : BitVec 16)
  /-- `ST_INV_COMPLETE` (R315): BUSY clears once no matching leaf, walk or request remains. -/
  | stInvComplete (b : BulkId)
  /-- `REGISTER_WRITE` (R326): A write to a register or state area that has no row of its own. -/
  | registerWrite (t : TileName) (off : Nat) (v : Word)
  /-- `SQ_DOORBELL` (R354): A write to SQTAIL makes new start descriptors of a host queue available. -/
  | sqDoorbell (q : Nat) (tail : Nat)
  /-- `HOST_START_DESCRIPTOR` (R354): The office die reads a start descriptor and its payload, injects the message and
  posts a completion. -/
  | hostStartDescriptor (q : Nat)
  /-- `SINGLE_REGION_RESET` (R298): The registrar closes a region's gates, resets its bulkheads and reopens them. -/
  | singleRegionReset (r : Nat)
  /-- `BULKHEAD_RESET` (R298): A bulkhead's reset line is pulsed, resetting its tiles and discarding router packets. -/
  | bulkheadReset (b : BulkId)
  /-- `BULKHEAD_FAILURE` (R300): A rail, clock or reset failure of a bulkhead freezes its owning region. -/
  | bulkheadFailure (b : BulkId)
  /-- `POWER_ON` (R346): The boot ROM checks the Yelk image, entering RECOVERY on failure. -/
  | powerOn
  /-- `MODULE_BOOT` (R355): Yelk brings up the module: maps, MAPGEN, scrub, ping sweep, Dean start and mailboxes. -/
  | moduleBoot
  /-- `VERSION` (R380): Mailbox command returning the five version words. -/
  | version (m : BitVec 2)
  /-- `ATTEST` (R350): Mailbox command returning a signed attestation report for a region. -/
  | attest (m : BitVec 2)
  /-- `READ_SCRUB_RECORD` (R384): READ selector 1 returns a region's scrub word. -/
  | readScrubRecord (m : BitVec 2)
  /-- `READ_BULKHEAD_RECORD` (R395): READ selector 2 returns a bulkhead's telemetry record. -/
  | readBulkheadRecord (m : BitVec 2)
  /-- `READ_MODULE_RECORD` (R396): READ selector 3 returns the module record. -/
  | readModuleRecord (m : BitVec 2)
  /-- `READ_RETIREMENT_ENTRY` (R392): READ selector 4 returns a retirement log entry and the entry count. -/
  | readRetirementEntry (m : BitVec 2)
  /-- `READ_LATENCY_HEADER` (R357): READ selector 5 returns the latency matrix header. -/
  | readLatencyHeader (m : BitVec 2)
  /-- `READ_REGION_INFO` (R394): READ selector 6 returns a region's bulkheads, tile count and worst station time. -/
  | readRegionInfo (m : BitVec 2)
  /-- `READ_CHALLENGE` (R394): READ selector 7 returns the master's CLAIM challenge and the owner. -/
  | readChallenge (m : BitVec 2)
  /-- `CLAIM` (R352): Mailbox command that makes the issuing master owner on a valid signature. -/
  | claim (m : BitVec 2)
  /-- `RELEASE` (R353): Mailbox command by which the owner hands ownership to a successor. -/
  | release (m : BitVec 2)
  /-- `ASSIGN` (R379): Mailbox command assigning bulkheads to a new region with key slots. -/
  | assign (m : BitVec 2)
  /-- `TEARDOWN` (R301): Mailbox command starting a region's teardown with gates closed, windows cleared and bulkheads
  reset. -/
  | teardown (m : BitVec 2)
  /-- `TEARDOWN_DRAINED` (R382): The region's stations have drained, so its key slots are zeroised in every station. -/
  | teardownDrained (r : Nat)
  /-- `KEY_ZEROISE_DONE` (R301): Key zeroisation has reached every station; TEARDOWN completes and the scrub pass
  starts. -/
  | keyZeroiseDone (r : Nat)
  /-- `SCRUB_HALL_CLEARED` (R383): A bulkhead's hall scratch and island cache clear completes and block clearing
  begins. -/
  | scrubHallCleared (b : BulkId)
  /-- `SCRUB_BLOCK_CLEARED` (R383): A usable block is cleared and SCRUB_PROGRESS rises. -/
  | scrubBlockCleared (b : BulkId)
  /-- `SCRUB_FINALISE` (R403): 512 cycles after the scrub ends the owners are cleared and the bulkheads become
  UNASSIGNED. -/
  | scrubFinalise (r : Nat)
  /-- `SCRUB_RESTART` (R385): After a reset bulkhead relocks, the scrub pass restarts from hall scratch in every
  bulkhead. -/
  | scrubRestart (r : Nat)
  /-- `PREEMPT_RELEASE` (R335): PREEMPT command that saves a region and releases its bulkheads. -/
  | preemptRelease (m : BitVec 2)
  /-- `PREEMPT_RESUME` (R335): PREEMPT command that saves a region as a checkpoint and resumes it in place. -/
  | preemptResume (m : BitVec 2)
  /-- `RESTORE` (R338): Mailbox command restoring a released region from its save images. -/
  | restore (m : BitVec 2)
  /-- `WINDOW_SET` (R297): Mailbox command writing a consented window entry into a gate. -/
  | windowSet (m : BitVec 2)
  /-- `WINDOW_WITHDRAW` (R297): Mailbox command removing a window on an owner's signed withdrawal. -/
  | windowWithdraw (m : BitVec 2)
  /-- `WINDOW_REMOVAL_COMPLETE` (R297): The removal is reported complete once acknowledgements of earlier passed
  requests have crossed the gate. -/
  | windowRemovalComplete (m : BitVec 2)
  /-- `KEYS_ADD` (R381): KEYS command adding a key slot to a region. -/
  | keysAdd (m : BitVec 2)
  /-- `KEYS_FREE` (R381): KEYS command freeing and zeroising one of a region's key slots. -/
  | keysFree (m : BitVec 2)
  /-- `RETIRE` (R391): Mailbox command appending a tile, block or bulkhead to the retirement log. -/
  | retire (m : BitVec 2)
  /-- `MIGRATE_START` (R365): MIGRATE command starting a confidential migration at the source. -/
  | migrateStart (m : BitVec 2)
  /-- `MIGRATE_CANCEL` (R366): MIGRATE command cancelling a migration at the source. -/
  | migrateCancel (m : BitVec 2)
  /-- `MIGRATE_RESTORE` (R366): MIGRATE command restoring at the destination under a received ACCEPT. -/
  | migrateRestore (m : BitVec 2)
  /-- `MIGRATION_PREPARE` (R365): A PREPARE message makes the destination reserve bulkheads and receive keys and
  images. -/
  | migrationPrepare (b : BulkId) (port : Nat)
  /-- `MIGRATION_ITEM` (R367): A manifest or item frame of a migration arrives at the destination. -/
  | migrationItem (b : BulkId) (port : Nat)
  /-- `MIGRATION_ACCEPT` (R366): An ACCEPT message commits the source to tear down and send COMMIT. -/
  | migrationAccept (b : BulkId) (port : Nat)
  /-- `MIGRATION_COMMIT` (R365): A COMMIT message makes the destination restore and answer DONE. -/
  | migrationCommit (b : BulkId) (port : Nat)
  /-- `MIGRATION_DONE` (R365): A DONE message completes the source's MIGRATE command. -/
  | migrationDone (b : BulkId) (port : Nat)
  /-- `MIGRATION_CANCEL` (R366): A CANCEL message aborts a migration not yet accepted. -/
  | migrationCancel (b : BulkId) (port : Nat)
  /-- `MIGRATION_ABORTED` (R366): An ABORTED message reports a cancelled migration. -/
  | migrationAborted (b : BulkId) (port : Nat)
  /-- `MIGRATION_REFUSED` (R365): A REFUSED message reports that the destination cannot reserve the bulkheads. -/
  | migrationRefused (b : BulkId) (port : Nat)
  /-- `MIGRATION_LOST` (R366): A LOST message reports that the migrated region's only copy is lost. -/
  | migrationLost (b : BulkId) (port : Nat)
  /-- `LINK_FRAME_TRANSMIT` (R361): A port direction seals and sends a frame under its ACTIVE key at the next
  invocation. -/
  | linkFrameTransmit (b : BulkId) (port : Nat)
  /-- `LINK_DATA_RECEIVE` (R362): A DATA frame is verified and delivered in SEQ order, or dropped with a NAK or
  discarded. -/
  | linkDataReceive (b : BulkId) (port : Nat)
  /-- `LINK_MARKER_RECEIVE` (R363): A delivered MARKER switches the receiver's key and zeroises its old slot. -/
  | linkMarkerReceive (b : BulkId) (port : Nat)
  /-- `LINK_ACK_RECEIVE` (R362): A cumulative ACK frees replay buffer entries and may set LTEST.DONE. -/
  | linkAckReceive (b : BulkId) (port : Nat)
  /-- `LINK_NAK_RECEIVE` (R362): A NAK makes the transmitter resend the named SEQ and later ones under fresh
  invocations. -/
  | linkNakReceive (b : BulkId) (port : Nat)
  /-- `LINK_IDLE_RECEIVE` (R361): An IDLE keep-alive frame is verified at the receiver. -/
  | linkIdleReceive (b : BulkId) (port : Nat)
  /-- `LINK_KEEPALIVE_EXPIRY` (R361): After 4 096 frame times without a frame, a direction sends one IDLE. -/
  | linkKeepaliveExpiry (b : BulkId) (port : Nat)
  /-- `LINK_ACK_TIMER` (R362): The receiver sends an ACK when 16 frames are unacknowledged or 8 frame times have
  passed. -/
  | linkAckTimer (b : BulkId) (port : Nat)
  /-- `LINK_KEY_LOAD` (R360): Yelk loads an agreed key into a receiver slot, then the transmitter's NEXT. -/
  | linkKeyLoad (b : BulkId) (port : Nat) (gen : Nat)
  /-- `LINK_TEST_RUN` (R374): Writing LTEST.RUN starts a run of COUNT test DATA frames. -/
  | linkTestRun (b : BulkId) (port : Nat) (v : Word)
  /-- `LINK_ERROR_INJECT` (R375): Arming LERRINJ corrupts the tag of the first transmission of one SEQ. -/
  | linkErrorInject (b : BulkId) (port : Nat) (v : Word)
  /-- `TELEMETRY_SAMPLE` (R395): Once per millisecond the office die samples every bulkhead and the module. -/
  | telemetrySample
  /-- `MODCAP_WRITE` (R397): An I3C write sets the module cap, shrinking bulkhead caps when needed. -/
  | modcapWrite (mw : Nat)
  /-- `CAP_WRITE` (R397): An I3C write sets a bulkhead cap, or is NACKed when the sum would break. -/
  | capWrite (b : BulkId) (mw : Nat)
  /-- `MIGRATE_RETURN_ARRIVAL` (R182): The 336-byte slot image sent back by a MIGRATE on a proctor core reaches the
  home tile, and the home slot becomes READY. -/
  | migrateReturnArrival (p : Nat)
  /-- `SYSCALL_REQUEST_ARRIVAL` (R181): A SYSCALL request block with its dependency token arrives on VC6 at the island
  and waits for the tenant image to accept it. -/
  | syscallRequestArrival (p : Nat)
  /-- `LINK_TRAINING_COMPLETE` (R355): A Euter port that the Dean asked to train finishes training and version
  negotiation, and LSTAT.STATE leaves TRAINING for UP. -/
  | linkTrainingComplete (b : BulkId) (port : Nat)
  /-- `EDGE_MODULE_FAILURE` (R300): An edge memory module or its translation station fails, and the region that owns
  its edge bulkhead is contained. -/
  | edgeModuleFailure (b : BulkId)
  deriving DecidableEq, Repr

end Sys2Proof
end

