-- ==== Sys2Proof/WellFormed.lean ====
section
/-! DEFINITION. Which instruction terms the encodings admit: the reserved field values that take
`ILLEGAL` at issue by step 2 of R103 (R109 to R116, R188, R199, R200, R208, R209, R213). -/

namespace Sys2Proof

/-- The element types 0 to 4, 6 and 7: every one but E2M1 (R188). -/
def Ty.notFp4 (ty : Ty) : Bool := ty != 5#3

/-- The two integer types, I32 and I8 (R188). -/
def Ty.isInt (ty : Ty) : Bool := ty == 6#3 || ty == 7#3

/-- The floating-point types 0 to 4 that `VREC` accepts (R188). -/
def Ty.isRecType (ty : Ty) : Bool := ty.toNat < 5

/-- FP32, BF16 and FP16, the types of the special functions (R188). -/
def Ty.isSpecial (ty : Ty) : Bool := ty.toNat < 3

/-- Width in bits of an element type (R48). -/
def Ty.width (ty : Ty) : Nat :=
  match ty.toNat with
  | 0 => 32 | 1 => 16 | 2 => 16 | 3 => 8 | 4 => 8 | 5 => 4 | 6 => 32 | _ => 8

/-- Lane count of a 512-bit row under an element type (R187). -/
def Ty.lanes (ty : Ty) : Nat := 512 / ty.width

/-- The types and operators that the two scans accept: `add`, `max` and `min` on FP32 and I32, `rec`
on FP32 only (R188). -/
def scanTypeOk (ty : Ty) (op : BitVec 2) : Bool := ty == 0#3 || (ty == 6#3 && op != 3#2)

/-- Rows that a conversion writes: n_s / n_t where the source has more lanes (R200). -/
def cvtRowsOut (ty src : Ty) : Nat := max 1 (src.lanes / ty.lanes)

/-- Rows that a conversion reads: n_t / n_s where the target has more lanes (R200). -/
def cvtRowsIn (ty src : Ty) : Nat := max 1 (ty.lanes / src.lanes)

/-- The limits of `VCVT`: the saturating form only for FP16, E4M3 and E5M2 (R199), and row groups
aligned to their size (R200). -/
def cvtOk (ty src : Ty) (sat : Bool) (vd va : VReg) : Bool :=
  (!sat || ty == 2#3 || ty == 3#3 || ty == 4#3)
    && vd.toNat % cvtRowsOut ty src == 0 && va.toNat % cvtRowsIn ty src == 0

/-- An instruction is well formed when no field of it holds a value that R103 step 2 calls reserved.
The constructors not named here have no reserved field value; the events have no word at all. -/
def Instr.wf : Instr → Bool
  | .loop _ len => len != 0#12
  | .redadd m _ _ | .redand m _ _ | .redor m _ _ | .redxor m _ _ => m.toNat < 2
  | .redmin m _ _ | .redmax m _ _ => m.toNat < 3
  | .fence kind scope => kind.toNat < 3 && scope.toNat < 5
  | .barw wire => wire.toNat < 3
  | .vadd ty _ _ _ | .vsub ty _ _ _ | .vmul ty _ _ _ | .vfma ty _ _ _ | .vmin ty _ _ _
  | .vmax ty _ _ _ | .vand ty _ _ _ | .vor ty _ _ _ | .vxor ty _ _ _
  | .vabs ty _ _ | .vneg ty _ _ | .vperm ty _ _ _ | .vshf ty _ _ _
  | .vbcast ty _ _ | .vcmpeq ty _ _ _ | .vcmplt ty _ _ _ | .vcmple ty _ _ _ | .vsel ty _ _ _
  | .vredadd ty _ _ | .vredmax ty _ _ | .vredmin ty _ _ => ty.notFp4
  | .vshl ty _ _ _ | .vshr ty _ _ _ | .vsha ty _ _ _ => ty.isInt
  | .vrec ty _ _ _ => ty.isRecType
  | .vexp2 ty _ _ | .vlog2 ty _ _ | .vrcp ty _ _ | .vrsq ty _ _ | .vsig ty _ _ => ty.isSpecial
  | .vcvt ty src _ sat vd va => cvtOk ty src sat vd va
  | .vscan ty vd va op => scanTypeOk ty op && (op != 3#2 || (vd.toNat % 2 == 0 && va.toNat % 2 == 0))
  | .vext ty _ _ lane | .vins ty _ _ lane => ty.notFp4 && lane.toNat < ty.lanes
  | .xscan ty v dirIn dirOut op role =>
      scanTypeOk ty op && (role != 0#2 || dirIn != dirOut) && (op != 3#2 || v.toNat % 2 == 0)
  | .gang w pos => w.toNat < 3 && pos.toNat < 2 ^ w.toNat
  | .dpatch cell _ _ => cell.toNat ≤ 256
  | .fetch _ _ scope _ _ _ _ | .put _ _ scope _ _ _ _ | .copy _ _ scope _ _ _ _
  | .mcast _ _ scope _ _ _ _ | .gather _ _ scope _ _ _ _ | .scatter _ _ scope _ _ _ _ => scope.toNat < 5
  | .cMov rd src => !(rd == 0#4 && src == 0#4)
  | _ => true

end Sys2Proof
end

