-- ==== Sys2Proof/Machine/Lanes.lean ====
section
/-! DEFINITION. The lane functions of the vector unit (R63, R65, R187, R196 to R201, R205 to R208). -/

namespace Sys2Proof.Machine

/-- Lanes of a row under a type (R187). -/
def laneList (ty : Ty) (r : Row) : List Nat := lanesOf ty.width ty.lanes r

/-- The row of a list of lanes of a type. -/
def ofTy (ty : Ty) (l : List Nat) : Row := rowOf ty.width l

/-- A lane-by-lane operation. -/
def lanes2 (ty : Ty) (f : Nat → Nat → Nat) (a b : Row) : Row := ofTy ty (List.zipWith f (laneList ty a) (laneList ty b))
def lanes1 (ty : Ty) (f : Nat → Nat) (a : Row) : Row := ofTy ty ((laneList ty a).map f)

/-- A binary operation of R196: on exact values rounded once, or on integers modulo 2^w (R55). -/
def arith (ty : Ty) (fp : FP → FP → FP) (int : Int → Int → Int) (a b : Nat) : Nat :=
  match fmtOf ty.toNat with
  | some f => f.round 0 false (fp (f.value a) (f.value b))
  | none => wrap ty.width (int (signed ty.width a) (signed ty.width b))

/-- `VADD`, `VSUB`, `VMUL` (R196). -/
def vadd (ty : Ty) : Row → Row → Row := lanes2 ty (arith ty FP.add (· + ·))
def vsub (ty : Ty) : Row → Row → Row := lanes2 ty (arith ty (fun a b => a.add b.neg) (· - ·))
def vmul (ty : Ty) : Row → Row → Row := lanes2 ty (arith ty FP.mul (· * ·))

/-- A lane of `VFMA` (R196). -/
def fmaLane (ty : Ty) (d a b : Nat) : Nat :=
  match fmtOf ty.toNat with
  | some f => f.round 0 false (((f.value a).mul (f.value b)).add (f.value d))
  | none => wrap ty.width (signed ty.width a * signed ty.width b + signed ty.width d)

/-- `VFMA` (R196). -/
def vfma (ty : Ty) (d a b : Row) : Row :=
  ofTy ty (List.zipWith (fun d p => fmaLane ty d p.1 p.2) (laneList ty d) ((laneList ty a).zip (laneList ty b)))

/-- The smaller or the larger of two lanes (R196). -/
def pickLane (ty : Ty) (largest : Bool) (a b : Nat) : Nat :=
  match fmtOf ty.toNat with
  | some f => f.pick largest a b
  | none =>
    let w := ty.width
    if largest then (if signed w a < signed w b then b else a) else (if signed w b < signed w a then b else a)

/-- `VSHL`, `VSHR`, `VSHA` (R196): the low 5 or 3 bits of the count lane. -/
def shiftLane (ty : Ty) (kind : Nat) (a b : Nat) : Nat :=
  let w := ty.width
  let n := b % w
  match kind with
  | 0 => a * 2 ^ n % 2 ^ w
  | 1 => a / 2 ^ n
  | _ => wrap w (signed w a / ((2 ^ n : Nat) : Int))

/-- A lane of `VABS` and `VNEG` (R196). -/
def signLane (ty : Ty) (negate : Bool) (a : Nat) : Nat :=
  let w := ty.width
  match fmtOf ty.toNat with
  | some f =>
    if (f.value a).isNan then f.nan
    else if !negate then a % 2 ^ (w - 1)
    else if a < 2 ^ (w - 1) then a + 2 ^ (w - 1) else a - 2 ^ (w - 1)
  | none => if negate then wrap w (-signed w a) else wrap w ((signed w a).natAbs : Int)

/-- `VREC` (R197): sixteen FP32 lanes of vd, the low sixteen lanes of va and vb. -/
def vrec (ty : Ty) (d a b : Row) : Row :=
  match fmtOf ty.toNat with
  | none => d
  | some f =>
    rowOf 32 ((upFrom 0 16).map fun i =>
      fma (toFP32Exact f (lane ty.width a i)) (lane 32 d i) (toFP32Exact f (lane ty.width b i)))

/-- A special function of R198 by its fn4: 0 exp2, 1 log2, 2 recip, 3 rsqrt, 4 sigmoid. -/
def specialLane (fn : Nat) (ty : Ty) (a : Nat) : Nat :=
  match fmtOf ty.toNat with
  | none => a
  | some f =>
    match fn with
    | 0 => f.exp2 ty.toNat a
    | 1 => f.log2 ty.toNat a
    | 2 => f.recip a
    | 3 => f.rsqrt a
    | _ => f.sigmoid ty.toNat a

/-- A converted value (R199). A conversion to the same type gives the lane bits, with `.sat` too, so that an infinity of
FP16 or E5M2 stays: between that row and the ±Max of R57 this is the model's choice (log entry 137). -/
def convert (ty src : Ty) (mode : Nat) (sat : Bool) (v : Nat) : Nat :=
  match fmtOf src.toNat, fmtOf ty.toNat with
  | some f, some g => if src = ty then (if (f.value v).isNan then f.nan else v) else g.round mode sat (f.value v)
  | some f, none =>
    let w := ty.width
    wrap w ((f.value v).toInt mode (-((2 ^ (w - 1) : Nat) : Int)) (((2 ^ (w - 1) : Nat) : Int) - 1))
  | none, some g => g.round mode sat (FP.ofInt (signed src.width v))
  | none, none =>
    if ty.width < src.width then wrap ty.width (max (-128) (min 127 (signed src.width v)))
    else wrap ty.width (signed src.width v)

/-- `VCVT` (R200): the target rows of the source rows. -/
def vcvt (ty src : Ty) (mode : Nat) (sat : Bool) (rows : List Row) : List Row :=
  let vs := (rows.map (laneList src)).flatten.map (convert ty src mode sat)
  let vs := vs ++ List.replicate (ty.lanes - vs.length) 0
  (upFrom 0 (cvtRowsOut ty src)).map fun j => ofTy ty ((vs.drop (ty.lanes * j)).take ty.lanes)

/-- `VPERM` and `VSHF` (R201). -/
def vperm (ty : Ty) (a b : Row) : Row := ofTy ty ((laneList ty b).map fun i => lane ty.width a (i % ty.lanes))
def vshf (ty : Ty) (a b : Row) : Row :=
  ofTy ty ((upFrom 0 ty.lanes).map fun i => lane ty.width (if i % 2 = 0 then a else b) (i / 2))

/-- A lane as a scalar register value (R205). -/
def extLane (ty : Ty) (r : Row) (i : Nat) : Word :=
  let v := lane ty.width r i
  if ty.isInt then BitVec.ofInt 64 (signed ty.width v) else BitVec.ofNat 64 v

/-- A row with one lane replaced (R205). -/
def insLane (ty : Ty) (r : Row) (i : Nat) (v : Word) : Row := ofTy ty ((laneList ty r).set i (field v 0 ty.width))

/-- A compare of two lanes by kind: 0 equal, 1 less, 2 less or equal; false with a NaN (R206). -/
def cmpLane (ty : Ty) (kind : Nat) (a b : Nat) : Bool :=
  let test (x y : Int) : Bool := match kind with | 0 => x = y | 1 => x < y | _ => x ≤ y
  match fmtOf ty.toNat with
  | some f => !(f.value a).isNan && !(f.value b).isNan && test (f.key a) (f.key b)
  | none => test (signed ty.width a) (signed ty.width b)

/-- The mask that a compare writes (R206). -/
def cmpMask (ty : Ty) (kind : Nat) (a b : Row) : Word :=
  BitVec.ofNat 64 (ofLanes 1 (List.zipWith (fun x y => num (cmpLane ty kind x y)) (laneList ty a) (laneList ty b)))

/-- `VSEL` (R206). -/
def vsel (ty : Ty) (v x : Row) (m : Word) : Row :=
  ofTy ty ((upFrom 0 ty.lanes).map fun i => lane ty.width (if bit m i then x else v) i)

/-! ## Reductions and scans (R63, R65) -/

/-- The halving tree of R65, by fuel. -/
def halve (f : Nat → Nat → Nat) : Nat → List Nat → Nat
  | 0, l => l.headD 0
  | n + 1, l => if l.length ≤ 1 then l.headD 0
                else halve f n (List.zipWith f (l.take (l.length / 2)) (l.drop (l.length / 2)))

/-- `VREDADD` (R65, R207). -/
def redAdd (ty : Ty) (r : Row) : Word :=
  match fmtOf ty.toNat with
  | some f => BitVec.ofNat 64 (halve fadd 7 ((laneList ty r).map (toFP32Exact f)))
  | none =>
    BitVec.ofInt 64 (signed 32 (halve (fun a b => (a + b) % 2 ^ 32) 7
      ((laneList ty r).map fun v => wrap 32 (signed ty.width v))))

/-- `VREDMAX` and `VREDMIN` (R65, R207). -/
def redPick (ty : Ty) (largest : Bool) (r : Row) : Word :=
  let v := halve (pickLane ty largest) 7 (laneList ty r)
  match fmtOf ty.toNat with
  | some f => BitVec.ofNat 64 (toFP32Exact f v)
  | none => BitVec.ofInt 64 (signed ty.width v)

/-- An operator of R63 on single lanes: 0 add, 1 max, 2 min. -/
def scanOp (ty : Ty) (op : Nat) (older newer : Nat) : Nat :=
  match op with
  | 0 => if ty.isInt then (older + newer) % 2 ^ 32 else fadd older newer
  | 1 => pickLane ty true older newer
  | _ => pickLane ty false older newer

/-- The product of the a components of `rec`, rounded (R63). -/
def recMul (x y : Nat) : Nat := toFP32 ((fp32.value x).mul (fp32.value y))

/-- An operator of R63 on 64-bit carries: the value stands in [31:0], for `rec` (3) the a component there and
the b component in [63:32]. -/
def combine (ty : Ty) (op : Nat) (older newer : Nat) : Nat :=
  if op = 3 then
    recMul (newer % 2 ^ 32) (older % 2 ^ 32)
      + fma (newer % 2 ^ 32) (older / 2 ^ 32) (newer / 2 ^ 32) * 2 ^ 32
  else scanOp ty op (older % 2 ^ 32) (newer % 2 ^ 32)

/-- One step of the Kogge–Stone scan at distance d (R63). -/
def koggeStep (ty : Ty) (op d : Nat) (x : List Nat) : List Nat :=
  (upFrom 0 16).map fun i => if d ≤ i then combine ty op (x.getD (i - d) 0) (x.getD i 0) else x.getD i 0

/-- The scan of sixteen lanes (R63). -/
def koggeStone (ty : Ty) (op : Nat) (x : List Nat) : List Nat :=
  koggeStep ty op 8 (koggeStep ty op 4 (koggeStep ty op 2 (koggeStep ty op 1 x)))

/-- The lanes that a scan reads: one row, or for `rec` the pairs of two (R208). -/
def scanIn (op : Nat) (a b : Row) : List Nat :=
  (upFrom 0 16).map fun i => lane 32 a i + (if op = 3 then lane 32 b i * 2 ^ 32 else 0)

/-- The rows of scanned lanes. -/
def scanOut (op : Nat) (x : List Nat) : List Row :=
  if op = 3 then [rowOf 32 (x.map (· % 2 ^ 32)), rowOf 32 (x.map (· / 2 ^ 32))] else [rowOf 32 x]

end Sys2Proof.Machine
end

