-- ==== Sys2Proof/Decode.lean ====
section
/-! DEFINITION. Framing and decoding of instruction words, and the encoder (R101, R106 to R116).
Decoding is total on any bytes and refuses by name what R103 step 2 calls `ILLEGAL`. -/

namespace Sys2Proof

/-- Why a word is no instruction (R103 step 2). -/
inductive DecodeError where
  /-- the halfword 0x0000 -/
  | zeroHalfword
  /-- a reserved compact encoding (R116) -/
  | reservedCompact
  /-- majors 0x18 to 0x1E (R108) -/
  | reservedMajor
  /-- a function, sub, width or condition code beyond its group's list (R109 to R115) -/
  | functionCode
  /-- a reserved value in a field of a known instruction (R107, R110 to R115, R188) -/
  | reservedField
  /-- fewer bytes than the instruction has -/
  | truncated
  deriving DecidableEq, Repr

/-- Bits [lo + n - 1 : lo] of a word (R10). -/
def bitsAt {w : Nat} (x : BitVec w) (lo n : Nat) : BitVec n := x.extractLsb' lo n

/-- One bit of a word as a truth value. -/
def bitAt {w : Nat} (x : BitVec w) (i : Nat) : Bool := x.getLsbD i

/-- A truth value as one bit. -/
def bit1 (b : Bool) : BitVec 1 := if b then 1#1 else 0#1

/-- ALU, by fn10 (R109). -/
def aluTable (f : Nat) (d a b : Reg) : Option Instr :=
  match f with
  | 0 => some (.add d a b)
  | 1 => some (.sub d a b)
  | 2 => some (.and d a b)
  | 3 => some (.or d a b)
  | 4 => some (.xor d a b)
  | 5 => some (.andn d a b)
  | 6 => some (.shl d a b)
  | 7 => some (.shr d a b)
  | 8 => some (.sha d a b)
  | 9 => some (.rot d a b)
  | 10 => some (.mul d a b)
  | 11 => some (.mulh d a b)
  | 12 => some (.mulhn d a b)
  | 13 => some (.div d a b)
  | 14 => some (.divn d a b)
  | 15 => some (.rem d a b)
  | 16 => some (.remn d a b)
  | 17 => some (.min d a b)
  | 18 => some (.max d a b)
  | 19 => some (.minn d a b)
  | 20 => some (.maxn d a b)
  | 21 => some (.seq d a b)
  | 22 => some (.slt d a b)
  | 23 => some (.sltn d a b)
  | 24 => some (.sel d a b)
  | 25 => some (.addsh1 d a b)
  | 26 => some (.addsh2 d a b)
  | 27 => some (.addsh3 d a b)
  | 28 => some (.popc d a)
  | 29 => some (.clz d a)
  | 30 => some (.ctz d a)
  | 31 => some (.bext d a b)
  | 32 => some (.bexts d a b)
  | 33 => some (.bins d a b)
  | 34 => some (.mov d a)
  | _ => none

/-- LOGI, by sub2 (R109). -/
def logiTable (f : Nat) (d a : Reg) (imm : BitVec 13) : Option Instr :=
  match f with
  | 0 => some (.andi d a imm)
  | 1 => some (.ori d a imm)
  | 2 => some (.xori d a imm)
  | 3 => some (.slti d a imm)
  | _ => none

/-- SHIFTI, by sub3; codes 4 to 7 are ILLEGAL (R109). -/
def shiftiTable (f : Nat) (d a : Reg) (n : BitVec 6) : Option Instr :=
  match f with
  | 0 => some (.shli d a n)
  | 1 => some (.shri d a n)
  | 2 => some (.shai d a n)
  | 3 => some (.roti d a n)
  | _ => none

/-- LOAD, by w; for `LDQ` the queue is a[2:0] (R109, R143). -/
def loadTable (f : Nat) (d a : Reg) (off : BitVec 12) : Option Instr :=
  match f with
  | 0 => some (.ldb d a off)
  | 1 => some (.ldh d a off)
  | 2 => some (.ldw d a off)
  | 3 => some (.ldd d a off)
  | 4 => some (.ldbs d a off)
  | 5 => some (.ldhs d a off)
  | 6 => some (.ldws d a off)
  | 7 => some (.ldq d (bitsAt a 0 3) off)
  | _ => none

/-- STORE, by w; codes 4 to 7 are ILLEGAL (R109). -/
def storeTable (f : Nat) (c a : Reg) (off : BitVec 12) : Option Instr :=
  match f with
  | 0 => some (.stb c a off)
  | 1 => some (.sth c a off)
  | 2 => some (.stw c a off)
  | 3 => some (.std c a off)
  | _ => none

/-- BRANCH, by cond (R109). -/
def branchTable (f : Nat) (a c : Reg) (off : BitVec 12) : Option Instr :=
  match f with
  | 0 => some (.beq a c off)
  | 1 => some (.bne a c off)
  | 2 => some (.blt a c off)
  | 3 => some (.bge a c off)
  | 4 => some (.bltn a c off)
  | 5 => some (.bgen a c off)
  | 6 => some (.bbs a c off)
  | 7 => some (.bbc a c off)
  | _ => none

/-- SYNC, by fn5; codes 15 to 31 are ILLEGAL (R109, R110). -/
def syncTable (f : Nat) (scope : BitVec 3) (m : BitVec 2) (d a b : Reg) : Option Instr :=
  match f with
  | 0 => some (.cadd a b)
  | 1 => some (.caddf d a b)
  | 2 => some (.cwait a b)
  | 3 => some (.cwaitt d a b)
  | 4 => some (.cread d a)
  | 5 => some (.cwatch a b)
  | 6 => some (.redadd m a b)
  | 7 => some (.redaddf a b)
  | 8 => some (.redmin m a b)
  | 9 => some (.redmax m a b)
  | 10 => some (.redand m a b)
  | 11 => some (.redor m a b)
  | 12 => some (.redxor m a b)
  | 13 => some (.fence m scope)
  | 14 => some (.barw m)
  | _ => none

/-- MSG, by fn5 (R110, R111). -/
def msgTable (f : Nat) (lc : Bool) (m : BitVec 4) (d a b : Reg) : Option Instr :=
  match f with
  | 0 => some (.send lc a b d)
  | 1 => some (.sends lc a b d)
  | 2 => some (.commit)
  | 3 => some (.abort)
  | 4 => some (.fwd (bitsAt m 0 2) a)
  | 5 => some (.fwdw (bitsAt m 0 2) d)
  | 6 => some (.llput a)
  | 7 => some (.llget d)
  | 8 => some (.arm (bitsAt m 0 3) a b)
  | 9 => some (.disarm (bitsAt m 0 3) a)
  | 10 => some (.trig)
  | 11 => some (.endI)
  | 12 => some (.join a)
  | 13 => some (.leave a)
  | _ => none

/-- QUEUE, by fn5 (R110, R111). -/
def queueTable (f : Nat) (m : BitVec 4) (d a b : Reg) : Option Instr :=
  match f with
  | 0 => some (.qwait d (bitsAt m 0 3))
  | 1 => some (.qadv (bitsAt m 0 3))
  | 2 => some (.qfree (bitsAt m 0 3) a)
  | 3 => some (.qpush (bitsAt m 0 3) a b)
  | 4 => some (.qstat d (bitsAt m 0 3))
  | _ => none

/-- SYSTEM, by fn5; codes 13 to 31 are ILLEGAL (R111). -/
def systemTable (f : Nat) (imm : BitVec 12) (c : Reg) : Option Instr :=
  match f with
  | 0 => some (.trap imm)
  | 1 => some (.syscall c)
  | 2 => some (.migrate)
  | 3 => some (.brk imm)
  | 4 => some (.mfs c imm)
  | 5 => some (.mts c imm)
  | 6 => some (.eret)
  | 7 => some (.wfi)
  | 8 => some (.hvcall imm)
  | 9 => some (.atinv c)
  | 10 => some (.dcwb c)
  | 11 => some (.dcinv c)
  | 12 => some (.icinv c)
  | _ => none

/-- VEC-A, by fn4; code 15 is ILLEGAL (R111). -/
def vecATable (f : Nat) (ty : Ty) (vd va vb : VReg) : Option Instr :=
  match f with
  | 0 => some (.vadd ty vd va vb)
  | 1 => some (.vsub ty vd va vb)
  | 2 => some (.vmul ty vd va vb)
  | 3 => some (.vfma ty vd va vb)
  | 4 => some (.vmin ty vd va vb)
  | 5 => some (.vmax ty vd va vb)
  | 6 => some (.vand ty vd va vb)
  | 7 => some (.vor ty vd va vb)
  | 8 => some (.vxor ty vd va vb)
  | 9 => some (.vshl ty vd va vb)
  | 10 => some (.vshr ty vd va vb)
  | 11 => some (.vsha ty vd va vb)
  | 12 => some (.vabs ty vd va)
  | 13 => some (.vneg ty vd va)
  | 14 => some (.vrec ty vd va vb)
  | _ => none

/-- VEC-B, by fn4; codes 10 to 15 are ILLEGAL (R111, R112). -/
def vecBTable (f : Nat) (ty : Ty) (vd va vb : VReg) : Option Instr :=
  match f with
  | 0 => some (.vexp2 ty vd va)
  | 1 => some (.vlog2 ty vd va)
  | 2 => some (.vrcp ty vd va)
  | 3 => some (.vrsq ty vd va)
  | 4 => some (.vsig ty vd va)
  | 5 => some (.vcvt ty (bitsAt vb 0 3) (bitsAt vb 3 2) (bitAt vb 5) vd va)
  | 6 => some (.vperm ty vd va vb)
  | 7 => some (.vshf ty vd va vb)
  | 8 => some (.vscan ty vd va (bitsAt vb 0 2))
  | 9 => some (.vmov ty vd va)
  | _ => none

/-- VEC-X, by fn5; codes 16 to 31 are ILLEGAL (R112, R113). -/
def vecXTable (f : Nat) (ty : Ty) (v : VReg) (a : Reg) (x : BitVec 6) : Option Instr :=
  match f with
  | 0 => some (.vld v a x)
  | 1 => some (.vst v a x)
  | 2 => some (.vldq v (bitsAt a 0 3) x)
  | 3 => some (.vbcast ty v a)
  | 4 => some (.vext ty a v x)
  | 5 => some (.vins ty v a x)
  | 6 => some (.vcmpeq ty a v x)
  | 7 => some (.vcmplt ty a v x)
  | 8 => some (.vcmple ty a v x)
  | 9 => some (.vsel ty v a x)
  | 10 => some (.vredadd ty a v)
  | 11 => some (.vredmax ty a v)
  | 12 => some (.vredmin ty a v)
  | 13 => some (.xscan ty v (bitsAt x 2 2) (bitsAt x 4 2) (bitsAt x 0 2) (bitsAt a 0 2))
  | 14 => some (.vfence)
  | 15 => some (.vstm v a (bitsAt x 0 5))
  | _ => none

/-- MATRIX, by fn4; codes 9 to 15 are ILLEGAL (R113, R212). -/
def matrixTable (f : Nat) (acc : Acc) (pb : Bool) (fmt : BitVec 3) (d a b : Reg) (w : BitVec 32) : Option Instr :=
  match f with
  | 0 => some (.gang fmt acc)
  | 1 => some (if pb then .mopaBlock fmt a b else .mopaAcc fmt acc)
  | 2 => some (if pb then .mopbBlock fmt a b else .mopbAcc fmt acc)
  | 3 => some (.mma acc pb)
  | 4 => some (.mmas acc a)
  | 5 => some (.msca acc pb (bitsAt w 16 6) (bitsAt w 10 6))
  | 6 => some (.mzero acc)
  | 7 => some (.mstat d)
  | 8 => some (.mwait)
  | _ => none

/-- DDA, by fn4; code 15 is ILLEGAL, and so is imm11[8] in a cell index other than that of `DPATCH`
(R113, R114, R247). -/
def ddaTable (f : Nat) (imm : BitVec 11) (d a : Reg) : Option Instr :=
  let cell : BitVec 8 := bitsAt imm 0 8
  let big : Bool := bitAt imm 8
  match f with
  | 0 => some (.dpatch (bitsAt imm 0 9) a d)
  | 1 => if big then none else some (.dset cell a)
  | 2 => if big then none else some (.dget d cell)
  | 3 => if big then none else some (.dres d cell)
  | 4 => some (.dsave a)
  | 5 => some (.dload a)
  | 6 => some (.dclk (bitsAt imm 0 4) a)
  | 7 => some (.dstep a)
  | 8 => some .drun
  | 9 => some .dhalt
  | 10 => some .dwait
  | 11 => some (.drdc (bitAt imm 5) d (bitsAt imm 0 5))
  | 12 => some (.dclrc (bitsAt imm 0 5))
  | 13 => some (.dstat d)
  | 14 => some (.dinj a)
  | _ => none

/-- STREAM, by fn4; codes 9 to 15 are ILLEGAL (R114, R115). -/
def streamTable (f : Nat) (acq rel : Bool) (scope : BitVec 3) (lc : Bool) (d a b : Reg) : Option Instr :=
  match f with
  | 0 => some (.fetch acq rel scope lc d a b)
  | 1 => some (.put acq rel scope lc d a b)
  | 2 => some (.copy acq rel scope lc d a b)
  | 3 => some (.mcast acq rel scope lc d a b)
  | 4 => some (.gather acq rel scope lc d a b)
  | 5 => some (.scatter acq rel scope lc d a b)
  | 6 => some (.trec d a)
  | 7 => some (.trinv a)
  | 8 => some (.sfence)
  | _ => none

/-- The instruction that a 32-bit word names, by its major opcode (R106, R108, R109), before the
reserved field values are looked at. -/
def decodeFields (w : BitVec 32) : Except DecodeError Instr :=
  let d : Reg := bitsAt w 7 5
  let a : Reg := bitsAt w 12 5
  let b : Reg := bitsAt w 17 5
  let fn10 := (bitsAt w 22 10).toNat
  let fn5 := (bitsAt w 27 5).toNat
  let fn4 := (bitsAt w 28 4).toNat
  let w3 := (bitsAt w 17 3).toNat
  let off12 : BitVec 12 := bitsAt w 20 12
  let mod4 : BitVec 4 := bitsAt w 22 4
  let vty : Ty := bitsAt w 25 3
  let vb : VReg := bitsAt w 19 6
  let va : VReg := bitsAt w 13 6
  let vd : VReg := bitsAt w 7 6
  let code (o : Option Instr) : Except DecodeError Instr :=
    match o with
    | some i => .ok i
    | none => .error .functionCode
  match (bitsAt w 2 5).toNat with
  | 0x00 => code (aluTable fn10 d a b)
  | 0x01 => .ok (.addi d a (bitsAt w 17 15))
  | 0x02 => code (logiTable (bitsAt w 30 2).toNat d a (bitsAt w 17 13))
  | 0x03 => code (shiftiTable (bitsAt w 29 3).toNat d a (bitsAt w 23 6))
  | 0x04 => .ok (.movi d (bitsAt w 12 20))
  | 0x05 => .ok (.lih d (bitsAt w 12 20))
  | 0x06 => code (loadTable w3 d a off12)
  | 0x07 => code (storeTable w3 d a off12)
  | 0x08 => code (branchTable w3 a d off12)
  | 0x09 => .ok (.b (bitsAt w 7 25))
  | 0x0A => .ok (.call (bitsAt w 7 25))
  | 0x0B => .ok (if bitAt w 31 then .jal d a (bitsAt w 17 14) else .j a (bitsAt w 17 14))
  | 0x0C => .ok (.loop a off12)
  | 0x0D => code (syncTable (bitsAt w 22 5).toNat (bitsAt w 29 3) (bitsAt w 27 2) d a b)
  | 0x0E => code (msgTable fn5 (bitAt w 26) mod4 d a b)
  | 0x0F => code (queueTable fn5 mod4 d a b)
  | 0x10 => code (systemTable fn5 (bitsAt w 12 12) d)
  | 0x11 => code (vecATable fn4 vty vd va vb)
  | 0x12 => code (vecBTable fn4 vty vd va vb)
  | 0x13 => code (vecXTable fn5 (bitsAt w 24 3) (bitsAt w 18 6) (bitsAt w 13 5) (bitsAt w 7 6))
  | 0x14 => code (matrixTable fn4 (bitsAt w 26 2) (bitAt w 25) (bitsAt w 22 3) d a b w)
  | 0x15 => code (ddaTable fn4 (bitsAt w 17 11) d a)
  | 0x16 => code (streamTable fn4 (bitAt w 27) (bitAt w 26) (bitsAt w 23 3) (bitAt w 22) d a b)
  | 0x17 =>
    match fn10 with
    | 0 => .ok (.xset (bitsAt w 7 3) a)
    | 1 => .ok (.xget d (bitsAt w 12 3))
    | _ => .error .functionCode
  | 0x1F => .ok .nop
  | _ => .error .reservedMajor

/-- Refuses a term whose fields hold a reserved value (R103 step 2). -/
def checkWf : Except DecodeError Instr → Except DecodeError Instr
  | .ok i => if i.wf then .ok i else .error .reservedField
  | .error e => .error e

/-- A 32-bit word as an instruction (R106 to R115). -/
def decodeWord (w : BitVec 32) : Except DecodeError Instr := checkWf (decodeFields w)

/-- A compact halfword as an instruction (R116). -/
def decodeHalf (h : BitVec 16) : Except DecodeError Instr :=
  let d : BitVec 4 := bitsAt h 9 4
  let b : BitVec 4 := bitsAt h 5 4
  let op := (bitsAt h 13 3).toNat
  if h = 0#16 then .error .zeroHalfword
  else match (bitsAt h 0 2).toNat, op with
  | 0, 0 =>
    match (bitsAt h 2 3).toNat with
    | 0 => .ok (.cMov d b)
    | 1 => .ok (.cAdd d b)
    | 2 => .ok (.cSub d b)
    | 3 => .ok (.cAnd d b)
    | 4 => .ok (.cOr d b)
    | 5 => .ok (.cXor d b)
    | 6 => .ok (.cShl d b)
    | _ => .ok (.cShr d b)
  | 0, 1 => .ok (.cAddi d (bitsAt h 2 7))
  | 0, 2 => .ok (.cMovi d (bitsAt h 2 7))
  | 0, 3 => .ok (.cShli d (bitsAt h 3 6))
  | 0, 4 => .ok (.cLdd d b (bitsAt h 2 3))
  | 0, 5 => .ok (.cStd d b (bitsAt h 2 3))
  | 0, 6 => .ok (.cLdw d b (bitsAt h 2 3))
  | 0, 7 => .ok (.cStw d b (bitsAt h 2 3))
  | 1, 0 => .ok (.cBeqz d (bitsAt h 2 7))
  | 1, 1 => .ok (.cBnez d (bitsAt h 2 7))
  | 1, 2 => .ok (.cB (bitsAt h 2 11))
  | 1, 3 => .ok (.cJ d)
  | 1, 4 => .ok .cEnd
  | 1, 5 => .ok (.cQadv (bitsAt h 10 3))
  | 1, 6 => .ok .compactHint
  | _, _ => .error .reservedCompact

/-- Whether a halfword is the first half of a 32-bit word: bits [1:0] are 0b11 (R101). -/
def isWide (h : BitVec 16) : Bool := bitsAt h 0 2 == 3#2

/-- Two bytes as a little-endian halfword (R10, R101). -/
def halfOf (b0 b1 : Byte) : BitVec 16 := b1 ++ b0

/-- Decoding of a byte sequence: the instruction and the bytes it has (R101). -/
def decode : List Byte → Except DecodeError (Instr × Nat)
  | b0 :: b1 :: rest =>
    let h := halfOf b0 b1
    if isWide h then
      match rest with
      | b2 :: b3 :: _ => (decodeWord (halfOf b2 b3 ++ h)).map fun i => (i, 4)
      | _ => .error .truncated
    else (decodeHalf h).map fun i => (i, 2)
  | _ => .error .truncated

/-- The bytes of a number, least significant first. -/
def bytesOfNat : Nat → Nat → List Byte
  | 0, _ => []
  | n + 1, w => BitVec.ofNat 8 w :: bytesOfNat n (w / 256)

/-- What the decoder reads from an instruction whose first nbits bits are w and whose further bits
are 0 (the host's question). -/
def decodeTableWord (nbits w : Nat) : Option Instr :=
  match decode (bytesOfNat 4 (w % 2 ^ nbits)) with
  | .ok (i, _) => some i
  | .error _ => none

/-! ## The encoder -/

/-- A three-register word: fn10, b, a, d and the major (R106). -/
def encRRR (major : BitVec 5) (fn : BitVec 10) (d a b : Reg) : BitVec 32 := fn ++ b ++ a ++ d ++ major ++ 3#2

/-- An offset word: off12, code, a, c or d (R106). -/
def encOff (major : BitVec 5) (off : BitVec 12) (code : BitVec 3) (a d : Reg) : BitVec 32 :=
  off ++ code ++ a ++ d ++ major ++ 3#2

/-- A SYNC word (R154). -/
def encSync (fn : BitVec 5) (scope : BitVec 3) (m : BitVec 2) (d a b : Reg) : BitVec 32 :=
  scope ++ m ++ fn ++ b ++ a ++ d ++ 0x0D#5 ++ 3#2

/-- A MSG or QUEUE word (R154). -/
def encMsg (major fn : BitVec 5) (lc : Bool) (m : BitVec 4) (d a b : Reg) : BitVec 32 :=
  fn ++ bit1 lc ++ m ++ b ++ a ++ d ++ major ++ 3#2

/-- A SYSTEM word (R154). -/
def encSys (fn : BitVec 5) (imm : BitVec 12) (c : Reg) : BitVec 32 :=
  fn ++ 0#3 ++ imm ++ c ++ 0x10#5 ++ 3#2

/-- A VEC-A or VEC-B word (R189). -/
def encV (major : BitVec 5) (fn : BitVec 4) (ty : Ty) (vd va vb : VReg) : BitVec 32 :=
  fn ++ ty ++ vb ++ va ++ vd ++ major ++ 3#2

/-- A VEC-X word (R189). -/
def encVX (fn : BitVec 5) (ty : Ty) (v : VReg) (a : Reg) (x : BitVec 6) : BitVec 32 :=
  fn ++ ty ++ v ++ a ++ x ++ 0x13#5 ++ 3#2

/-- A MATRIX word (R212). -/
def encM (fn : BitVec 4) (acc : Acc) (pb : Bool) (fmt : BitVec 3) (d a b : Reg) : BitVec 32 :=
  fn ++ acc ++ bit1 pb ++ fmt ++ b ++ a ++ d ++ 0x14#5 ++ 3#2

/-- A DDA word (R247). -/
def encD (fn : BitVec 4) (imm : BitVec 11) (d a : Reg) : BitVec 32 :=
  fn ++ imm ++ a ++ d ++ 0x15#5 ++ 3#2

/-- A STREAM word (R257). -/
def encS (fn : BitVec 4) (acq rel : Bool) (scope : BitVec 3) (lc : Bool) (d a b : Reg) : BitVec 32 :=
  fn ++ bit1 acq ++ bit1 rel ++ scope ++ bit1 lc ++ b ++ a ++ d ++ 0x16#5 ++ 3#2

/-- A compact register form (R116). -/
def encC0 (op : BitVec 3) (d b : BitVec 4) (f : BitVec 3) : BitVec 16 := op ++ d ++ b ++ f ++ 0#2

/-- A word of an instruction: 32 bits, a compact halfword, or none for an event. -/
inductive Encoding where
  | wide (w : BitVec 32)
  | compact (h : BitVec 16)
  | none
  deriving DecidableEq, Repr

/-- The word of an instruction, with 0 in every ignored field; the events have none (R106 to R116). -/
def encode : Instr → Encoding
  | .add d a b => .wide (encRRR 0x00#5 0#10 d a b)
  | .sub d a b => .wide (encRRR 0x00#5 1#10 d a b)
  | .and d a b => .wide (encRRR 0x00#5 2#10 d a b)
  | .or d a b => .wide (encRRR 0x00#5 3#10 d a b)
  | .xor d a b => .wide (encRRR 0x00#5 4#10 d a b)
  | .andn d a b => .wide (encRRR 0x00#5 5#10 d a b)
  | .shl d a b => .wide (encRRR 0x00#5 6#10 d a b)
  | .shr d a b => .wide (encRRR 0x00#5 7#10 d a b)
  | .sha d a b => .wide (encRRR 0x00#5 8#10 d a b)
  | .rot d a b => .wide (encRRR 0x00#5 9#10 d a b)
  | .mul d a b => .wide (encRRR 0x00#5 10#10 d a b)
  | .mulh d a b => .wide (encRRR 0x00#5 11#10 d a b)
  | .mulhn d a b => .wide (encRRR 0x00#5 12#10 d a b)
  | .div d a b => .wide (encRRR 0x00#5 13#10 d a b)
  | .divn d a b => .wide (encRRR 0x00#5 14#10 d a b)
  | .rem d a b => .wide (encRRR 0x00#5 15#10 d a b)
  | .remn d a b => .wide (encRRR 0x00#5 16#10 d a b)
  | .min d a b => .wide (encRRR 0x00#5 17#10 d a b)
  | .max d a b => .wide (encRRR 0x00#5 18#10 d a b)
  | .minn d a b => .wide (encRRR 0x00#5 19#10 d a b)
  | .maxn d a b => .wide (encRRR 0x00#5 20#10 d a b)
  | .seq d a b => .wide (encRRR 0x00#5 21#10 d a b)
  | .slt d a b => .wide (encRRR 0x00#5 22#10 d a b)
  | .sltn d a b => .wide (encRRR 0x00#5 23#10 d a b)
  | .sel d a b => .wide (encRRR 0x00#5 24#10 d a b)
  | .addsh1 d a b => .wide (encRRR 0x00#5 25#10 d a b)
  | .addsh2 d a b => .wide (encRRR 0x00#5 26#10 d a b)
  | .addsh3 d a b => .wide (encRRR 0x00#5 27#10 d a b)
  | .popc d a => .wide (encRRR 0x00#5 28#10 d a 0#5)
  | .clz d a => .wide (encRRR 0x00#5 29#10 d a 0#5)
  | .ctz d a => .wide (encRRR 0x00#5 30#10 d a 0#5)
  | .bext d a b => .wide (encRRR 0x00#5 31#10 d a b)
  | .bexts d a b => .wide (encRRR 0x00#5 32#10 d a b)
  | .bins d a b => .wide (encRRR 0x00#5 33#10 d a b)
  | .mov d a => .wide (encRRR 0x00#5 34#10 d a 0#5)
  | .addi d a imm => .wide (imm ++ a ++ d ++ 0x01#5 ++ 3#2)
  | .andi d a imm => .wide (0#2 ++ imm ++ a ++ d ++ 0x02#5 ++ 3#2)
  | .ori d a imm => .wide (1#2 ++ imm ++ a ++ d ++ 0x02#5 ++ 3#2)
  | .xori d a imm => .wide (2#2 ++ imm ++ a ++ d ++ 0x02#5 ++ 3#2)
  | .slti d a imm => .wide (3#2 ++ imm ++ a ++ d ++ 0x02#5 ++ 3#2)
  | .shli d a n => .wide (0#3 ++ n ++ 0#6 ++ a ++ d ++ 0x03#5 ++ 3#2)
  | .shri d a n => .wide (1#3 ++ n ++ 0#6 ++ a ++ d ++ 0x03#5 ++ 3#2)
  | .shai d a n => .wide (2#3 ++ n ++ 0#6 ++ a ++ d ++ 0x03#5 ++ 3#2)
  | .roti d a n => .wide (3#3 ++ n ++ 0#6 ++ a ++ d ++ 0x03#5 ++ 3#2)
  | .movi d imm => .wide (imm ++ d ++ 0x04#5 ++ 3#2)
  | .lih d imm => .wide (imm ++ d ++ 0x05#5 ++ 3#2)
  | .ldb d a off => .wide (encOff 0x06#5 off 0#3 a d)
  | .ldh d a off => .wide (encOff 0x06#5 off 1#3 a d)
  | .ldw d a off => .wide (encOff 0x06#5 off 2#3 a d)
  | .ldd d a off => .wide (encOff 0x06#5 off 3#3 a d)
  | .ldbs d a off => .wide (encOff 0x06#5 off 4#3 a d)
  | .ldhs d a off => .wide (encOff 0x06#5 off 5#3 a d)
  | .ldws d a off => .wide (encOff 0x06#5 off 6#3 a d)
  | .ldq d q off => .wide (encOff 0x06#5 off 7#3 (0#2 ++ q) d)
  | .stb c a off => .wide (encOff 0x07#5 off 0#3 a c)
  | .sth c a off => .wide (encOff 0x07#5 off 1#3 a c)
  | .stw c a off => .wide (encOff 0x07#5 off 2#3 a c)
  | .std c a off => .wide (encOff 0x07#5 off 3#3 a c)
  | .beq a c off => .wide (encOff 0x08#5 off 0#3 a c)
  | .bne a c off => .wide (encOff 0x08#5 off 1#3 a c)
  | .blt a c off => .wide (encOff 0x08#5 off 2#3 a c)
  | .bge a c off => .wide (encOff 0x08#5 off 3#3 a c)
  | .bltn a c off => .wide (encOff 0x08#5 off 4#3 a c)
  | .bgen a c off => .wide (encOff 0x08#5 off 5#3 a c)
  | .bbs a c off => .wide (encOff 0x08#5 off 6#3 a c)
  | .bbc a c off => .wide (encOff 0x08#5 off 7#3 a c)
  | .b off => .wide (off ++ 0x09#5 ++ 3#2)
  | .call off => .wide (off ++ 0x0A#5 ++ 3#2)
  | .j a off => .wide (0#1 ++ off ++ a ++ 0#5 ++ 0x0B#5 ++ 3#2)
  | .jal d a off => .wide (1#1 ++ off ++ a ++ d ++ 0x0B#5 ++ 3#2)
  | .loop a len => .wide (encOff 0x0C#5 len 0#3 a 0#5)
  | .xset k a => .wide (encRRR 0x17#5 0#10 (0#2 ++ k) a 0#5)
  | .xget d k => .wide (encRRR 0x17#5 1#10 d (0#2 ++ k) 0#5)
  | .cadd a b => .wide (encSync 0#5 0#3 0#2 0#5 a b)
  | .caddf d a b => .wide (encSync 1#5 0#3 0#2 d a b)
  | .cwait a b => .wide (encSync 2#5 0#3 0#2 0#5 a b)
  | .cwaitt d a b => .wide (encSync 3#5 0#3 0#2 d a b)
  | .cread d a => .wide (encSync 4#5 0#3 0#2 d a 0#5)
  | .cwatch a b => .wide (encSync 5#5 0#3 0#2 0#5 a b)
  | .redadd m a b => .wide (encSync 6#5 0#3 m 0#5 a b)
  | .redaddf a b => .wide (encSync 7#5 0#3 0#2 0#5 a b)
  | .redmin m a b => .wide (encSync 8#5 0#3 m 0#5 a b)
  | .redmax m a b => .wide (encSync 9#5 0#3 m 0#5 a b)
  | .redand m a b => .wide (encSync 10#5 0#3 m 0#5 a b)
  | .redor m a b => .wide (encSync 11#5 0#3 m 0#5 a b)
  | .redxor m a b => .wide (encSync 12#5 0#3 m 0#5 a b)
  | .fence kind scope => .wide (encSync 13#5 scope kind 0#5 0#5 0#5)
  | .barw wire => .wide (encSync 14#5 0#3 wire 0#5 0#5 0#5)
  | .send lc a b d => .wide (encMsg 0x0E#5 0#5 lc 0#4 d a b)
  | .sends lc a b d => .wide (encMsg 0x0E#5 1#5 lc 0#4 d a b)
  | .commit => .wide (encMsg 0x0E#5 2#5 false 0#4 0#5 0#5 0#5)
  | .abort => .wide (encMsg 0x0E#5 3#5 false 0#4 0#5 0#5 0#5)
  | .fwd dir a => .wide (encMsg 0x0E#5 4#5 false (0#2 ++ dir) 0#5 a 0#5)
  | .fwdw dir d => .wide (encMsg 0x0E#5 5#5 false (0#2 ++ dir) d 0#5 0#5)
  | .llput a => .wide (encMsg 0x0E#5 6#5 false 0#4 0#5 a 0#5)
  | .llget d => .wide (encMsg 0x0E#5 7#5 false 0#4 d 0#5 0#5)
  | .arm q a b => .wide (encMsg 0x0E#5 8#5 false (0#1 ++ q) 0#5 a b)
  | .disarm q a => .wide (encMsg 0x0E#5 9#5 false (0#1 ++ q) 0#5 a 0#5)
  | .trig => .wide (encMsg 0x0E#5 10#5 false 0#4 0#5 0#5 0#5)
  | .endI => .wide (encMsg 0x0E#5 11#5 false 0#4 0#5 0#5 0#5)
  | .join a => .wide (encMsg 0x0E#5 12#5 false 0#4 0#5 a 0#5)
  | .leave a => .wide (encMsg 0x0E#5 13#5 false 0#4 0#5 a 0#5)
  | .qwait d q => .wide (encMsg 0x0F#5 0#5 false (0#1 ++ q) d 0#5 0#5)
  | .qadv q => .wide (encMsg 0x0F#5 1#5 false (0#1 ++ q) 0#5 0#5 0#5)
  | .qfree q a => .wide (encMsg 0x0F#5 2#5 false (0#1 ++ q) 0#5 a 0#5)
  | .qpush q a b => .wide (encMsg 0x0F#5 3#5 false (0#1 ++ q) 0#5 a b)
  | .qstat d q => .wide (encMsg 0x0F#5 4#5 false (0#1 ++ q) d 0#5 0#5)
  | .trap imm => .wide (encSys 0#5 imm 0#5)
  | .syscall c => .wide (encSys 1#5 0#12 c)
  | .migrate => .wide (encSys 2#5 0#12 0#5)
  | .brk imm => .wide (encSys 3#5 imm 0#5)
  | .mfs c imm => .wide (encSys 4#5 imm c)
  | .mts c imm => .wide (encSys 5#5 imm c)
  | .eret => .wide (encSys 6#5 0#12 0#5)
  | .wfi => .wide (encSys 7#5 0#12 0#5)
  | .hvcall imm => .wide (encSys 8#5 imm 0#5)
  | .atinv c => .wide (encSys 9#5 0#12 c)
  | .dcwb c => .wide (encSys 10#5 0#12 c)
  | .dcinv c => .wide (encSys 11#5 0#12 c)
  | .icinv c => .wide (encSys 12#5 0#12 c)
  | .nop => .wide (0#25 ++ 0x1F#5 ++ 3#2)
  | .vadd ty vd va vb => .wide (encV 0x11#5 0#4 ty vd va vb)
  | .vsub ty vd va vb => .wide (encV 0x11#5 1#4 ty vd va vb)
  | .vmul ty vd va vb => .wide (encV 0x11#5 2#4 ty vd va vb)
  | .vfma ty vd va vb => .wide (encV 0x11#5 3#4 ty vd va vb)
  | .vmin ty vd va vb => .wide (encV 0x11#5 4#4 ty vd va vb)
  | .vmax ty vd va vb => .wide (encV 0x11#5 5#4 ty vd va vb)
  | .vand ty vd va vb => .wide (encV 0x11#5 6#4 ty vd va vb)
  | .vor ty vd va vb => .wide (encV 0x11#5 7#4 ty vd va vb)
  | .vxor ty vd va vb => .wide (encV 0x11#5 8#4 ty vd va vb)
  | .vshl ty vd va vb => .wide (encV 0x11#5 9#4 ty vd va vb)
  | .vshr ty vd va vb => .wide (encV 0x11#5 10#4 ty vd va vb)
  | .vsha ty vd va vb => .wide (encV 0x11#5 11#4 ty vd va vb)
  | .vabs ty vd va => .wide (encV 0x11#5 12#4 ty vd va 0#6)
  | .vneg ty vd va => .wide (encV 0x11#5 13#4 ty vd va 0#6)
  | .vrec ty vd va vb => .wide (encV 0x11#5 14#4 ty vd va vb)
  | .vexp2 ty vd va => .wide (encV 0x12#5 0#4 ty vd va 0#6)
  | .vlog2 ty vd va => .wide (encV 0x12#5 1#4 ty vd va 0#6)
  | .vrcp ty vd va => .wide (encV 0x12#5 2#4 ty vd va 0#6)
  | .vrsq ty vd va => .wide (encV 0x12#5 3#4 ty vd va 0#6)
  | .vsig ty vd va => .wide (encV 0x12#5 4#4 ty vd va 0#6)
  | .vcvt ty src mode sat vd va => .wide (encV 0x12#5 5#4 ty vd va (bit1 sat ++ mode ++ src))
  | .vperm ty vd va vb => .wide (encV 0x12#5 6#4 ty vd va vb)
  | .vshf ty vd va vb => .wide (encV 0x12#5 7#4 ty vd va vb)
  | .vscan ty vd va op => .wide (encV 0x12#5 8#4 ty vd va (0#4 ++ op))
  | .vmov ty vd va => .wide (encV 0x12#5 9#4 ty vd va 0#6)
  | .vld v a off => .wide (encVX 0#5 0#3 v a off)
  | .vst v a off => .wide (encVX 1#5 0#3 v a off)
  | .vldq v q off => .wide (encVX 2#5 0#3 v (0#2 ++ q) off)
  | .vbcast ty v a => .wide (encVX 3#5 ty v a 0#6)
  | .vext ty a v lane => .wide (encVX 4#5 ty v a lane)
  | .vins ty v a lane => .wide (encVX 5#5 ty v a lane)
  | .vcmpeq ty a v vx => .wide (encVX 6#5 ty v a vx)
  | .vcmplt ty a v vx => .wide (encVX 7#5 ty v a vx)
  | .vcmple ty a v vx => .wide (encVX 8#5 ty v a vx)
  | .vsel ty v a vx => .wide (encVX 9#5 ty v a vx)
  | .vredadd ty a v => .wide (encVX 10#5 ty v a 0#6)
  | .vredmax ty a v => .wide (encVX 11#5 ty v a 0#6)
  | .vredmin ty a v => .wide (encVX 12#5 ty v a 0#6)
  | .xscan ty v dirIn dirOut op role => .wide (encVX 13#5 ty v (0#3 ++ role) (dirOut ++ dirIn ++ op))
  | .vfence => .wide (encVX 14#5 0#3 0#6 0#5 0#6)
  | .vstm v a m => .wide (encVX 15#5 0#3 v a (0#1 ++ m))
  | .gang w pos => .wide (encM 0#4 pos false w 0#5 0#5 0#5)
  | .mopaAcc ty acc => .wide (encM 1#4 acc false ty 0#5 0#5 0#5)
  | .mopaBlock ty a b => .wide (encM 1#4 0#2 true ty 0#5 a b)
  | .mopbAcc ty acc => .wide (encM 2#4 acc false ty 0#5 0#5 0#5)
  | .mopbBlock ty a b => .wide (encM 2#4 0#2 true ty 0#5 a b)
  | .mma acc pb => .wide (encM 3#4 acc pb 0#3 0#5 0#5 0#5)
  | .mmas acc a => .wide (encM 4#4 acc false 0#3 0#5 a 0#5)
  | .msca acc pb vsa vsb => .wide (5#4 ++ acc ++ bit1 pb ++ 0#3 ++ vsa ++ vsb ++ 0#3 ++ 0x14#5 ++ 3#2)
  | .mzero acc => .wide (encM 6#4 acc false 0#3 0#5 0#5 0#5)
  | .mstat d => .wide (encM 7#4 0#2 false 0#3 d 0#5 0#5)
  | .mwait => .wide (encM 8#4 0#2 false 0#3 0#5 0#5 0#5)
  | .dpatch cell a d => .wide (encD 0#4 (0#2 ++ cell) d a)
  | .dset cell a => .wide (encD 1#4 (0#3 ++ cell) 0#5 a)
  | .dget d cell => .wide (encD 2#4 (0#3 ++ cell) d 0#5)
  | .dres d cell => .wide (encD 3#4 (0#3 ++ cell) d 0#5)
  | .dsave a => .wide (encD 4#4 0#11 0#5 a)
  | .dload a => .wide (encD 5#4 0#11 0#5 a)
  | .dclk div a => .wide (encD 6#4 (0#7 ++ div) 0#5 a)
  | .dstep a => .wide (encD 7#4 0#11 0#5 a)
  | .drun => .wide (encD 8#4 0#11 0#5 0#5)
  | .dhalt => .wide (encD 9#4 0#11 0#5 0#5)
  | .dwait => .wide (encD 10#4 0#11 0#5 0#5)
  | .drdc clr d cnt => .wide (encD 11#4 (0#5 ++ bit1 clr ++ cnt) d 0#5)
  | .dclrc cnt => .wide (encD 12#4 (0#6 ++ cnt) 0#5 0#5)
  | .dstat d => .wide (encD 13#4 0#11 d 0#5)
  | .dinj a => .wide (encD 14#4 0#11 0#5 a)
  | .fetch acq rel scope lc d a b => .wide (encS 0#4 acq rel scope lc d a b)
  | .put acq rel scope lc d a b => .wide (encS 1#4 acq rel scope lc d a b)
  | .copy acq rel scope lc d a b => .wide (encS 2#4 acq rel scope lc d a b)
  | .mcast acq rel scope lc d a b => .wide (encS 3#4 acq rel scope lc d a b)
  | .gather acq rel scope lc d a b => .wide (encS 4#4 acq rel scope lc d a b)
  | .scatter acq rel scope lc d a b => .wide (encS 5#4 acq rel scope lc d a b)
  | .trec d a => .wide (encS 6#4 false false 0#3 false d a 0#5)
  | .trinv a => .wide (encS 7#4 false false 0#3 false 0#5 a 0#5)
  | .sfence => .wide (encS 8#4 false false 0#3 false 0#5 0#5 0#5)
  | .cMov d b => .compact (encC0 0#3 d b 0#3)
  | .cAdd d b => .compact (encC0 0#3 d b 1#3)
  | .cSub d b => .compact (encC0 0#3 d b 2#3)
  | .cAnd d b => .compact (encC0 0#3 d b 3#3)
  | .cOr d b => .compact (encC0 0#3 d b 4#3)
  | .cXor d b => .compact (encC0 0#3 d b 5#3)
  | .cShl d b => .compact (encC0 0#3 d b 6#3)
  | .cShr d b => .compact (encC0 0#3 d b 7#3)
  | .cAddi d imm => .compact (1#3 ++ d ++ imm ++ 0#2)
  | .cMovi d imm => .compact (2#3 ++ d ++ imm ++ 0#2)
  | .cShli d n => .compact (3#3 ++ d ++ n ++ 0#1 ++ 0#2)
  | .cLdd d a off => .compact (encC0 4#3 d a off)
  | .cStd c a off => .compact (encC0 5#3 c a off)
  | .cLdw d a off => .compact (encC0 6#3 d a off)
  | .cStw c a off => .compact (encC0 7#3 c a off)
  | .cBeqz a off => .compact (0#3 ++ a ++ off ++ 1#2)
  | .cBnez a off => .compact (1#3 ++ a ++ off ++ 1#2)
  | .cB off => .compact (2#3 ++ off ++ 1#2)
  | .cJ a => .compact (3#3 ++ a ++ 0#7 ++ 1#2)
  | .cEnd => .compact (4#3 ++ 0#11 ++ 1#2)
  | .cQadv q => .compact (5#3 ++ q ++ 0#8 ++ 1#2)
  | .compactHint => .compact (6#3 ++ 0#11 ++ 1#2)
  | _ => .none

/-- Whether an instruction has a word. -/
def Instr.hasWord (i : Instr) : Bool := encode i != .none

/-- The bytes of a 32-bit word, least significant first (R10, R101). -/
def wordBytes (w : BitVec 32) : List Byte := [bitsAt w 0 8, bitsAt w 8 8, bitsAt w 16 8, bitsAt w 24 8]

/-- The bytes of a halfword, least significant first (R10, R101). -/
def halfBytes (h : BitVec 16) : List Byte := [bitsAt h 0 8, bitsAt h 8 8]

/-- The bytes of an instruction, in the order they stand in memory (R10, R101). -/
def encodeBytes (i : Instr) : List Byte :=
  match encode i with
  | .wide w => wordBytes w
  | .compact h => halfBytes h
  | .none => []

end Sys2Proof
end

