-- ==== Sys2Proof/Machine/Sparse.lean ====
section
/-! DEFINITION. Sparse maps: lists of (key, value) pairs with strictly rising keys, and what an unlisted
key reads as. The module's state is wide (148 480 tiles, 80 bulkheads, every byte of memory), so every
part of it that is indexed by a name is held in this form. -/

namespace Sys2Proof

/-- A map from numbers to values that lists only the keys that were written. -/
abbrev Sparse (α : Type) := List (Nat × α)

/-- The value at a key; an unlisted key reads as `d`. -/
def Sparse.get {α : Type} (d : α) : Sparse α → Nat → α
  | [], _ => d
  | (k', v) :: rest, k => if k' = k then v else Sparse.get d rest k

/-- The map with the value at one key replaced. -/
def Sparse.put {α : Type} : Sparse α → Nat → α → Sparse α
  | [], k, v => [(k, v)]
  | (k', v') :: rest, k, v =>
    if k < k' then (k, v) :: (k', v') :: rest
    else if k = k' then (k, v) :: rest
    else (k', v') :: Sparse.put rest k v

/-- The map with one key unlisted. -/
def Sparse.del {α : Type} : Sparse α → Nat → Sparse α
  | [], _ => []
  | (k', v') :: rest, k => if k' = k then Sparse.del rest k else (k', v') :: Sparse.del rest k

/-- The value at a key, if the key is listed. -/
def Sparse.find? {α : Type} : Sparse α → Nat → Option α
  | [], _ => none
  | (k', v) :: rest, k => if k' = k then some v else Sparse.find? rest k

/-- The keys strictly rise. -/
def Sparse.sorted {α : Type} : Sparse α → Bool
  | [] => true
  | [_] => true
  | (k, _) :: (k', v') :: rest => k < k' && Sparse.sorted ((k', v') :: rest)

/-- The key that makes room in a map that holds `cap` values: the one at a position. -/
def Sparse.victim {α : Type} (m : Sparse α) (cap n : Nat) : Option Nat :=
  if m.length < cap then none else (m[n % m.length]?).map (·.1)

/-- The smallest number above every listed key: a fresh key. -/
def Sparse.fresh {α : Type} : Sparse α → Nat
  | [] => 1
  | (k, _) :: rest => max (k + 1) (Sparse.fresh rest)

end Sys2Proof
end

