-- ==== Sys2Proof/Machine/Types.lean ====
section
/-! DEFINITION. The parts of the state that travel: requests, replies, messages, packets, trap records,
and the contexts that issue them (R17, R25, R46, R78, R277, R323). -/

namespace Sys2Proof.Machine

/-- The trap causes of R46. -/
inductive Cause where
  | illegal | misalign | gate | noname | xlate | integrity | eccUe | trecGen | matrixCombo | ddaOverrun
  | priv | trapInsn | brk | stall | queueErr | loopDepth
  deriving DecidableEq, Repr

/-- The code of a trap cause (R46). -/
def Cause.code : Cause → BitVec 8
  | .illegal => 0x01 | .misalign => 0x02 | .gate => 0x03 | .noname => 0x04 | .xlate => 0x05
  | .integrity => 0x06 | .eccUe => 0x07 | .trecGen => 0x08 | .matrixCombo => 0x09 | .ddaOverrun => 0x0A
  | .priv => 0x0B | .trapInsn => 0x0C | .brk => 0x0D | .stall => 0x0E | .queueErr => 0x10 | .loopDepth => 0x11

/-- The states of an activation slot (R21, coded as in R327). -/
inductive SlotState where
  | free | ready | waiting | parked | migrated | preempted
  deriving DecidableEq, Repr

/-- The operators of the reductions (R162). -/
inductive RedOp where
  | add | addf | min | max | and | or | xor
  deriving DecidableEq, Repr

/-- The right an access needs (R313). -/
inductive Right where
  | r | w | x | a
  deriving DecidableEq, Repr

/-- What an access does at its home (R136, R157 to R162, R266). Store data are (offset, byte) pairs, so
that a masked row store names the bytes it writes (R203). -/
inductive Access where
  /-- scalar or 64-byte load of n bytes -/
  | load (n : Nat) (signed : Bool)
  /-- store of a width, with the bytes it writes -/
  | store (width : Nat) (bytes : List (Nat × Byte))
  /-- counter add; `status` holds the status bits set in the same update (R33, R95, R97) -/
  | cadd (n : Word) (status : Word)
  /-- counter add that returns the old value -/
  | caddf (n : Word)
  /-- counter value read -/
  | cread
  /-- one comparison with a target, no watch (R158) -/
  | ctest (target : Word)
  /-- a wait: compared, and a watch registered when short of the target (R94, R158) -/
  | cwait (target : Word)
  /-- a watch whose wake is a message to a tile, queue and tag (R160) -/
  | cwatch (target : Word) (tile : TileName) (q : QNum) (tag : BitVec 16)
  /-- reduction by operator, `mod2` and operand (R162) -/
  | red (op : RedOp) (mod : BitVec 2) (b : Word)
  /-- read and write of a state register, with the slot registers of slot `k`, by a migrated activation (R185) -/
  | regRead (k : BitVec 2) (i : BitVec 12)
  | regWrite (i : BitVec 12) (v : Word)
  /-- stream source read of n bytes (R266) -/
  | sread (n : Nat)
  /-- stream destination write of n bytes, with the bytes it writes (R266, R267) -/
  | swrite (n : Nat) (bytes : List (Nat × Byte))
  /-- the translation that a proctor core's fetch or cache instruction asks a station for, and nothing more (R303, R312) -/
  | probe (need : Right)
  deriving DecidableEq, Repr

/-- Who issued a request (R78): a slot's or a core's activation, a vector command, a stream command's
chunk, an ended activation's share add. `act` tells one activation of a slot from the next. -/
inductive Origin where
  | slot (t : TileName) (k : BitVec 2) (act : Nat)
  | core (b : BulkId) (c : BitVec 3) (act : Nat)
  | vec (t : TileName) (k : BitVec 2) (act : Nat) (cmd : Nat)
  | stream (t : TileName) (cmd : Nat) (chunk : Nat)
  | streamAdd (t : TileName) (cmd : Nat)
  | share (t : TileName)
  /-- a start descriptor of a host queue, with its ID (R354) -/
  | host (q id : Nat)
  deriving DecidableEq, Repr

/-- The claim a request leaves with its issuer. -/
structure Ticket where
  origin : Origin
  /-- the request's own number -/
  rid : Nat
  /-- the address of the instruction -/
  epc : Word
  /-- the instruction's word -/
  iw : Word
  deriving DecidableEq, Repr

/-- A request (R77, R141). -/
structure Req where
  acc : Access
  addr : Word
  who : Ticket
  /-- the requests a router merged into this one (R95) -/
  also : List Ticket
  /-- the bulkhead and process whose translations apply (R77, R303) -/
  pid : BitVec 16
  /-- issued by a proctor core at level H (R303) -/
  hLevel : Bool
  /-- register that a reply writes -/
  dest : Option Reg
  /-- the edge line counts in INTEG.OUTST until its check returns (R98) -/
  counted : Bool
  /-- travels on VC4 (R266) -/
  lc : Bool
  deriving DecidableEq, Repr

/-- What a home, a gate or a controller answers. -/
inductive Reply where
  | data (bytes : List Byte)
  | value (v : Word)
  | done
  /-- an uncorrectable error at a location (R139) -/
  | ecc (addr : Word)
  /-- a stream read that met an uncorrectable error: the words that carry it (R267) -/
  | eccData (bytes : List Byte) (bad : List Nat)
  /-- a partial write whose line failed its check (R318), with the value it returns -/
  | checkFailed (v : Word)
  /-- a store at a locked code region (R138) -/
  | codeRefused
  /-- a gate refused the packet (R295) -/
  | gate (addr : Word)
  deriving DecidableEq, Repr

/-- A message (R25, R166). -/
structure Msg where
  dest : TileName
  q : QNum
  tag : BitVec 16
  len : Nat
  payload : List Byte
  /-- `TILE_ID` of the sender, or 0 (R28) -/
  sender : Word
  /-- from the host or a proctor (R328) -/
  ext : Bool
  lc : Bool
  /-- a `CWATCH` wake, whose discard names no slot (R160) -/
  wake : Bool
  who : Option Ticket
  deriving DecidableEq, Repr

/-- A trap record (R323). -/
structure TrapRec where
  island : BulkId
  tile : Word
  epc : Word
  eval : Word
  cause : BitVec 8
  slot : BitVec 2
  noSlot : Bool
  precise : Bool
  late : Bool
  step : Bool
  away : Bool
  xreason : BitVec 4
  xid : BitVec 16
  station : BitVec 7
  deriving DecidableEq, Repr

/-- A register that awaits a result (R126, R140, R190): the request or command that supplies it, and
whether that has failed or stalled. -/
structure Pending where
  reg : Reg
  id : Nat
  failed : Bool
  deriving DecidableEq, Repr

/-- The 336 bytes that `MIGRATE` moves (R38, R151), with the home slot. -/
structure MigImage where
  tile : TileName
  slot : BitVec 2
  act : Nat
  regs : Vector Word 32
  eregs : Vector Word 8
  pc : Word
  loop0 : Word
  loop1 : Word
  /-- the next issue makes no end action, after a restore (R155) -/
  noEnd : Bool
  /-- registers that failed loads left pending (R140) -/
  pend : List Pending
  deriving DecidableEq, Repr

/-- What a packet carries (R277, R278). -/
inductive Body where
  | req (r : Req)
  /-- a translated request: physical address, page kind, key slot (R312) -/
  | treq (r : Req) (pa : Nat) (ord : BitVec 2) (key : Nat)
  | reply (r : Req) (a : Reply)
  /-- a watch fired for a waiting instruction (R94) -/
  | wake (who : Ticket) (watch : Nat)
  /-- the check result of an edge line (R98) -/
  | mac (who : Origin) (ok : Bool)
  | msg (m : Msg)
  | msgRefused (who : Ticket) (q : QNum)
  /-- a gate refused a packet that is no request: its issuer, if it has one, and its destination (R295) -/
  | refused (who : Option Ticket) (dest : Word)
  | group (t : TileName) (g : BitVec 8) (join : Bool) (ag : Agent) (act : Nat)
  | groupAck (t : TileName) (g : BitVec 8) (join : Bool) (ag : Agent) (act : Nat)
  | trapRec (r : TrapRec)
  | syscall (t : TileName) (block : List Byte) (token : BitVec 16) (counter : Word)
  | migrate (m : MigImage)
  | migrateBack (m : MigImage)
  /-- one entry of a work list (R271) -/
  | level (src dst : TileName) (bytes : List Byte)
  /-- a payload from the registrar to a link port, 8·b + p, and one that a port has delivered to the registrar (R359,
  R362) -/
  | linkOut (port len : Nat) (payload : List Byte)
  | linkIn (port len : Nat) (payload : List Byte)
  /-- the flits that follow a header which a gate has refused: they are discarded at the gateway (R295, R368) -/
  | dropped
  deriving DecidableEq, Repr

/-- A walk of R312: the next table entry's address and level; level 4 is the PIDTAB read. -/
structure Walk where
  level : Nat
  entry : Nat
  /-- an invalidation met the walk, which restarts from PIDTAB (R315) -/
  restart : Bool
  deriving DecidableEq, Repr

/-- Where a packet is. -/
inductive Place where
  /-- in the routers -/
  | moving
  /-- delivered whole at its destination -/
  | arrived
  /-- at a station, its walk running (R312) -/
  | walking (w : Walk)
  /-- stalled at a station by `XLATE`: XID and reason (R314, R331) -/
  | stalled (xid : BitVec 16) (reason : BitVec 4)
  /-- translated, at the station that translated it, bound for its home (R77) -/
  | translated
  /-- at its home station, to be performed there -/
  | atHome
  deriving DecidableEq, Repr

/-- A packet (R277, R278, R293). -/
structure Packet where
  vc : Nat
  stamp : Nat
  src : Nat
  dst : Nat
  /-- a response to a VC4 request (R278) -/
  marked : Bool
  /-- passed a gate through a window (R294): bulkhead b, gate g, entry i as 32·b + 8·g + i -/
  windowed : Option Nat
  flits : Nat
  /-- flits delivered at the destination -/
  got : Nat
  /-- number of its arrival, which orders the packets that have arrived whole -/
  order : Nat
  /-- queue entry that the header was assigned at the destination (R156) -/
  entry : Option Nat
  body : Body
  place : Place
  /-- a request that stalled at its station and is translated again from the start (R331) -/
  retried : Bool
  /-- the range entries of its station as they stood when it arrived, if they have been written since (R311) -/
  ranges : Option (Sparse Word)
  /-- first virtual address and bytes of the entry that translated it (R315) -/
  span : Option (Nat × Nat)
  deriving DecidableEq, Repr

/-- One flit in a buffer (R281). -/
structure Flit where
  pkt : Nat
  idx : Nat
  last : Bool
  deriving DecidableEq, Repr

/-- One input buffer of a router for one VC (R281, R283). -/
structure InBuf where
  flits : List Flit
  /-- at the local port: flits that the sender still holds, behind the four that the buffer takes -/
  behind : List Flit
  age : Nat
  promoted : Bool
  /-- a flit of the packet at the head has been forwarded in this cycle (R283) -/
  served : Bool
  deriving DecidableEq, Repr

/-- One output port of a router (R281, R282). -/
structure OutPort where
  budget : Vector Nat 8
  ptr : Nat
  /-- the packet that holds each VC -/
  hold : Vector (Option Nat) 8
  /-- the input that last began a packet on each VC -/
  lastIn : Vector Nat 8
  deriving DecidableEq, Repr

/-- A router: input buffers by 8·port + VC, output ports by port (0 N, 1 E, 2 S, 3 W, 4 local). -/
structure Router where
  ins : Sparse InBuf
  outs : Sparse OutPort
  deriving DecidableEq, Repr

def InBuf.empty : InBuf := { flits := [], behind := [], age := 0, promoted := false, served := false }

def OutPort.reset : OutPort :=
  { budget := Vector.replicate 8 0, ptr := 0, hold := Vector.replicate 8 none, lastIn := Vector.replicate 8 4 }

def Router.reset : Router := { ins := [], outs := [] }

/-- An off-tile access that the context has issued and that is not yet performed (R83, R141, R163). -/
structure Outst where
  id : Nat
  /-- a load, for the limit of R129 -/
  load : Bool
  /-- the access returns data or is an acquire (R163) -/
  returns : Bool
  /-- a `CADDF`, whose acquire holds back every later access until the old value returns (R89) -/
  acquire : Bool
  strong : Bool
  deriving DecidableEq, Repr

/-- The units whose earlier commands a fence waits for (R193, R228, R269). -/
inductive CmdUnit where
  | vec | mat | stream
  deriving DecidableEq, Repr

/-- What a waiting context waits for (R21, R155). -/
inductive Wait where
  | none
  /-- the instruction has not issued: it is tried again -/
  | retry
  /-- the instruction has issued, with these registers and extension registers, and is tried again until it
  completes (R117, R155) -/
  | issued (i : Instr) (word : Word) (regs : Vector Word 32) (eregs : Vector Word 8)
  /-- a counter in own tile scratch: memory key, target, flag register of `CWAITT` with the TIMER at which its
  timeout expires (R158) -/
  | counter (key : Nat) (target : Word) (flag : Option (Reg × Word))
  /-- a counter elsewhere: the request's number, and the same -/
  | remote (rid : Nat) (flag : Option (Reg × Word))
  /-- roll-call wires not yet released (R165) -/
  | wire (row col : Bool)
  /-- a gang join (R220) -/
  | gang
  /-- a group directory acknowledgement (R174) -/
  | group
  /-- `MIGRATE` on its way out of a core -/
  | moving
  /-- every command of a unit of the tile with a number below `n` (R193, R228, R269) -/
  | older (u : CmdUnit) (n : Nat)
  deriving DecidableEq, Repr

/-- The loop words of a context, and whether its next issue makes no end action (R149, R151). -/
structure Loops where
  loop0 : Word
  loop1 : Word
  loopH0 : Word
  loopH1 : Word
  noEnd : Bool
  deriving DecidableEq, Repr

/-- What one issuing context holds: an activation slot (R17) or a proctor core (R20). -/
structure Ctx where
  regs : Vector Word 32
  eregs : Vector Word 8
  pc : Word
  loop0 : Word
  loop1 : Word
  /-- upper start bits of a core's loop levels (R305); 0 on a tile -/
  loopH0 : Word
  loopH1 : Word
  wait : Wait
  /-- address of the waiting instruction (R155), and the TIMER when it issued, while it is looked at again (R158) -/
  ipc : Word
  issuedAt : Option Word
  /-- the number of a waiting `FWDW` in the issue order of its tile (R19, R170) -/
  popNo : Nat
  /-- what its end action changed, as it stood before: a precise trap makes no end action (R47, R149) -/
  before : Loops
  /-- the next issue makes no end action (R155, R338) -/
  noEnd : Bool
  pend : List Pending
  out : List Outst
  deriving DecidableEq, Repr

def Ctx.reset : Ctx :=
  { regs := Vector.replicate 32 0, eregs := Vector.replicate 8 0, pc := 0, loop0 := 0, loop1 := 0, loopH0 := 0,
    loopH1 := 0, wait := .none, ipc := 0, issuedAt := none, popNo := 0, before := ⟨0, 0, 0, 0, false⟩, noEnd := false, pend := [], out := [] }

/-- An activation slot (R17, R44, R327). -/
structure Slot where
  ctx : Ctx
  state : SlotState
  cause : BitVec 8
  epc : Word
  eval : Word
  shared : Bool
  queue : QNum
  binding : BitVec 5
  tag : BitVec 16
  /-- share and counter of the binding that fired the activation (R31) -/
  share : BitVec 32
  counter : Word
  /-- number of the activation, distinct from every earlier one -/
  act : Nat
  /-- work-list entry taken by `LLGET`: its ring index (R171) -/
  taken : Option Nat
  /-- result of the latest CTL write (R327) -/
  ctl : Word
  deriving DecidableEq, Repr

def Slot.reset : Slot :=
  { ctx := Ctx.reset, state := .free, cause := 0, epc := 0, eval := 0, shared := false, queue := 0, binding := 0,
    tag := 0, share := 0, counter := 0, act := 0, taken := none, ctl := 0 }

/-- A handler binding (R26, R328). -/
structure Binding where
  valid : Bool
  queue : QNum
  tag : BitVec 16
  entry : Word
  counter : Word
  share : BitVec 32
  deriving DecidableEq, Repr

def Binding.none : Binding := { valid := false, queue := 0, tag := 0, entry := 0, counter := 0, share := 0 }

/-- The mark of a queue entry (R175, R328). -/
structure Entry where
  tag : BitVec 16
  len : BitVec 9
  /-- the entry is assigned to a message (R156) -/
  full : Bool
  /-- the message has arrived whole -/
  here : Bool
  taken : Bool
  passed : Bool
  fired : Bool
  holder : BitVec 2
  held : Bool
  seq : BitVec 16
  sender : BitVec 18
  ext : Bool
  /-- bulkhead cycle of arrival, which orders the tile's queues (R27, R156) -/
  order : Nat
  deriving DecidableEq, Repr

def Entry.empty : Entry :=
  { tag := 0, len := 0, full := false, here := false, taken := false, passed := false, fired := false, holder := 0,
    held := false, seq := 0, sender := 0, ext := false, order := 0 }

/-- A queue: descriptor, indices and entry marks (R24, R328). -/
structure Queue where
  valid : Bool
  base : BitVec 18
  logn : BitVec 4
  esize : BitVec 2
  oldest : BitVec 8
  /-- index of the read entry, WRITE when no message waits (R175) -/
  read : BitVec 8
  write : BitVec 8
  nextSeq : BitVec 16
  entries : Sparse Entry
  deriving DecidableEq, Repr

def Queue.reset : Queue :=
  { valid := false, base := 0, logn := 0, esize := 0, oldest := 0, read := 0, write := 0, nextSeq := 0, entries := [] }

/-- A draft (R36, R328). -/
structure Draft where
  msg : Msg
  /-- destination as the A operand of `SENDS` -/
  dest : Word
  slot : BitVec 2
  /-- position in the order written -/
  order : Nat
  deriving DecidableEq, Repr

end Sys2Proof.Machine
end

