-- ==== Sys2Proof/Machine/Units.lean ====
section
/-! DEFINITION. The units of a tile: vector command queue, matrix slice, integrator fabric, stream
engine and levelling unit, and the tile that holds them (R17). -/

namespace Sys2Proof.Machine

/-! ## Vector unit (R190, R192) -/

/-- A vector command: its instruction and every scalar operand read at issue (R190). -/
structure VCmd where
  id : Nat
  instr : Instr
  slot : BitVec 2
  act : Nat
  epc : Word
  iw : Word
  /-- effective address, broadcast value or compare mask -/
  a : Word
  /-- byte mask of `VSTM` -/
  m : Word
  /-- started (R190) -/
  started : Bool
  /-- a memory command whose request has left, or whose reply awaits completion -/
  sent : Bool
  /-- the 64 bytes a load returned -/
  data : Option (List Byte)
  /-- the carry that `XSCAN` popped, and whether it has sent its own (R209) -/
  carry : Option Word
  forwarded : Bool
  deriving DecidableEq, Repr

/-! ## Matrix slice (R213 to R231) -/

/-- An operand descriptor (R215, R216). -/
structure Desc where
  fmt : BitVec 3
  block : Bool
  acc : Acc
  base : Word
  layout : Word
  /-- number of the `MOPA` or `MOPB` that wrote it, so that a replacement is told from an advance (R221) -/
  gen : Nat
  deriving DecidableEq, Repr

def Desc.reset : Desc := { fmt := 0, block := false, acc := 0, base := 0, layout := 0, gen := 0 }

/-- A matrix command that has issued: a joining instruction's arrival, an `MSCA` or an `MZERO`. -/
structure MCmd where
  id : Nat
  instr : Instr
  slot : BitVec 2
  act : Nat
  epc : Word
  iw : Word
  descA : Desc
  descB : Desc
  /-- metadata address of `MMAS` -/
  metaAddr : Word
  deriving DecidableEq, Repr

/-- A joined operation of one member (R220): the command, the leader, what was read at the start. -/
structure MOp where
  cmd : MCmd
  leader : TileName
  members : List TileName
  descLead : Desc
  /-- metadata rows that the leader read at join completion (R224) -/
  metaRows : List Word
  aRows : List Row
  bRows : List Row
  /-- an uncorrectable, or a corrected, error was met in an operand (R229, R230) -/
  eccBad : Bool
  eccCorr : Bool
  deriving DecidableEq, Repr

/-- An abort signalled on the gang bus: its number, which is one for all members, and the place, among this tile's
arrivals and those to come, of the one that it matches (R220, R222). -/
structure Abort where
  id : Nat
  place : Nat
  deriving DecidableEq, Repr

/-- The matrix slice of a tile. -/
structure Matrix where
  width : BitVec 2
  pos : BitVec 2
  descA : Desc
  descB : Desc
  partials : Sparse (BitVec 16)
  status : Word
  /-- arrivals that no join has consumed, oldest first -/
  arrivals : List MCmd
  /-- aborts that the matching arrival has not yet met (R222) -/
  aborts : List Abort
  waiting : Option MOp
  running : Option MOp
  scWaiting : Option MCmd
  scRunning : Option MCmd
  zeros : List MCmd
  deriving DecidableEq, Repr

def Matrix.reset : Matrix :=
  { width := 0, pos := 0, descA := Desc.reset, descB := Desc.reset, partials := [], status := 0, arrivals := [],
    aborts := [], waiting := none, running := none, scWaiting := none, scRunning := none, zeros := [] }

/-! ## Integrator fabric (R232 to R255) -/

/-- One dy input of a patch word (R234). -/
structure DyInput where
  src : BitVec 9
  shift : BitVec 4
  gain : BitVec 16
  deriving DecidableEq, Repr

def DyInput.reset : DyInput := { src := 257, shift := 0, gain := 0 }

/-- An integrator cell: state and patch word (R232, R234). -/
structure Cell where
  y : BitVec 32
  res : BitVec 24
  /-- last increment: 0b00 0, 0b01 +1, 0b11 −1 -/
  out : BitVec 2
  dx : BitVec 9
  dy : Vector DyInput 4
  deriving DecidableEq, Repr

/-- A cell of zeros, as a scrub leaves it (R383). -/
def Cell.zero : Cell :=
  { y := 0, res := 0, out := 0, dx := 0, dy := Vector.replicate 4 { DyInput.reset with src := 0 } }

def Cell.reset : Cell := { y := 0, res := 0, out := 0, dx := 257, dy := Vector.replicate 4 DyInput.reset }

/-- A change of fabric state that waits for a boundary (R246). -/
inductive FabChange where
  | patch (cell : Nat) (bytes : List Byte)
  | map (bytes : List Byte)
  | setY (cell : Nat) (y : BitVec 32)
  | subCount (k : Nat) (v : BitVec 32)
  | clearCount (k : Nat)
  deriving DecidableEq, Repr

/-- The slot whose `DRUN` armed the tile (R238). -/
structure Armed where
  slot : BitVec 2
  act : Nat
  epc : Word
  deriving DecidableEq, Repr

/-- The fabric of a tile. -/
structure Fabric where
  cells : Sparse Cell
  counts : Sparse (BitVec 32)
  /-- map block, bytes 0 to 63; an unlisted byte holds its reset value (R235) -/
  map : Sparse Byte
  state : BitVec 2
  domain : BitVec 6
  steps : BitVec 32
  /-- STEPS when the tile armed, which the run's budget comes from (R243, R252) -/
  budget : BitVec 32
  sat : Bool
  flt : Bool
  xdom : Bool
  badsrc : Bool
  eccu : Bool
  ovcell : BitVec 8
  stepn : BitVec 32
  /-- injection patterns not yet taken by a step, oldest first, 64 bytes each, with the TIMER at their issue (R253) -/
  inj : List (Word × List Byte)
  /-- changes not yet applied, oldest first, each with the TIMER at its issue (R246) -/
  changes : List (Word × FabChange)
  armed : Option Armed
  /-- STATE from which a `STOP` or a freeze halted the fabric, for the save image (R337, R338) -/
  was : BitVec 2
  /-- what is not listed of its cells and map stands at zero, as a scrub writes it, and not at its reset value (R383) -/
  blank : Bool
  deriving DecidableEq, Repr

def Fabric.reset : Fabric :=
  { cells := [], counts := [], map := [], state := 0, domain := 0, steps := 0, budget := 0, sat := false, flt := false, xdom := false,
    badsrc := false, eccu := false, ovcell := 0, stepn := 0, inj := [], changes := [], armed := none, was := 0,
    blank := false }

/-- A step domain: divider, policy and its run (R241 to R244). -/
structure Domain where
  div : BitVec 4
  policy : Bool
  /-- DIV and POLICY that an enrolment during a run carries (R242) -/
  held : Option (BitVec 4 × Bool)
  /-- the start has been taken: members of the run, budget, TIMER in that cycle (R243) -/
  run : Option (List TileName × Nat × Word)
  /-- the members have switched to RUNNING -/
  started : Bool
  /-- TIMER in the cycle in which a member issued `DHALT` (R244) -/
  halt : Option Word
  /-- a condition of R244 holds at the latest boundary: no further step begins -/
  stop : Bool
  /-- the start edge or the latest boundary, in half cycles of TIMER: cycle c ends at 2·c + 2 (R402) -/
  edge : Nat
  /-- the same edge in half periods of a bulkhead clock at its nominal rate: a step clock runs at twice that rate, and no
  cap stretches it (R8, R240) -/
  half : Nat
  deriving DecidableEq, Repr

def Domain.reset : Domain :=
  { div := 0, policy := false, held := none, run := none, started := false, halt := none, stop := false, edge := 0, half := 0 }

/-! ## Stream engine (R258 to R269) -/

/-- A tensor record slot (R258). -/
structure TRec where
  w0 : Word
  w1 : Word
  w2 : Word
  w3 : Word
  gen : BitVec 24
  valid : Bool
  deriving DecidableEq, Repr

def TRec.reset : TRec := { w0 := 0, w1 := 0, w2 := 0, w3 := 0, gen := 0, valid := false }

/-- One chunk of a running command: bytes from one address to another, in one packet of the side that it is read from,
or written to (R278). -/
structure Chunk where
  id : Nat
  src : Word
  dst : Word
  len : Nat
  /-- member of an `MCAST` that the chunk goes to -/
  member : Option TileName
  /-- bytes read and not yet sent to a STRONG page, with the number of the write that goes before them (R96) -/
  held : Option (Nat × List (Nat × Byte))
  deriving DecidableEq, Repr

/-- A stream command (R262, R263, R265). -/
structure SCmd where
  id : Nat
  instr : Instr
  slot : BitVec 2
  act : Nat
  epc : Word
  iw : Word
  d : Word
  a : Word
  b : Word
  e0 : Word
  e1 : Word
  e2 : Word
  recSrc : Option TRec
  recDst : Option TRec
  /-- accesses of the issuing slot that an acquire flag waits for (R96) -/
  after : List Nat
  started : Bool
  /-- bytes whose chunks have been formed, and bytes in all -/
  pos : Nat
  total : Nat
  /-- chunks formed, not yet read and written -/
  chunks : List Chunk
  /-- the list entries as the engine has read them, none for one with an uncorrectable error (R263) -/
  entries : List (Option Word)
  /-- the pieces of the destination, rows or elements, in ascending address order; empty for one piece (R96) -/
  order : List Nat
  /-- `MCAST` members, once the directory has taken them (R266) -/
  members : Option (List TileName)
  /-- ENGINE bits to be set with the add (R267), and by member of an `MCAST` -/
  engine : BitVec 8
  engineOf : Sparse (BitVec 8)
  /-- edge lines read whose check result has not arrived (R98) -/
  checks : Nat
  /-- counter adds sent and not yet acknowledged; none before they are made -/
  addsLeft : Option Nat
  deriving DecidableEq, Repr

/-- The levelling unit (R270, R271). -/
structure Level where
  ctl : Word
  head : Nat
  depth : Nat
  shipped : BitVec 16
  received : BitVec 16
  /-- TIMER at the latest interval boundary, and DEPTH at it before entries were shipped -/
  edge : Word
  edgeDepth : Nat
  deriving DecidableEq, Repr

def Level.reset : Level :=
  { ctl := 0x0000008000003000, head := 0, depth := 0, shipped := 0, received := 0, edge := 0, edgeDepth := 0 }

/-- A share add that an ended or killed activation has queued (R173): counter, amount, status bits, and
the accesses it waits for. -/
structure ShareAdd where
  counter : Word
  share : BitVec 32
  status : Word
  /-- the accesses that its release covers -/
  after : List Nat
  /-- the number of the `END` or the kill in the issue order of the tile (R19) -/
  no : Nat
  epc : Word
  deriving DecidableEq, Repr

/-! ## The tile (R17) -/

/-- A tile. Tile scratch is in the module's memory; OWNER, MAPGEN and TIMER are the bulkhead's. -/
structure Tile where
  slots : Vector Slot 4
  /-- the slot that issued last (R22) -/
  ptr : BitVec 2
  queues : Vector Queue 8
  bindings : Vector Binding 32
  /-- accumulators a0 to a3, as rows v0 to v63 (R18) -/
  rows : Sparse Row
  drafts : Vector (Option Draft) 16
  /-- forwarding mailboxes, 0 N, 1 E, 2 S, 3 W, oldest first (R37), and their ring heads (R328) -/
  mail : Vector (List Word) 4
  mailHead : Vector (BitVec 2) 4
  pid : BitVec 16
  trapctl : BitVec 2
  rcMask : BitVec 2
  /-- INTEG (R100) -/
  fails : BitVec 16
  outst : BitVec 16
  dbgCtl : BitVec 40
  dbgCount : BitVec 8
  dbgActive : Bool
  /-- the slot of the debug step that runs: DBG_CTL.SLOT when it began (R333) -/
  dbgOf : BitVec 2
  /-- the next instruction of a debug step is its first, which no breakpoint stops (R333) -/
  dbgFirst : Bool
  /-- an instruction of a debug step has issued and is not yet counted (R333) -/
  dbgOwed : Bool
  /-- PREEMPT: STATE, DONE, ERR, IMAGE, and which of SAVE and LOAD is BUSY (R334) -/
  pre : BitVec 2
  preSave : Bool
  preDone : Bool
  preErr : Bool
  image : BitVec 52
  /-- sixteen group ids and the mask of those that are memberships (R34, R328) -/
  groupIds : Vector (BitVec 8) 16
  groupMask : BitVec 16
  /-- off-tile requests not acknowledged (R141) and SYSCALL requests not accepted (R181) -/
  offTile : List Nat
  sysOut : Nat
  /-- locked code ranges, first and last offset (R122, R137) -/
  code : List (Nat × Nat)
  /-- result word of the latest cancel (R340) -/
  cancel : Word
  /-- dwords of the table area, by offset, that were written behind a clear mark: mailbox entries, drafts (R328) -/
  tableRest : Sparse Word
  /-- arrivals on the tile's roll-call wires, row and column (R165) -/
  arrived : BitVec 2
  shareAdds : List ShareAdd
  vq : List VCmd
  mat : Matrix
  fab : Fabric
  recs : Sparse TRec
  sq : List SCmd
  lvl : Level
  deriving DecidableEq, Repr

/-- A tile after tile reset (R17). The spec gives the scheduler's pointer no reset value: it stands at slot 3, so that
slot 0 is the first in order (log entry 4). -/
def Tile.reset : Tile :=
  { slots := Vector.replicate 4 Slot.reset, ptr := 3, queues := Vector.replicate 8 Queue.reset,
    bindings := Vector.replicate 32 Binding.none, rows := [], drafts := Vector.replicate 16 none,
    mail := Vector.replicate 4 [], mailHead := Vector.replicate 4 0, pid := 0, trapctl := 0, rcMask := 0, fails := 0,
    outst := 0, dbgCtl := 0, dbgCount := 0, dbgActive := false, dbgOf := 0, dbgFirst := false, dbgOwed := false,
    pre := 0, preSave := false, preDone := false, preErr := false,
    image := 0, groupIds := Vector.replicate 16 0, groupMask := 0, offTile := [], sysOut := 0, code := [],
    cancel := 0, tableRest := [], arrived := 0, shareAdds := [],
    vq := [], mat := Matrix.reset, fab := Fabric.reset, recs := [], sq := [], lvl := Level.reset }

/-- A tile as a scrub leaves it: zeros in its scratch are zeros of its fabric too (R383). -/
def Tile.blank : Tile := { Tile.reset with fab := { Fabric.reset with blank := true } }

/-! ## Proctor island and station (R302 to R315, R325, R342) -/

/-- A translation kept by a core or a station (R303, R307). -/
structure Leaf where
  h : Bool
  pid : BitVec 16
  /-- first virtual address of the page, bits [55:0], and log2 of its size -/
  va : Nat
  log : Nat
  pte : Word
  deriving DecidableEq, Repr

/-- A proctor core (R20, R302, R305). -/
structure PCore where
  ctx : Ctx
  /-- true at level H -/
  h : Bool
  /-- the core issues: Yelk has started it, and no fetch trap at HVENTRY has halted it (R302) -/
  running : Bool
  ppid : BitVec 16
  hroot : Word
  pcause : BitVec 8
  pepc : Word
  peval : Word
  psaved : BitVec 2
  ien : Bool
  hvimm : BitVec 12
  hventry : Word
  tlb : List Leaf
  /-- instruction-cache lines: 64-byte line key to bytes -/
  icache : Sparse (List Byte)
  /-- data-cache lines of far memory: line key to bytes and a dirty mark (R87, R302) -/
  dcache : Sparse (List Byte × Bool)
  /-- home tile, slot and activation of a migrated activation (R38) -/
  home : Option (TileName × BitVec 2 × Nat)
  deriving DecidableEq, Repr

def PCore.reset : PCore :=
  { ctx := Ctx.reset, h := true, running := false, ppid := 0, hroot := 0, pcause := 0, pepc := 0, peval := 0,
    psaved := 0, ien := false, hvimm := 0, hventry := 0, tlb := [], icache := [], dcache := [], home := none }

/-- A proctor island: eight cores, trap ring, invigilator, router settings (R302, R305, R325). -/
structure Island where
  cores : Vector PCore 8
  tqbase : Word
  tqhead : BitVec 10
  tqtail : BitVec 10
  tqint : BitVec 8
  xretry : Bool
  invctl : BitVec 7
  stalled : Bool
  idle : BitVec 32
  eccCorr : BitVec 32
  eccUnc : BitVec 16
  eccAddr : Word
  arbcfg : BitVec 42
  gateLog : BitVec 32
  gateAddr : Word
  /-- island-cache lines of far memory, line key to bytes (R87, R302) -/
  cache : Sparse (List Byte)
  /-- `SYSCALL` requests that the tenant image has not accepted: tile, block, token, counter (R40, R181) -/
  calls : List (TileName × List Byte × BitVec 16 × Word)
  /-- start messages for the tenant image that it has not accepted (R306, R354) -/
  starts : List Msg
  ptimer : Word
  deriving DecidableEq, Repr

def Island.reset : Island :=
  { cores := Vector.replicate 8 PCore.reset, tqbase := 0, tqhead := 0, tqtail := 0, tqint := 0, xretry := false,
    invctl := 0x29, stalled := false, idle := 0, eccCorr := 0, eccUnc := 0, eccAddr := 0, arbcfg := 0x06011141232,
    gateLog := 0, gateAddr := 0, cache := [], calls := [], starts := [], ptimer := 0 }

/-- A translation station (R307, R311, R315). -/
structure Station where
  pidtab : Word
  range : Sparse Word
  cache : List Leaf
  nextXid : BitVec 16
  invMode : BitVec 2
  invPid : BitVec 16
  invBusy : Bool
  invVa : Word
  /-- requests translated by a matching entry that the invalidation waits for, as packet numbers -/
  invWaits : List Nat
  deriving DecidableEq, Repr

def Station.reset : Station :=
  { pidtab := 0, range := [], cache := [], nextXid := 1, invMode := 0, invPid := 0, invBusy := false, invVa := 0, invWaits := [] }

/-- A watch at a home controller (R94, R160). -/
inductive WatchKind where
  /-- a waiting instruction elsewhere -/
  | wake (who : Ticket)
  /-- a `CWATCH` wake message -/
  | msg (tile : TileName) (q : QNum) (tag : BitVec 16)
  deriving DecidableEq, Repr

/-- A registered or waiting watch: home, counter, target; a ninth watch of a home is not active. -/
structure Watch where
  id : Nat
  home : Nat
  /-- memory key of the counter -/
  key : Nat
  addr : Word
  target : Word
  kind : WatchKind
  active : Bool
  /-- the window that its request passed through, as in a packet (R294, R297) -/
  windowed : Option Nat
  deriving DecidableEq, Repr

end Sys2Proof.Machine
end

