-- ==== Sys2Proof/Machine/HostState.lean ====
section
/-! DEFINITION. The state of the module outside the tiles: owner registers, gates, windows, key slots,
route tables (R289 to R297, R320), regions, scrub records, the office die with its mailboxes and host
queues (R346 to R358, R377 to R386), Euter ports (R359 to R364, R373 to R376), power (R395 to R398). -/

namespace Sys2Proof.Machine

/-! ## Bulkheads -/

/-- The states of a bulkhead (R289). -/
inductive BulkState where
  | unassigned | live | frozen | scrubbing
  deriving DecidableEq, Repr

/-- A bulkhead: OWNER, gate mode, windows, timer (R43, R289, R291, R292, R296). -/
structure Bulk where
  st : BulkState
  region : BitVec 6
  key : BitVec 7
  mutcode : Bool
  scrub : Bool
  epoch : BitVec 8
  /-- 0 CLOSED, 1 OPEN, 2 HOLD -/
  gate : BitVec 2
  /-- window dwords: gate g, entry i, dword w at 32·g + 4·i + w -/
  windows : Sparse Word
  timer : Word
  /-- the bulkhead does not run: its rail, clock or reset has failed (R300), or a trip holds it in reset (R398) -/
  failed : Bool
  /-- its rail, clock or reset has failed -/
  rail : Bool
  /-- the edge memory module or its station has failed, or is absent (R300, R355) -/
  memFailed : Bool
  /-- a unit of the retirement log or the fuses names the bulkhead (R356) -/
  retired : Bool
  deriving DecidableEq, Repr

def Bulk.reset : Bulk :=
  { st := .unassigned, region := 0, key := 0, mutcode := false, scrub := false, epoch := 0, gate := 0, windows := [],
    timer := 0, failed := false, rail := false, memFailed := false, retired := false }

/-- A key slot: LIVE for a region under a key that is known by its serial number, or FREE (R320). -/
structure KeySlot where
  token : Nat
  region : Nat
  deriving DecidableEq, Repr

/-- The seal of an edge line: the key it is sealed under, whether the MAC that its module stores is still the one of its
ciphertext, its minor counter (R316 to R318). -/
structure Seal where
  token : Nat
  ok : Bool
  minor : Nat
  deriving DecidableEq, Repr

/-- A value on a forwarding lane (R279). -/
structure Lane where
  src : TileName
  dst : TileName
  /-- direction the value travels: 0 N, 1 E, 2 S, 3 W -/
  dir : BitVec 2
  value : Word
  who : Ticket
  deriving DecidableEq, Repr

/-! ## Regions (R288, R348, R349, R335, R365) -/

/-- A confidential migration, at its source or at its destination (R365 to R367). -/
structure Mig where
  region : Nat
  id : List Byte
  /-- DEVICE of the other module -/
  device : List Byte
  source : Bool
  /-- 0 prepared, 1 accepted, 2 committed, 3 done, 4 aborted, 5 lost -/
  stage : Nat
  /-- SHA-512 of the manifest -/
  hash : List Byte
  /-- the manifest's bytes, whether they are complete, and at the destination the bytes received after them -/
  manifest : List Byte
  whole : Bool
  got : List Byte
  /-- at the destination, the key slots reserved for the keys that the manifest names, in its order (R365) -/
  slots : List Nat
  /-- the link port, 8·b + p -/
  port : Nat
  deriving DecidableEq, Repr

/-- A region (R288). -/
structure Region where
  bulks : List BulkId
  mutcode : Bool
  /-- the region owner's public key, against which consents are checked (R297, R380) -/
  pub : List Byte
  mImage : List Byte
  mCode : List Byte
  debugged : Bool
  /-- pre-empted and released: the id and the key slots are reserved (R335) -/
  released : Bool
  /-- registered watches and groups that the Dean saved (R335, R338) -/
  watches : List Watch
  groups : Sparse (List TileName)
  /-- packets that its drained routers still hold, whose flits the save images name (R336, R337), and the flits of them
  that no image names: those that senders hold back, and those in routers that stand at no tile, by buffer, at
  64·node + buffer -/
  saved : Sparse Packet
  behind : Sparse (List Flit)
  /-- code sections locked through Yelk: tile, first and last offset (R348) -/
  locks : List (TileName × Nat × Nat)
  /-- MAPGEN of the save images, and the tiles that have one (R337, R381) -/
  imageGen : BitVec 32
  images : List TileName
  /-- physical addresses of the pages of each tile's save image -/
  pages : Sparse (List Nat)
  /-- edge pages that a migration brought, by virtual and physical address (R365, R367) -/
  edge : List (Word × Nat)
  deriving DecidableEq, Repr

def Region.reset : Region :=
  { bulks := [], mutcode := false, pub := [], mImage := [], mCode := [], debugged := false, released := false,
    watches := [], groups := [], saved := [], behind := [], locks := [], imageGen := 0, images := [], pages := [], edge := [] }

/-- A scrub record (R384), with the progress of each bulkhead: 0 before its hall scratch is cleared,
then 1 + the next block site. -/
structure ScrubRec where
  blocks : BitVec 16
  total : BitVec 16
  phase : BitVec 4
  restarts : BitVec 4
  bulks : List BulkId
  prog : Sparse Nat
  /-- TIMER of each bulkhead at its latest milestone: the start of the pass, its hall, a block (R383) -/
  since : Sparse Word
  /-- the bulkhead whose reset has ended the pass (R385) -/
  broken : Option BulkId
  /-- TIMER of each bulkhead when step 3 ended (R403) -/
  doneAt : Sparse Word
  deriving DecidableEq, Repr

def ScrubRec.reset : ScrubRec :=
  { blocks := 0, total := 0, phase := 0, restarts := 0, bulks := [], prog := [], since := [], broken := none, doneAt := [] }

/-! ## The office die (R346 to R358, R390 to R396) -/

/-- What a mailbox's command still waits for (R379, R381). -/
inductive Job where
  | idle
  | teardown (r : Nat)
  | preempt (r : Nat) (resume : Bool) (stage : Nat)
  | restore (r : Nat) (stage : Nat)
  /-- requests that passed the removed window -/
  | withdraw (b : BulkId) (index : Nat) (passed : List Nat)
  | migrate (r : Nat)
  deriving DecidableEq, Repr

/-- The office die: firmware, ownership, retirement log, module power. -/
structure Office where
  recovery : Bool
  /-- step 8 of R355 is complete: the mailboxes are served -/
  open8 : Bool
  yelk : List Byte
  yelkSig : List Byte
  rootKey : List Byte
  rootHash : List Byte
  svn : Nat
  rollback : Nat
  dean : List Byte
  deanSig : List Byte
  /-- a replacement Dean with its signature, which the next module reset puts in force (R347) -/
  deanNext : Option (List Byte × List Byte)
  /-- M_YELK and M_DEAN, as recorded when each image was loaded (R346, R347) -/
  mYelk : List Byte
  mDean : List Byte
  /-- the certificate of the device key (R350) -/
  cert : List Byte
  device : List Byte
  gen : BitVec 32
  /-- masters whose commands wait to be served, in arrival order (R351) -/
  bells : List (BitVec 2)
  owner : Option (BitVec 2)
  /-- the successor that a RELEASE named: 0 to 3, or any (R353) -/
  successor : Option (BitVec 2)
  ownerKey : List Byte
  credentials : List (List Byte)
  /-- serial numbers of the masters' challenges (R352) -/
  challenges : Vector Nat 4
  /-- version words of the memory modules, by edge bulkhead, and of the two host interfaces (R358) -/
  memVersions : Sparse Word
  hostVersions : Vector Word 2
  /-- host interfaces whose negotiation failed, which stay down (R355, R358) -/
  hostFailed : BitVec 2
  /-- memory modules found absent at negotiation, by edge bulkhead (R355) -/
  absent : List BulkId
  fuses : List Word
  log : List (Word × Word)
  logFull : Bool
  /-- ECC words at which an uncorrectable error has been found since boot, and whether the error that stands there now
  is among those found (R393) -/
  eccSeen : Sparse Bool
  modcap : Nat
  modcapNext : Nat
  /-- the latest write to the I3C port was answered with a NACK (R397) -/
  nack : Bool
  /-- module sensors: power, inlet, outlet, flow, energy (R396) -/
  power : Nat
  inlet : BitVec 16
  outlet : BitVec 16
  flow : Nat
  energy : Word
  sample : BitVec 32
  record : List Byte
  deriving DecidableEq, Repr

/-- Bulkhead power and telemetry (R395, R397). -/
structure Power where
  cap : Nat
  capNext : Nat
  clkn : Nat
  run : Nat
  capfail : Bool
  tripped : Bool
  inreset : Bool
  /-- sensors: rail power, voltage, current, hottest and mean temperature, energy -/
  power : Nat
  vrail : BitVec 16
  irail : BitVec 16
  hot : BitVec 16
  avg : BitVec 16
  energy : Word
  record : List Byte
  deriving DecidableEq, Repr

def Power.reset : Power :=
  { cap := 325000, capNext := 325000, clkn := 64, run := 0, capfail := false, tripped := false, inreset := false,
    power := 0, vrail := 0, irail := 0, hot := 0, avg := 0, energy := 0, record := List.replicate 48 0 }

/-- A host queue's registers and its place in both rings (R354). -/
structure HostQueue where
  sqbase : Word
  sqsize : BitVec 4
  sqtail : BitVec 16
  sqhead : BitVec 16
  cqbase : Word
  cqhead : BitVec 16
  cqtail : BitVec 16
  phase : Bool
  /-- region the queue is assigned to; the Dean is 64; unassigned is 0 (R306) -/
  owner : Nat
  deriving DecidableEq, Repr

def HostQueue.reset : HostQueue :=
  { sqbase := 0, sqsize := 0, sqtail := 0, sqhead := 0, cqbase := 0, cqhead := 0, cqtail := 0, phase := false, owner := 0 }

/-! ## Euter ports (R359 to R364, R373 to R376) -/

/-- A link frame (R359). `tag` is true when the authentication tag is the sealed one. -/
structure Frame where
  type : BitVec 4
  ksel : Bool
  chan : Byte
  seq : BitVec 16
  inv : BitVec 32
  len : Nat
  payload : List Byte
  gen : BitVec 32
  tag : Bool
  deriving DecidableEq, Repr

/-- A payload of a channel with its valid bytes, and the mesh packet that it came from (R362, R363). -/
structure Outgoing where
  chan : Byte
  len : Nat
  payload : List Byte
  origin : Option Packet
  deriving DecidableEq, Repr

/-- A DATA or MARKER frame kept for replay (R362): its plaintext, and whether it was sent already. -/
structure Replay where
  seq : BitVec 16
  marker : Bool
  load : Outgoing
  sent : Bool
  deriving DecidableEq, Repr

/-- A Euter port. Keys are named by their generation numbers. -/
structure Port where
  st : BitVec 2
  /-- the agreement with the other module: its DEVICE, the shared secret, SALT (R359, R360) -/
  peer : List Byte
  secret : List Byte
  salt : BitVec 32
  /-- what this side has sent for the agreement: the serial number of its X25519 secret, its public key, and the signature
  of that under its device key (R360) -/
  offer : Option (Nat × List Byte × List Byte)
  /-- generation of the key that the far receiver has confirmed, and that NEXT does not hold yet (R360) -/
  confirmed : Option (BitVec 32)
  /-- generations of the receive direction's keys whose loading this side has confirmed to the far side, oldest first -/
  confirms : List (BitVec 32)
  /-- the other side's version word, and the negotiated major and features (R358) -/
  version : Option Word
  link : Option (Nat × Word)
  /-- the other module's attestation report and certificate (R350, R365) -/
  peerReport : List Byte
  peerCert : List Byte
  /-- the port has gone DOWN and has reported it to the Dean (R363) -/
  reported : Bool
  /-- transmit direction: ACTIVE slot, keys, counter -/
  active : Bool
  tx : Vector (Option (BitVec 32)) 2
  counter : BitVec 32
  /-- a key has been asked for (R361) -/
  asked : Bool
  naks : BitVec 16
  nakSeq : BitVec 16
  nakRun : Nat
  txSeq : BitVec 16
  /-- payloads that wait for a frame -/
  txq : List Outgoing
  replay : List Replay
  /-- receive direction: keys, next expected SEQ, delivered frames not acknowledged, their age -/
  rx : Vector (Option (BitVec 32)) 2
  rxSeq : BitVec 16
  unacked : Nat
  age : Nat
  /-- numbers that wait to be acknowledged, or wanted again, by a frame of their own -/
  ackDue : List (BitVec 16)
  nakDue : List (BitVec 16)
  /-- frames that have arrived, and frames sent in this frame time -/
  inbox : List Frame
  wire : List Frame
  /-- payloads that have come out of the mesh at the registrar (R362, R367) -/
  out : List (Byte × Nat × List Byte)
  /-- frame times since the direction last sent a frame -/
  quiet : Nat
  /-- LTEST, with the frames the run has sent and the SEQ of its last one -/
  run : Bool
  /-- ACKEACH, PATTERN and COUNT as the run took them at its start -/
  runEach : Bool
  runPattern : Byte
  runCount : BitVec 16
  done : Bool
  ackEach : Bool
  pattern : Byte
  count : BitVec 16
  sentTest : Nat
  lastTest : Option (BitVec 16)
  /-- LERRINJ -/
  injSeq : BitVec 16
  injArm : Bool
  /-- LRXSTAT -/
  delivered : BitVec 16
  badauth : BitVec 16
  outorder : BitVec 16
  dups : BitVec 8
  paterr : BitVec 8
  deriving DecidableEq, Repr

def Port.reset : Port :=
  { st := 0, peer := [], secret := [], salt := 0, offer := none, confirmed := none, confirms := [], version := none, link := none, peerReport := [],
    peerCert := [], reported := false, active := false, tx := Vector.replicate 2 none, counter := 0, asked := false, naks := 0, nakSeq := 0,
    nakRun := 0, txSeq := 0, txq := [], replay := [], rx := Vector.replicate 2 none, rxSeq := 0, unacked := 0, age := 0,
    ackDue := [], nakDue := [], inbox := [], wire := [], out := [], quiet := 0, run := false,
    runEach := false, runPattern := 0, runCount := 0, done := false, ackEach := false, pattern := 0, count := 0,
    sentTest := 0, lastTest := none, injSeq := 0,
    injArm := false, delivered := 0, badauth := 0, outorder := 0, dups := 0, paterr := 0 }

end Sys2Proof.Machine
end

