-- ==== Sys2Proof/Machine/State.lean ====
section
/-! DEFINITION. The state of the module, the reasons a step can stop, and the state after reset. -/

namespace Sys2Proof.Machine

/-- Why the machine stops. -/
inductive Fault where
  /-- The office die is in RECOVERY: no boot has completed and no agent of the wafer issues (R346, R355).
  Raised by `step`. Safe: nothing issues on the hardware either. -/
  | inRecovery
  deriving DecidableEq, Repr

/-- Why an instruction has no meaning here. -/
inductive Refusal where
  /-- The instruction's meaning is not written yet. Raised by an arm of `exec` only. Safe. -/
  | notModelled (mnemonic : String)
  deriving DecidableEq, Repr

/-- One turn of the schedule, which the outside of the model supplies: the clock, the network, the host,
the firmware, and the physical world. -/
inductive Turn where
  /-- time passes, in periods of a bulkhead clock at its nominal rate (R8, R43) -/
  | tick (n : Nat)
  /-- an event of the module -/
  | event (e : Instr)
  /-- a tile issues by its scheduler (R22) -/
  | issue (t : TileName)
  /-- a proctor core issues -/
  | core (b : BulkId) (c : BitVec 3)
  /-- a slot's issued wait is looked at, parked or not (R155) -/
  | poll (t : TileName) (k : BitVec 2)
  /-- an SRAM or edge-memory error appears at a memory key: correctable or uncorrectable (R139, R345) -/
  | eccError (key : Nat) (uncorrectable : Bool)
  /-- the MAC of an edge line is corrupted (R98) -/
  | macError (line : Nat)
  /-- a host master writes its mailbox or its own memory, at a memory key (R354, R377) -/
  | hostWrite (key : Nat) (bytes : List Byte)
  /-- a host master writes a register of a host queue, at its offset, other than SQTAIL (R354) -/
  | hostReg (q off : Nat) (v : Word)
  /-- the Dean assigns a host queue to a region, to itself (64) or to nobody (0) (R306) -/
  | assignQueue (q owner : Nat)
  /-- Yelk serves the command in a mailbox (R351, R377) -/
  | serve (m : BitVec 2)
  /-- the Dean has the registrar set the gates of a region (R292, R298, R343) -/
  | setGates (r : Nat) (mode : BitVec 2)
  /-- the loader locks a code section through Yelk (R125, R348) -/
  | lockCode (t : TileName) (off len : Nat)
  /-- the Dean hands Yelk the tenant image of a region (R348) -/
  | tenantImage (r : Nat) (bytes : List Byte)
  /-- the tenant image accepts the oldest `SYSCALL` request of an island (R40, R181) -/
  | acceptCall (b : BulkId)
  /-- a host writes a Yelk image with its signature and version number through the flash-update path (R346) -/
  | flashUpdate (yelk sig : List Byte) (svn : Nat)
  /-- a replacement Dean image with its signature is handed to Yelk (R347) -/
  | stageDean (image sig : List Byte)
  /-- a master fetches the certificate of the device key (R350) -/
  | fetchCert (m : BitVec 2)
  /-- the version word that a memory module, a host interface or the module at the other end of a link sends (R358) -/
  | memVersion (b : BulkId) (w : Word)
  | hostVersion (i : BitVec 1) (w : Word)
  | linkVersion (b : BulkId) (port : Nat) (w : Word)
  /-- the other registrar's DEVICE and X25519 public key arrive, signed with its device key (R360) -/
  | linkAgree (b : BulkId) (port : Nat) (device pub sig : List Byte)
  /-- the far receiver confirms that it holds a key (R360) -/
  | linkConfirm (b : BulkId) (port : Nat) (gen : BitVec 32)
  /-- the other module's attestation report and certificate arrive (R350, R365) -/
  | peerReport (b : BulkId) (port : Nat) (report cert : List Byte)
  /-- the registrar checks the copies of accepted migrations (R366) -/
  | checkCopies
  /-- the Dean asks for a port to train (R355) -/
  | trainPort (b : BulkId) (port : Nat)
  /-- a frame of the other module arrives at a port, or frame times pass (R359 to R362) -/
  | frame (b : BulkId) (port : Nat) (f : Frame)
  | frameTimes (b : BulkId) (port n : Nat)
  /-- sensors of a bulkhead and of the module read new values (R395, R396) -/
  | sense (b : BulkId) (power : Nat) (vrail irail hot avg : BitVec 16) (energy : Word)
  | senseModule (power : Nat) (inlet outlet : BitVec 16) (flow : Nat) (energy : Word)
  deriving DecidableEq, Repr

/-- Memory: a list of (key, byte) pairs. The key of an untranslated location is its address with tag
0x1, 0x2 or 0x3 (R72); that of edge and far memory is 2^64 plus its physical address (R308); those of
the mailboxes and of host memory start at 2^66 and 2^67 (R354, R377). -/
abbrev Memory := List Host.Cell

/-- The whole module. -/
structure State where
  /-- what happens next, oldest first; empty: the tile `focus` issues -/
  agenda : List Turn
  focus : TileName
  /-- the agent whose instruction executes, and that instruction's word -/
  cur : Agent
  iw : Word
  mem : Memory
  seals : Sparse Seal
  majors : Sparse Nat
  /-- 8-byte words that hold an SRAM error: true when uncorrectable (R139) -/
  ecc : Sparse Bool
  /-- name table: existing cores of block b of reticle r at 128·r + b; 16 when unlisted (R75) -/
  cores : Sparse Nat
  mapgen : BitVec 32
  tiles : Sparse Tile
  /-- bulkheads whose unlisted tiles stand as the boot scrub left them, and not as a tile reset does (R355, R383) -/
  blank : List BulkId
  islands : Sparse Island
  stations : Sparse Station
  bulks : Sparse Bulk
  domains : Sparse Domain
  packets : Sparse Packet
  routers : Sparse Router
  /-- route tables: first move from bulkhead a towards b at 80·a + b (R280, R290) -/
  routes : Sparse Nat
  /-- station assigned to a tile, and to an island at 2^20 + b (R290) -/
  stationOf : Sparse Nat
  lanes : Sparse Lane
  watches : List Watch
  /-- wires whose members have all arrived, with those members, until they release (R165, R275): `wireKey` -/
  wires : Sparse (List TileName)
  /-- group directory: members of group g of region r at 256·r + g (R35) -/
  groups : Sparse (List TileName)
  keys : Sparse KeySlot
  /-- the region's key list, KSEL 0 to 7, as slot numbers at 8·r + k (R307) -/
  ksel : Sparse Nat
  /-- regions by id, scrub records by region id, the office die -/
  regions : Sparse Region
  scrubs : Sparse ScrubRec
  /-- confidential migrations, oldest first (R365) -/
  migs : List Mig
  office : Office
  /-- what each master's mailbox command waits for -/
  jobs : Vector Job 4
  hostQueues : Sparse HostQueue
  /-- Euter ports at 8·b + p -/
  ports : Sparse Port
  power : Sparse Power
  /-- TIMER of a region's anchor at its progress events that the anchor has not yet seen, latest first (R341) -/
  progress : Sparse (List Word)
  /-- nominal bulkhead periods since power-on, from which TIMER and PTIMER advance (R8, R43, R305) -/
  time : Nat
  /-- next fresh number of an activation, request, packet, command, watch -/
  serial : Nat
  /-- next free value (`Config.freeWord`) -/
  free : Nat
  deriving DecidableEq, Repr

/-! ## After reset -/

/-- The office die at power-on (R346, R352, R355, R397): no owner, no credential, an empty log, the stored
map generation of a module that has never booted. -/
def Office.reset : Office :=
  { recovery := false, open8 := false, yelk := [], yelkSig := [], rootKey := [], rootHash := [], svn := 0, rollback := 0,
    dean := [], deanSig := [], deanNext := none, mYelk := [], mDean := [], cert := [], device := [], gen := 0,
    bells := [], owner := none, successor := none, ownerKey := [],
    credentials := [], challenges := Vector.replicate 4 0, memVersions := [], hostVersions := Vector.replicate 2 0,
    hostFailed := 0, absent := [], fuses := [], log := [], logFull := false,
    eccSeen := [], modcap := 30000000, modcapNext := 30000000, nack := false, power := 0, inlet := 0, outlet := 0, flow := 0,
    energy := 0, sample := 0, record := List.replicate 32 0 }

/-- The module right after power-on reset: every tile, island, station, bulkhead and port at its reset
values, memory with nothing listed, nothing scheduled. -/
def State.reset : State :=
  { agenda := [], focus := 0, cur := .slot 0 0, iw := 0, mem := [], seals := [], majors := [], ecc := [], cores := [],
    mapgen := 0, tiles := [], blank := [], islands := [], stations := [], bulks := [], domains := [], packets := [], routers := [],
    routes := [], stationOf := [], lanes := [], watches := [], wires := [], groups := [], keys := [], ksel := [], regions := [],
    scrubs := [], migs := [], office := Office.reset, jobs := Vector.replicate 4 .idle, hostQueues := [], ports := [], power := [],
    progress := [], time := 0, serial := 1, free := 0 }

end Sys2Proof.Machine
end

