-- ==== Sys2Proof/Machine/Routes.lean ====
section
/-! DEFINITION. Where things stand and how packets get there: sites, positions, routers, gateways, the route between
two routers, and the router at which a request enters a controller (R5, R6, R280, R290, R401). -/

namespace Sys2Proof.Machine

/-! ## Sites and positions (R4 to R6) -/

/-- Whether a block site holds tiles: not an island site (R5). -/
def isBlockSite (b : Nat) : Bool := b < 120 && !(b = 53 || b = 54 || b = 65 || b = 66)

/-- Position of a tile within its bulkhead (R6). -/
def tileX (t : TileName) : Nat := 4 * (t.blk % 12) + t.core % 4
def tileY (t : TileName) : Nat := 4 * (t.blk / 12) + t.core / 4

/-- Edge bulkheads lie in row 0, row 9, column 0 or column 7 (R4). -/
def isEdgeBulk (b : Nat) : Bool := b < 80 && (b / 8 = 0 || b / 8 = 9 || b % 8 = 0 || b % 8 = 7)

/-! ## Routers (R280, R401) -/

/-- The router at a logical position of a bulkhead. -/
def nodeAt (r x y : Nat) : Nat := r * 4096 + y * 48 + x

/-- The router of a tile. -/
def tileNode (t : TileName) : Nat := nodeAt t.ret (tileX t) (tileY t)

/-- Hops and turns of the XY route between two positions of one bulkhead (R280). -/
def xyCost (x y x' y' : Nat) : Nat :=
  (x - x') + (x' - x) + (y - y') + (y' - y) + (if x != x' && y != y' then 1 else 0)

/-- Router positions of a block site in row-major order. -/
def sitePositions (b : Nat) : List (Nat × Nat) :=
  (upFrom 0 16).map fun c => (4 * (b % 12) + c % 4, 4 * (b / 12) + c / 4)

/-- The island's router positions: sites 53, 54, 65 and 66 (R401). -/
def islandPositions : List (Nat × Nat) := sitePositions 53 ++ sitePositions 54 ++ sitePositions 65 ++ sitePositions 66

/-! ## Routes (R280, R290) -/

/-- The neighbouring bulkhead in a direction: 0 N, 1 E, 2 S, 3 W. -/
def bulkBeyond (b : BulkId) (dir : Nat) : Option BulkId :=
  match dir with
  | 0 => if b < 8 then none else some (b - 8)
  | 1 => if b % 8 = 7 then none else some (b + 1)
  | 2 => if 72 ≤ b then none else some (b + 8)
  | _ => if b % 8 = 0 then none else some (b - 1)

/-- The first move from one bulkhead towards another: as the route tables list it, or the first of east, west,
north and south that begins a shortest path on the full wafer. -/
def State.firstMove (s : State) (a b : BulkId) : Nat :=
  match s.routes.find? (80 * a + b) with
  | some d => d
  | none => if a % 8 < b % 8 then 1 else if b % 8 < a % 8 then 3 else if b / 8 < a / 8 then 0 else 2

/-- Gateway of an edge of a bulkhead, by block row or column. -/
def gatewayNode (b edge idx : Nat) : Nat := b * 4096 + 2048 + edge * 16 + idx
def isGateway (n : Nat) : Bool := 2048 ≤ n % 4096
def gatewayEdge (n : Nat) : Nat := (n % 4096 - 2048) / 16
def gatewayIdx (n : Nat) : Nat := (n % 4096 - 2048) % 16

/-- Position of a node along the axis that an edge's gateways are spread over. -/
def along (edge n : Nat) : Nat := if edge % 2 = 1 then n % 4096 / 48 else n % 4096 % 48

/-- Column and row of a router. -/
def positionOf (n : Nat) : Nat × Nat := (n % 4096 % 48, n % 4096 / 48)

/-- The output port of a router for a packet bound for a node (R280). At a gateway, port 0 crosses the seam and
ports 1 to 4 lead to the four routers of its block row or column. -/
def State.portFor (s : State) (node dst : Nat) : Nat :=
  if isGateway node then
    if node / 4096 = dst / 4096 then 1 + along (gatewayEdge node) dst % 4 else 0
  else if node / 4096 != dst / 4096 then s.firstMove (node / 4096) (dst / 4096)
  else
    let a := positionOf node
    let b := positionOf dst
    if a.1 < b.1 then 1 else if b.1 < a.1 then 3 else if b.2 < a.2 then 0 else if a.2 < b.2 then 2 else 4

/-- Where an output port leads: the next node and its input port; none at the local port (R280). A
gateway is joined to all four routers of its block row or column, and a packet enters by the one aligned with its
destination; a gateway's inputs are, in cyclic order, those four and then the seam: the model's choices (log entry 132). -/
def State.nextNode (s : State) (node port dst : Nat) : Option (Nat × Nat) :=
  let b := node / 4096
  if isGateway node then
    let e := gatewayEdge node
    let i := gatewayIdx node
    if port = 0 then
      match bulkBeyond b e with
      | none => none
      | some y =>
        if y = dst / 4096 then some (gatewayNode y ((e + 2) % 4) i, 4)
        else
          let d := s.firstMove y (dst / 4096)
          some (gatewayNode y d (if d = e then i else along d dst / 4), 4)
    else
      let j := 4 * i + (port - 1)
      some (match e with
        | 0 => (nodeAt b j 0, 0)
        | 1 => (nodeAt b 47 j, 1)
        | 2 => (nodeAt b j 39, 2)
        | _ => (nodeAt b 0 j, 3))
  else
    let p := positionOf node
    match port with
    | 0 => some (if p.2 = 0 then (gatewayNode b 0 (p.1 / 4), p.1 % 4) else (nodeAt b p.1 (p.2 - 1), 2))
    | 1 => some (if p.1 = 47 then (gatewayNode b 1 (p.2 / 4), p.2 % 4) else (nodeAt b (p.1 + 1) p.2, 3))
    | 2 => some (if p.2 = 39 then (gatewayNode b 2 (p.1 / 4), p.1 % 4) else (nodeAt b p.1 (p.2 + 1), 0))
    | 3 => some (if p.1 = 0 then (gatewayNode b 3 (p.2 / 4), p.2 % 4) else (nodeAt b (p.1 - 1) p.2, 1))
    | _ => none

/-! ## Controllers with several attachments (R401) -/

/-- The bulkhead edge and gateway by which a packet that leaves bulkhead `b` in direction `d` through gateway `i`
enters the bulkhead of its destination (R280). -/
def State.entryGate (s : State) (dst : Nat) : Nat → BulkId → Nat → Nat → Nat × Nat
  | 0, _, d, i => ((d + 2) % 4, i)
  | f + 1, b, d, i =>
    match bulkBeyond b d with
    | none => ((d + 2) % 4, i)
    | some y =>
      if y = dst / 4096 then ((d + 2) % 4, i)
      else
        let e := s.firstMove y (dst / 4096)
        State.entryGate s dst f y e (if e = d then i else along e dst / 4)

/-- The first router, within the bulkhead of its destination, of a packet between two routers (R280). -/
def State.entryPosition (s : State) (src dst : Nat) : Nat × Nat :=
  if src / 4096 = dst / 4096 then positionOf src
  else
    let d := s.firstMove (src / 4096) (dst / 4096)
    let g := s.entryGate dst 16 (src / 4096) d (along d src / 4)
    let j := 4 * g.2 + along g.1 dst % 4
    match g.1 with
    | 0 => (j, 0)
    | 1 => (47, j)
    | 2 => (j, 39)
    | _ => (0, j)

/-- Hops and turns of a packet within the bulkhead of its destination (R280, R401). -/
def State.entryCost (s : State) (src dst : Nat) : Nat :=
  let p := s.entryPosition src dst
  let q := positionOf dst
  xyCost p.1 p.2 q.1 q.2

/-- The first position of a list with the least cost. -/
def leastAt (cost : Nat × Nat → Nat) : List (Nat × Nat) → Nat × Nat → Nat × Nat
  | [], best => best
  | p :: rest, best => leastAt cost rest (if cost p < cost best then p else best)

/-- The attachment of an island's controllers at which a request from a router enters (R401). -/
def State.islandNode (s : State) (r src : Nat) : Nat :=
  let p := leastAt (fun q => s.entryCost src (nodeAt r q.1 q.2)) islandPositions (20, 16)
  nodeAt r p.1 p.2

/-- Positions of the cores 5, 6, 9 and 10 of a block site (R401). -/
def controllerPositions (b : Nat) : List (Nat × Nat) :=
  [5, 6, 9, 10].map fun c => (4 * (b % 12) + c % 4, 4 * (b / 12) + c / 4)

/-- The attachment of a block's controller at which a request from a router enters (R401). -/
def State.blockNode (s : State) (r b src : Nat) : Nat :=
  let p := leastAt (fun q => s.entryCost src (nodeAt r q.1 q.2)) (controllerPositions b) (4 * (b % 12) + 1, 4 * (b / 12) + 1)
  nodeAt r p.1 p.2

/-- Hops from a position to the edge of a bulkhead in a direction. -/
def exitHops (d : Nat) (p : Nat × Nat) : Nat :=
  match d with
  | 0 => p.2
  | 1 => 47 - p.1
  | 2 => 39 - p.2
  | _ => p.1

/-- The island position from which a station sends a request on to another bulkhead: the one nearest to the exit
gateway (R280). -/
def State.stationExit (s : State) (b y : BulkId) : Nat :=
  let p := leastAt (exitHops (s.firstMove b y)) islandPositions (20, 16)
  nodeAt b p.1 p.2

end Sys2Proof.Machine
end

