-- ==== Sys2Proof/Machine/Ops.lean ====
section
/-! DEFINITION. The named operations over the state: accessors, registers, the end of an instruction,
loops and jumps, packets, and taking a trap (R12, R22, R149, R150, R293, R322). -/

namespace Sys2Proof.Machine

/-! ## Accessors -/

/-- A tile; one that is not listed is as its last reset, or the boot scrub, left it. -/
def State.tile (s : State) (t : TileName) : Tile :=
  s.tiles.get (if s.blank.contains t.ret then Tile.blank else Tile.reset) t
def State.setTile (s : State) (t : TileName) (x : Tile) : State := { s with tiles := s.tiles.put t x }
def State.onTile (s : State) (t : TileName) (f : Tile → Tile) : State := s.setTile t (f (s.tile t))
def State.island (s : State) (b : BulkId) : Island := s.islands.get Island.reset b
def State.setIsland (s : State) (b : BulkId) (x : Island) : State := { s with islands := s.islands.put b x }
def State.onIsland (s : State) (b : BulkId) (f : Island → Island) : State := s.setIsland b (f (s.island b))
def State.station (s : State) (b : BulkId) : Station := s.stations.get Station.reset b
def State.setStation (s : State) (b : BulkId) (x : Station) : State := { s with stations := s.stations.put b x }
def State.onStation (s : State) (b : BulkId) (f : Station → Station) : State := s.setStation b (f (s.station b))
def State.bulk (s : State) (b : BulkId) : Bulk := s.bulks.get Bulk.reset b
def State.setBulk (s : State) (b : BulkId) (x : Bulk) : State := { s with bulks := s.bulks.put b x }
def State.onBulk (s : State) (b : BulkId) (f : Bulk → Bulk) : State := s.setBulk b (f (s.bulk b))
def State.port (s : State) (b : BulkId) (p : Nat) : Port := s.ports.get Port.reset (8 * b + p)
def State.onPort (s : State) (b : BulkId) (p : Nat) (f : Port → Port) : State :=
  { s with ports := s.ports.put (8 * b + p) (f (s.port b p)) }
def State.router (s : State) (n : Nat) : Router := s.routers.get Router.reset n
def State.setRouter (s : State) (n : Nat) (x : Router) : State := { s with routers := s.routers.put n x }

def State.powerOf (s : State) (b : BulkId) : Power := s.power.get Power.reset b
def State.onPower (s : State) (b : BulkId) (f : Power → Power) : State := { s with power := s.power.put b (f (s.powerOf b)) }

def Tile.slot (x : Tile) (k : BitVec 2) : Slot := x.slots[k.toNat]'k.isLt
def Tile.setSlot (x : Tile) (k : BitVec 2) (v : Slot) : Tile := { x with slots := x.slots.set k.toNat v k.isLt }
def Tile.onSlot (x : Tile) (k : BitVec 2) (f : Slot → Slot) : Tile := x.setSlot k (f (x.slot k))
def State.slot (s : State) (t : TileName) (k : BitVec 2) : Slot := (s.tile t).slot k
def State.onSlot (s : State) (t : TileName) (k : BitVec 2) (f : Slot → Slot) : State := s.onTile t (·.onSlot k f)
def Tile.queue (x : Tile) (q : QNum) : Queue := x.queues[q.toNat]'q.isLt
def Tile.setQueue (x : Tile) (q : QNum) (v : Queue) : Tile := { x with queues := x.queues.set q.toNat v q.isLt }
def Island.core (x : Island) (c : BitVec 3) : PCore := x.cores[c.toNat]'c.isLt
def Island.setCore (x : Island) (c : BitVec 3) (v : PCore) : Island := { x with cores := x.cores.set c.toNat v c.isLt }
def State.core (s : State) (b : BulkId) (c : BitVec 3) : PCore := (s.island b).core c
def State.onCore (s : State) (b : BulkId) (c : BitVec 3) (f : PCore → PCore) : State :=
  s.onIsland b fun x => x.setCore c (f (x.core c))

/-- The four slots of a tile, in order. -/
def allSlots : List (BitVec 2) := [0, 1, 2, 3]

/-- The context of an agent. -/
def State.ctxOf (s : State) : Agent → Ctx
  | .slot t k => (s.slot t k).ctx
  | .core b c => (s.core b c).ctx

/-- The state with an agent's context replaced. -/
def State.setCtxOf (s : State) (ag : Agent) (c : Ctx) : State :=
  match ag with
  | .slot t k => s.onSlot t k fun x => { x with ctx := c }
  | .core b n => s.onCore b n fun x => { x with ctx := c }

/-- The context of the agent whose instruction executes. -/
def State.ctx (s : State) : Ctx := s.ctxOf s.cur
def State.setCtx (s : State) (c : Ctx) : State := s.setCtxOf s.cur c

/-- Runs `f` on the context of the executing agent. -/
def State.onCtx (s : State) (f : Ctx → Ctx) : State := s.setCtx (f s.ctx)

/-! ## Registers (R12, R17, R117) -/

/-- Reads a register; `s0` reads 0. -/
def Ctx.get (c : Ctx) (r : Reg) : Word := if r = 0 then 0 else c.regs[r.toNat]'r.isLt

/-- Writes a register; a write to `s0` is discarded. -/
def Ctx.set (c : Ctx) (r : Reg) (v : Word) : Ctx :=
  if r = 0 then c else { c with regs := c.regs.set r.toNat v r.isLt }

def Ctx.eget (c : Ctx) (k : EReg) : Word := c.eregs[k.toNat]'k.isLt
def Ctx.eset (c : Ctx) (k : EReg) (v : Word) : Ctx := { c with eregs := c.eregs.set k.toNat v k.isLt }

def State.rd (s : State) (r : Reg) : Word := s.ctx.get r
def State.wr (s : State) (r : Reg) (v : Word) : State := s.setCtx (s.ctx.set r v)
def State.erd (s : State) (k : EReg) : Word := s.ctx.eget k
def State.pc (s : State) : Word := s.ctx.pc

/-! ## Loop levels (R148 to R151, R305) -/

def loopValid (w : Word) : Bool := bit w 31
def loopCount (w : Word) : Nat := field w 32 32

/-- Start address of a level: 2·START, with a core's upper bits above (R151, R305). -/
def loopStart (w high : Word) : Word := BitVec.ofNat 64 (high.toNat / 2 ^ 18 * 2 ^ 18 + 2 * field w 0 17)

/-- Address of a level's end instruction: start − 4 + 2·LEN (R151). -/
def loopEnd (w high : Word) : Word := loopStart w high - 4 + BitVec.ofNat 64 (2 * field w 17 12)

/-- A loop word as it is kept: its reserved bits [30:29] read 0 (R11, R151). -/
def loopKept (w : Word) : Word := w &&& 0xFFFFFFFF9FFFFFFF#64

/-- A loop word with its count lowered by 1. -/
def loopDec (w : Word) : Word := w - place 32 1

/-- A loop word (R151): start offset, len12, count. -/
def loopWord (start : Word) (len count : Nat) : Word :=
  BitVec.ofNat 64 (field start 1 17 + len * 2 ^ 17 + 2 ^ 31 + count * 2 ^ 32)

/-- The end action of R149 on the outer level, for an instruction at `x` that is followed by `next`. -/
def Ctx.endOuter (c : Ctx) (x next : Word) : Ctx :=
  if !loopValid c.loop0 || x != loopEnd c.loop0 c.loopH0 then { c with pc := next }
  else if loopCount c.loop0 != 1 then
    { c with pc := loopStart c.loop0 c.loopH0, loop0 := loopDec c.loop0 }
  else { c with pc := next, loop0 := 0, loopH0 := 0 }

/-- The end action of R149: the innermost level first, the outer one only when the inner is popped. -/
def Ctx.endAction (c : Ctx) (x next : Word) : Ctx :=
  if !loopValid c.loop1 then c.endOuter x next
  else if x != loopEnd c.loop1 c.loopH1 then { c with pc := next }
  else if loopCount c.loop1 != 1 then
    { c with pc := loopStart c.loop1 c.loopH1, loop1 := loopDec c.loop1 }
  else { c with loop1 := 0, loopH1 := 0 }.endOuter x next

/-- The address after an instruction whose end action was made before a restore (R155, R338). -/
def Ctx.afterEnd (c : Ctx) (x next : Word) : Word :=
  if loopValid c.loop1 then (if x = loopEnd c.loop1 c.loopH1 then loopStart c.loop1 c.loopH1 else next)
  else if loopValid c.loop0 then (if x = loopEnd c.loop0 c.loopH0 then loopStart c.loop0 c.loopH0 else next)
  else next

/-- The context after an instruction of `len` bytes that is no taken branch has issued (R101, R149). -/
def Ctx.advance (c : Ctx) (len : Nat) : Ctx :=
  let next := c.pc + BitVec.ofNat 64 len
  if c.noEnd then { c with pc := c.afterEnd c.pc next, noEnd := false } else c.endAction c.pc next

/-- Bytes of the executing instruction, from its word's low bits (R101). -/
def State.len (s : State) : Nat := if field s.iw 0 2 = 3 then 4 else 2

/-- The instruction completes: the program counter passes it (R101, R149). -/
def State.retire (s : State) : State := s.onCtx (·.advance s.len)

/-- Whether an active level's range holds `x` but not `target` (R150). -/
def levelLeft (w high x target : Word) : Bool :=
  loopValid w && ((loopStart w high).toNat ≤ x.toNat && x.toNat ≤ (loopEnd w high).toNat)
    && !((loopStart w high).toNat ≤ target.toNat && target.toNat ≤ (loopEnd w high).toNat)

/-- Pops the levels that a taken branch leaves; the level that remains alone is held in LOOP0 (R150, R151). -/
def Ctx.popLeft (c : Ctx) (target : Word) : Ctx :=
  let out0 := levelLeft c.loop0 c.loopH0 c.pc target
  let out1 := levelLeft c.loop1 c.loopH1 c.pc target
  let c := if out1 then { c with loop1 := 0, loopH1 := 0 } else c
  if out0 then { c with loop0 := c.loop1, loopH0 := c.loopH1, loop1 := 0, loopH1 := 0 } else c

/-- A taken `BRANCH`, `B` or `J` (R145, R146, R150). -/
def Ctx.branchTo (c : Ctx) (target : Word) : Ctx :=
  { c.popLeft (target &&& ~~~1#64) with pc := target &&& ~~~1#64, noEnd := false }

/-- `CALL` and `JAL`: no level is popped (R150). -/
def Ctx.callTo (c : Ctx) (target : Word) : Ctx := { c with pc := target &&& ~~~1#64, noEnd := false }

/-! ## Waiting (R21, R155) -/

/-- Marks the executing slot WAITING on something. -/
def State.waitOn (s : State) (w : Wait) : State :=
  match s.cur with
  | .slot t k => s.onSlot t k fun x =>
      { x with state := if x.state = .ready then .waiting else x.state, ctx := { x.ctx with wait := w } }
  | .core b c => s.onCore b c fun x => { x with ctx := { x.ctx with wait := w } }

/-- The instruction does not issue now; it is tried again. -/
def State.retry (s : State) : State := s.waitOn .retry

/-- The bulkhead an agent stands in. -/
def agentBulk : Agent → BulkId
  | .slot t _ => t.ret
  | .core b _ => b

/-- The TIMER when the executing instruction issued: now, or earlier when it is looked at again (R158). -/
def State.issueTime (s : State) : Word := s.ctx.issuedAt.getD (s.bulk (agentBulk s.cur)).timer

/-- What an end action can change of a context. -/
def Ctx.loops (c : Ctx) : Loops :=
  { loop0 := c.loop0, loop1 := c.loop1, loopH0 := c.loopH0, loopH1 := c.loopH1, noEnd := c.noEnd }

/-- A context with the loop words that stood before an end action. -/
def Ctx.withLoops (c : Ctx) (l : Loops) : Ctx :=
  { c with loop0 := l.loop0, loop1 := l.loop1, loopH0 := l.loopH0, loopH1 := l.loopH1, noEnd := l.noEnd }

/-- The context of an issued instruction that traps after all: it stands at the instruction as before the end action,
so that the instruction issues again when it is resumed (R47, R149). -/
def Ctx.unissued (c : Ctx) : Ctx := { c.withLoops c.before with pc := c.ipc }

/-- The instruction has issued and waits: its end action is made now (R149, R155). -/
def State.issueAndWait (s : State) (w : Wait) : State :=
  let pc := s.pc
  let at' := s.issueTime
  ((s.onCtx fun c => { c.advance s.len with ipc := pc, issuedAt := some at', before := c.loops }).waitOn w)

/-- The wait of an agent ends; a slot that is not parked becomes READY (R155). -/
def State.wakeUp (s : State) (ag : Agent) : State :=
  match ag with
  | .slot t k => s.onSlot t k fun x =>
      { x with state := if x.state = .waiting then .ready else x.state, ctx := { x.ctx with wait := .none } }
  | .core b c => s.onCore b c fun x => { x with ctx := { x.ctx with wait := .none } }

/-! ## Names (R4 to R7, R75) -/

/-- Existing cores of a block (R7, R75). -/
def State.coresIn (s : State) (r b : Nat) : Nat := if r < 80 && isBlockSite b then s.cores.get 16 (128 * r + b) else 0

/-- Whether a name denotes a tile (R7). -/
def State.tileExists (s : State) (t : TileName) : Bool := t.core < s.coresIn t.ret t.blk && bit (BitVec.ofNat 19 t) 11 == false

/-- The bulkheads of a region. -/
def State.bulksOf (s : State) (r : Nat) : List BulkId := (upFrom 0 80).filter fun b => (s.bulk b).region.toNat = r

/-- Every tile of a region, listed in the state or not (R7). -/
def State.everyTile (s : State) (r : Nat) : List TileName :=
  (s.bulksOf r).flatMap fun b => (upFrom 0 120).flatMap fun k => (upFrom 0 (s.coresIn b k)).map fun c => TileName.mk b k c

/-- `TILE_ID` of a tile (R42). -/
def tileId (t : TileName) : Word := BitVec.ofNat 64 (2 ^ 60 + t * 2 ^ 24)

/-- The tile name at a position of a bulkhead (R6). -/
def tileAt (r x y : Nat) : TileName := TileName.mk r (12 * (y / 4) + x / 4) (4 * (y % 4) + x % 4)

/-- The neighbouring position on the wafer: 0 N, 1 E, 2 S, 3 W; none beyond the wafer's edge (R6, R169). -/
def neighbour (t : TileName) (dir : BitVec 2) : Option TileName :=
  let gx := 48 * (t.ret % 8) + tileX t
  let gy := 40 * (t.ret / 8) + tileY t
  let at' (x y : Nat) : TileName := tileAt (8 * (y / 40) + x / 48) (x % 48) (y % 40)
  match dir.toNat with
  | 0 => if gy = 0 then none else some (at' gx (gy - 1))
  | 1 => if gx = 383 then none else some (at' (gx + 1) gy)
  | 2 => if gy = 399 then none else some (at' gx (gy + 1))
  | _ => if gx = 0 then none else some (at' (gx - 1) gy)

/-- The opposite direction. -/
def opposite (dir : BitVec 2) : BitVec 2 := dir + 2

/-! ## The home tile of an agent (R39) -/

/-- The tile whose scratch tag 0x0 names: the slot's tile, or the home tile of a migrated activation. -/
def State.homeTile (s : State) : Option TileName :=
  match s.cur with
  | .slot t _ => some t
  | .core b c => if (s.core b c).h then none else (s.core b c).home.map (·.1)

/-- The slot whose share and registers the agent's activation has (R39). -/
def State.homeSlot (s : State) : Option (TileName × BitVec 2) :=
  match s.cur with
  | .slot t k => some (t, k)
  | .core b c => if (s.core b c).h then none else (s.core b c).home.map fun h => (h.1, h.2.1)

/-- Whether the executing agent is a core at level H. -/
def State.atH (s : State) : Bool :=
  match s.cur with
  | .slot _ _ => false
  | .core b c => (s.core b c).h

/-- Whether the executing agent is a proctor core. -/
def State.onCoreNow (s : State) : Bool :=
  match s.cur with
  | .slot _ _ => false
  | .core _ _ => true

/-! ## Nodes and packets (R280, R293, R401) -/

/-- The stamp of a packet from a node of a bulkhead (R293). -/
def State.stampOf (s : State) (b : BulkId) (h : Bool) : Nat := if h then 63 else (s.bulk b).region.toNat

/-- The flits of a packet. -/
def flitsOf (p n : Nat) : List Flit := (upFrom 0 n).map fun i => { pkt := p, idx := i, last := i + 1 == n }

/-- Moves flits that a sender holds into a buffer of four (R281). -/
def InBuf.fill (b : InBuf) : InBuf :=
  { b with flits := b.flits ++ b.behind.take (4 - b.flits.length), behind := b.behind.drop (4 - b.flits.length) }

/-- Hands the flits of a packet to the local input of its source's router on its virtual channel: the buffer takes
four, and the sender holds the rest (R281). -/
def State.enqueueFlits (s : State) (node vc p n : Nat) : State :=
  let r := s.router node
  let b := r.ins.get InBuf.empty (32 + vc)
  s.setRouter node { r with ins := r.ins.put (32 + vc) { b with behind := b.behind ++ flitsOf p n }.fill }

/-- Injects a packet (R277, R278, R293). -/
def State.inject (s : State) (src dst vc flits : Nat) (stamp : Nat) (marked : Bool) (body : Body) : State :=
  let p := s.serial
  let pk : Packet :=
    { vc := vc, stamp := stamp, src := src, dst := dst, marked := marked, windowed := none, flits := flits, got := 0, order := 0,
      entry := none, body := body, place := .moving, retried := false, ranges := none, span := none }
  { s with serial := p + 1, packets := s.packets.put p pk }.enqueueFlits src vc p flits

/-- The node at which an agent's packets enter the network. -/
def agentNode : Agent → Nat
  | .slot t _ => tileNode t
  | .core b _ => nodeAt b 20 16

/-- A fresh number. -/
def State.bump (s : State) : State := { s with serial := s.serial + 1 }

/-! ## Taking a trap (R46, R45, R322 to R324, R329, R302) -/

/-- Sends a trap record to its island (R322). -/
def State.sendRecord (s : State) (src : Nat) (r : TrapRec) : State :=
  s.inject src (s.islandNode r.island src) 5 2 (s.stampOf (src / 4096) false) false (.trapRec r)

/-- The record of a slot's trap. -/
def slotRecord (t : TileName) (k : BitVec 2) (cause : BitVec 8) (epc eval : Word) (precise : Bool) : TrapRec :=
  { island := t.ret, tile := tileId t, epc := epc, eval := eval, cause := cause, slot := k, noSlot := false,
    precise := precise, late := false, step := false, away := false, xreason := 0, xid := 0, station := 0 }

/-- A slot parks: a slot that holds an activation becomes PARKED and keeps its wait (R45, R155). -/
def Slot.park (x : Slot) : Slot :=
  match x.state with
  | .ready => { x with state := .parked }
  | .waiting => { x with state := .parked,
                         ctx := { x.ctx with wait := if x.ctx.wait = .retry then .none else x.ctx.wait } }
  | _ => x

/-- The trapping slot parks with its trap registers set (R46). -/
def Slot.trapPark (x : Slot) (cause : BitVec 8) (epc eval : Word) : Slot :=
  { x.park with cause := cause, epc := epc, eval := eval }

/-- The slots of a tile after a trap of slot `k`: the slot alone, or every slot under PARKALL (R45). -/
def Tile.trapSlots (x : Tile) (k : BitVec 2) (cause : BitVec 8) (epc eval : Word) : Tile :=
  let x := if bit x.trapctl 0 then allSlots.foldl (fun y j => if j = k then y else y.onSlot j Slot.park) x else x
  let x := x.onSlot k (·.trapPark cause epc eval)
  if x.dbgActive && x.dbgOf = k then
    { x with dbgCount := 0, dbgActive := false, dbgFirst := false, dbgOwed := false } else x

/-- A trap taken by a slot of a tile, precise or not: the slot parks and a record leaves; a slot that is
PARKED already sends a LATE record and keeps its registers (R322, R324). -/
def State.slotTrap (s : State) (t : TileName) (k : BitVec 2) (r : TrapRec) : State :=
  if (s.slot t k).state = .parked then s.sendRecord (tileNode t) { r with late := true }
  else (s.onTile t (·.trapSlots k r.cause r.epc r.eval)).sendRecord (tileNode t) r

/-- Entry to level H on a core: PCAUSE, PEPC, PEVAL and PSAVED are written and the core goes to HVENTRY
(R302, R305). -/
def PCore.enterH (x : PCore) (cause : BitVec 8) (epc eval : Word) : PCore :=
  { x with pcause := cause, pepc := epc, peval := eval,
           psaved := BitVec.ofNat 2 (num x.h + 2 * num x.ien), h := true, ien := false,
           ctx := { x.ctx with pc := x.hventry &&& ~~~1#64, wait := .none, issuedAt := none, noEnd := false } }

/-- The record of a migrated activation's trap: it names the home slot, has AWAY set, and goes to the core's own
island (R39, R322, R323). -/
def TrapRec.ofAway (r : TrapRec) (b : BulkId) (t : TileName) (k : BitVec 2) : TrapRec :=
  { r with island := b, tile := tileId t, slot := k, away := true }

/-- A trap taken on a proctor core (R302). A migrated activation's trap also sends a record, and the home slot's
trap registers are set (R39, R322, R323). -/
def State.coreTrap (s : State) (b : BulkId) (c : BitVec 3) (r : TrapRec) : State :=
  let x := s.core b c
  let s := match (if x.h then none else x.home) with
    | none => s
    | some (t, k, _) =>
      (s.onSlot t k fun y => { y with cause := r.cause, epc := r.epc, eval := r.eval }).sendRecord (nodeAt b 20 16)
        (r.ofAway b t k)
  s.onCore b c (·.enterH r.cause r.epc r.eval)

/-- A failure of an earlier access on a proctor core: of proctor code, or of the migrated activation with number
`act`. A core that a fetch trap halted takes none; an activation whose core stands at level H already has trapped,
and sends a LATE record only (R302, R324). -/
def State.coreLate (s : State) (b : BulkId) (c : BitVec 3) (act : Nat) (r : TrapRec) : State :=
  let x := s.core b c
  if !x.running then s
  else if act = 0 then s.onCore b c (·.enterH r.cause r.epc r.eval)
  else if x.h then
    match x.home with
    | none => s
    | some (t, k, _) => s.sendRecord (nodeAt b 20 16) { r.ofAway b t k with late := true }
  else s.coreTrap b c r

/-- A precise trap of the executing instruction: no effect but the trap (R47, R329). -/
def State.trap (s : State) (cause : Cause) (eval : Word) : State :=
  match s.cur with
  | .slot t k => s.slotTrap t k (slotRecord t k cause.code s.pc eval true)
  | .core b c => s.coreTrap b c (slotRecord 0 0 cause.code s.pc eval true)

/-- A failure of an earlier instruction on an agent whose activation, with number `act`, still holds it (R47): `more`
completes the record. -/
def State.lateFailure (s : State) (ag : Agent) (act : Nat) (cause : Cause) (epc eval : Word)
    (more : TrapRec → TrapRec) : State :=
  match ag with
  | .slot t k => s.slotTrap t k (more (slotRecord t k cause.code epc eval false))
  | .core b c => s.coreLate b c act (more (slotRecord 0 0 cause.code epc eval false))

/-- A trap of an earlier instruction of a slot, at `epc` (R47). -/
def State.lateTrap (s : State) (t : TileName) (k : BitVec 2) (cause : Cause) (epc eval : Word) : State :=
  s.lateFailure (.slot t k) 0 cause epc eval id

/-- A record that names no slot (R230, R238, R239, R267). -/
def State.noSlotRecord (s : State) (t : TileName) (cause : Cause) (epc eval : Word) : State :=
  s.sendRecord (tileNode t) { slotRecord t 0 cause.code epc eval false with noSlot := true }

/-! ## Release points (R99) and held gates (R292) -/

/-- The check of a release point: it waits, as `hold` has it, while a check result is outstanding, takes `INTEGRITY`
while a failure is pending, and otherwise lets the instruction act (R99). -/
def State.releasePoint (s : State) (hold act : State) : State :=
  match s.homeTile with
  | none => act
  | some t =>
    if (s.tile t).outst != 0 then hold
    else if (s.tile t).fails != 0 then s.trap .integrity (zext (s.tile t).fails)
    else act

/-- Whether the gates of the executing agent's bulkhead are at HOLD, so that its tiles start nothing new
on the network (R292). -/
def State.gatesHeld (s : State) : Bool :=
  match s.cur with
  | .slot t _ => (s.bulk t.ret).gate = 2
  | .core _ _ => false

end Sys2Proof.Machine
end

