-- ==== Sys2Proof/Machine/Memory.lean ====
section
/-! DEFINITION. Memory: its canonical form, reads and writes, the address map and its checks, edge
memory under seals, and translation (R72 to R74, R92, R308 to R321, R400). -/

namespace Sys2Proof.Machine

/-! ## Bytes -/

/-- What an unlisted byte reads as: every scratch is scrubbed to 0 before it is first used (R355, R383). -/
def Memory.blank : Byte := 0

/-- The byte at a key. -/
def Memory.read : Memory → Nat → Byte
  | [], _ => Memory.blank
  | (k', v) :: rest, k => if k' = k then v else Memory.read rest k

/-- Writes a byte and keeps the canonical form: keys rise, and no listed byte is blank. -/
def Memory.write : Memory → Nat → Byte → Memory
  | [], k, v => if v = Memory.blank then [] else [(k, v)]
  | (k', v') :: rest, k, v =>
    if k < k' then (if v = Memory.blank then (k', v') :: rest else (k, v) :: (k', v') :: rest)
    else if k = k' then (if v = Memory.blank then rest else (k, v) :: rest)
    else (k', v') :: Memory.write rest k v

/-- The canonical form: keys strictly rise and no listed byte is blank. -/
def Memory.wf : Memory → Bool
  | [] => true
  | [(_, v)] => v != Memory.blank
  | (k, v) :: (k', v') :: rest => v != Memory.blank && k < k' && Memory.wf ((k', v') :: rest)

/-- The n bytes from a key upward. -/
def Memory.readN (m : Memory) (k : Nat) : Nat → List Byte
  | 0 => []
  | n + 1 => m.read k :: Memory.readN m (k + 1) n

/-- Writes bytes at offsets from a key. -/
def Memory.writeAt (m : Memory) (k : Nat) : List (Nat × Byte) → Memory
  | [] => m
  | (o, v) :: rest => Memory.writeAt (m.write (k + o) v) k rest

/-- Writes consecutive bytes. -/
def Memory.writeN (m : Memory) (k : Nat) (bs : List Byte) : Memory := m.writeAt k (indexed bs)

/-- The 64-bit word at a key (R10). -/
def Memory.word (m : Memory) (k : Nat) : Word := wordOf (m.readN k 8)

/-- Writes a 64-bit word. -/
def Memory.setWord (m : Memory) (k : Nat) (v : Word) : Memory := m.writeN k (bytesOf v)

/-- The memory with every byte of a range of keys blank. -/
def Memory.clear (m : Memory) (lo hi : Nat) : Memory := m.filter fun c => c.1 < lo || hi ≤ c.1

/-! ## Locations (R72, R73) -/

/-- Where an address leads, for an access of a number of bytes. -/
inductive Loc where
  /-- scratch of a tile: offset -/
  | scratch (t : TileName) (off : Nat)
  /-- tile state space: offset (R74) -/
  | state (t : TileName) (off : Nat)
  | block (r b : Nat) (off : Nat)
  | hall (r : Nat) (off : Nat)
  | translated
  /-- takes `NONAME` (R73) -/
  | bad
  deriving DecidableEq, Repr

/-- Keys of the memory of each space. -/
def scratchKey (t : TileName) (off : Nat) : Nat := 2 ^ 60 + t * 2 ^ 24 + off
def blockKey (r b off : Nat) : Nat := 2 * 2 ^ 60 + (r * 4096 + b * 16) * 2 ^ 24 + off
def hallKey (r off : Nat) : Nat := 3 * 2 ^ 60 + r * 2 ^ 36 + off
def physKey (pa : Nat) : Nat := 2 ^ 64 + pa

/-- Memory key of a line of an island's cache, for errors in the cache's own words (R302, R393). -/
def islandKey (b : BulkId) (line : Nat) : Nat := 2 ^ 68 + 2 ^ 58 * b + 64 * line

/-- The location of an access of `n` bytes at an untranslated or translated address; tag 0x0 names the
scratch of `own` (R72, R73, R39, R303). -/
def State.locate (s : State) (own : Option TileName) (a : Word) (n : Nat) : Loc :=
  let tag := field a 60 4
  if 8 ≤ tag then .translated
  else match tag with
  | 0 =>
    match own with
    | some t => if field a 0 60 + n ≤ 0x28000 then .scratch t (field a 0 60) else .bad
    | none => .bad
  | 1 =>
    let t := field a 24 19
    let off := field a 0 24
    if field a 43 17 != 0 || bit a 35 || !s.tileExists t then .bad
    else if off + n ≤ 0x28000 then .scratch t off
    else if 0x800000 ≤ off && off + n ≤ 0x1000000 then .state t off
    else .bad
  | 2 =>
    let r := field a 36 7
    let b := field a 28 7
    let off := field a 0 20
    if field a 43 17 != 0 || bit a 35 || field a 20 8 != 0 || s.coresIn r b = 0 || 0x100000 < off + n then .bad
    else .block r b off
  | 3 =>
    let r := field a 36 7
    let off := field a 0 26
    if field a 43 17 != 0 || field a 26 10 != 0 || 80 ≤ r || 0x3000000 < off + n then .bad
    else .hall r off
  | _ => .bad

/-- The location for the executing agent. -/
def State.loc (s : State) (a : Word) (n : Nat) : Loc := s.locate s.homeTile a n

/-- The memory key of a scratch location. -/
def Loc.key : Loc → Nat
  | .scratch t off => scratchKey t off
  | .block r b off => blockKey r b off
  | .hall r off => hallKey r off
  | .state t off => scratchKey t off
  | _ => 0

/-- The home controller of a location, as a number (R78). -/
def Loc.home : Loc → Nat
  | .scratch t _ => t
  | .state t _ => t
  | .block r b _ => 2 ^ 20 + 128 * r + b
  | .hall r _ => 2 ^ 21 + r
  | _ => 0

/-- Whether an offset range of a tile meets its locked code, and the context is not mutable (R137). -/
def State.codeLocked (s : State) (t : TileName) (off n : Nat) : Bool :=
  !(s.bulk t.ret).mutcode && (s.tile t).code.any fun c => c.1 < off + n && off ≤ c.2

/-! ## ECC (R139) -/

/-- Whether an uncorrectable error lies in the 8-byte words of a range of keys. -/
def State.eccBad (s : State) (key n : Nat) : Bool :=
  s.ecc.any fun e => e.2 && key / 8 ≤ e.1 && e.1 ≤ (key + n - 1) / 8

/-- Clears the errors of the whole words that a store replaces (R139). -/
def State.eccClear (s : State) (key n : Nat) : State :=
  { s with ecc := s.ecc.filter fun e => !(key ≤ 8 * e.1 && 8 * e.1 + 8 ≤ key + n) }

/-! ## Errors found (R325, R345, R392, R393) -/

/-- Where an ECC word lies. -/
inductive EccSite where
  | tile (t : TileName)
  | block (b : BulkId) (k : Nat)
  | hall (b : BulkId)
  /-- the cache of a bulkhead's island -/
  | island (b : BulkId)
  /-- edge or far memory -/
  | other
  deriving DecidableEq, Repr

/-- The site of a memory key (R72, R326). -/
def eccSite (key : Nat) : EccSite :=
  if 2 ^ 68 ≤ key then .island ((key - 2 ^ 68) / 2 ^ 58)
  else match key / 2 ^ 60 with
  | 1 => .tile (key / 2 ^ 24 % 2 ^ 19)
  | 2 => .block (key / 2 ^ 36 % 2 ^ 7) (key / 2 ^ 28 % 2 ^ 7)
  | 3 => .hall (key / 2 ^ 36 % 2 ^ 7)
  | _ => .other

/-- The bulkhead whose ECCLOG counts an error. -/
def EccSite.bulk : EccSite → Option BulkId
  | .tile t => some t.ret
  | .block b _ => some b
  | .hall b => some b
  | .island b => some b
  | .other => none

/-- The address that ECCADDR shows of an error; that of an error in an island's cache is the physical address of the line
(DESIGN CHOICE, log entry 130). -/
def eccAddress (key : Nat) : Word := BitVec.ofNat 64 (if 2 ^ 68 ≤ key then (key - 2 ^ 68) % 2 ^ 58 else key)

/-- Dword 0 of a retirement-log entry (R392). -/
def retireWord (kind source b blk core : Nat) : Word :=
  BitVec.ofNat 64 (kind + source * 4 + b * 2 ^ 8 + blk * 2 ^ 16 + core * 2 ^ 24)

/-- The unit that a second error at one word retires (R393). -/
def EccSite.retires : EccSite → Option Word
  | .tile t => some (retireWord 1 2 t.ret t.blk t.core)
  | .block b k => some (retireWord 2 2 b k 0)
  | _ => none

/-- Whether two entries name one unit (R391, R392). -/
def sameUnit (a b : Word) : Bool :=
  field a 0 2 = field b 0 2 && field a 8 7 = field b 8 7
    && (field a 0 2 = 3 || (field a 16 7 = field b 16 7 && (field a 0 2 = 2 || field a 24 4 = field b 24 4)))

/-- Yelk appends an entry to the retirement log; a unit that the log names gets none, and a full log sets LOGFULL
(R391, R393). -/
def State.autoRetire (s : State) (w : Word) : State :=
  if s.office.log.any fun e => sameUnit e.1 w then s
  else if 4096 ≤ s.office.log.length then { s with office := { s.office with logFull := true } }
  else { s with office := { s.office with log := s.office.log ++ [(w, zext s.mapgen)] } }

/-- An uncorrectable error is found at an ECC word of a scratch, an accumulator, a partial buffer, a fabric cell or an island
cache: ECCLOG and ECCADDR of its bulkhead, and the retirement of a word that has failed before (R325, R345, R393). -/
def State.foundWord (s : State) (w : Nat) : State :=
  match (eccSite (8 * w)).bulk with
  | none => s
  | some b =>
    let s := s.onIsland b fun x =>
      { x with eccUnc := if x.eccUnc = 0xFFFF then x.eccUnc else x.eccUnc + 1, eccAddr := eccAddress (8 * w) }
    let seen := s.office.eccSeen
    let s := { s with office := { s.office with eccSeen := seen.put w true } }
    match seen.find? w, (eccSite (8 * w)).retires with
    | some false, some u => s.autoRetire u
    | _, _ => s

/-- The words of a range of keys that hold an uncorrectable error. -/
def State.eccWords (s : State) (key n : Nat) : List Nat :=
  (s.ecc.filter fun e => e.2 && key / 8 ≤ e.1 && e.1 ≤ (key + n - 1) / 8).map (·.1)

/-- The errors of a list of words are found. -/
def State.foundWords (s : State) (ws : List Nat) : State := ws.foldl (fun s w => s.foundWord w) s

/-- Every uncorrectable error in a range of keys is found. -/
def State.foundEcc (s : State) (key n : Nat) : State := s.foundWords (s.eccWords key n)

/-- Writes bytes at a memory key. -/
def State.poke (s : State) (key : Nat) (bs : List (Nat × Byte)) : State := { s with mem := s.mem.writeAt key bs }

/-! ## Free values -/

/-- n bytes that the spec leaves open. -/
def State.freeBytes (s : State) (n : Nat) : List Byte × State :=
  ((upFrom s.free n).map Config.freeByte, { s with free := s.free + n })

/-- A word that the spec leaves open. -/
def State.freeWord (s : State) : Word × State := (Config.freeWord s.free, { s with free := s.free + 1 })

/-- A choice that the spec leaves open. -/
def State.freeBool (s : State) : Bool × State := (Config.freeBool s.free, { s with free := s.free + 1 })

/-! ## Edge memory under seals (R316 to R321, R400) -/

/-- The bulkhead of the edge module of a physical address (R308). -/
def paBulk (pa : Nat) : Nat := pa / 2 ^ 42 % 2 ^ 7

/-- Far memory: PA[51] = 1 (R308). -/
def paFar (pa : Nat) : Bool := 2 ^ 51 ≤ pa

/-- The serial number of the key that a slot holds; 0 for a FREE slot (R320). -/
def State.token (s : State) (slot : Nat) : Nat := (s.keys.get { token := 0, region := 0 } slot).token

/-- Whether a line reads under a key: it was sealed under that key and its MAC holds (R317, R400). -/
def State.lineOk (s : State) (pa token : Nat) : Bool :=
  match s.seals.find? (pa / 64) with
  | some l => l.ok && l.token = token && token != 0
  | none => false

/-- Whether the bytes of a line are those last written, its MAC aside. -/
def State.lineKnown (s : State) (pa token : Nat) : Bool :=
  match s.seals.find? (pa / 64) with
  | some l => l.token = token && token != 0
  | none => false

/-- Whether the MAJOR of a page is at its end, so that no write can pass its MINORs (R319). -/
def State.majorMax (s : State) (pa : Nat) : Bool := s.majors.get 0 (pa / 4096) = 2 ^ 64 - 1

/-- The seal of a line. -/
def State.seal (s : State) (pa : Nat) : Seal := s.seals.get { token := 0, ok := false, minor := 0 } (pa / 64)

/-- The counter block of a line: n is 1 to 4 for its 16-byte blocks, 0 for the MAC mask (R316). -/
def counterBlock (major minor pa n : Nat) : BitVec 128 :=
  BitVec.ofNat 128 (n % 8 + pa / 64 % 2 ^ 46 * 2 ^ 11 + minor % 2 ^ 7 * 2 ^ 57 + major * 2 ^ 64)

/-- The counter block of a line of the module as it stands. -/
def State.counterBlock (s : State) (pa n : Nat) : BitVec 128 :=
  Sys2Proof.Machine.counterBlock (s.majors.get 0 (pa / 4096)) (s.seal pa).minor pa n

/-- The 64 bytes that AES-256 in counter mode combines with a line under a key (R316). -/
def State.linePad (s : State) (token pa : Nat) : List Byte :=
  ((upFrom 1 4).map fun n => (toBytes 16 (Config.aes256 token (s.counterBlock pa n)).toNat).reverse).flatten

/-- Two byte sequences combined bit by bit. -/
def xorBytes (a b : List Byte) : List Byte := List.zipWith (· ^^^ ·) a b

/-- The ciphertext that the module stores of a line (R316). -/
def State.lineCipher (s : State) (pa : Nat) : List Byte :=
  xorBytes (s.mem.readN (physKey (pa / 64 * 64)) 64) (s.linePad (s.seal pa).token pa)

/-- The product of GHASH in its field of 2^128 elements, first bit highest (R317). -/
def gfMul (x y : BitVec 128) : BitVec 128 :=
  ((upFrom 0 128).foldl (fun (z : BitVec 128 × BitVec 128) i =>
    (if bit x (127 - i) then z.1 ^^^ z.2 else z.1,
     if bit z.2 0 then (z.2 >>> 1) ^^^ 0xE1000000000000000000000000000000#128 else z.2 >>> 1)) (0, y)).1

/-- GHASH of a sequence of blocks under a subkey (R317). -/
def ghash (h : BitVec 128) (xs : List (BitVec 128)) : BitVec 128 := xs.foldl (fun y x => gfMul (y ^^^ x) h) 0

/-- A block of 16 bytes, first byte highest. -/
def blockOf (bs : List Byte) : BitVec 128 := BitVec.ofNat 128 (ofBytes bs.reverse)

/-- The MAC of a line, as the write of the line leaves it with its ciphertext (R317): PA[51:6] and the lengths, in bits,
are written highest byte first (log entry 112). -/
def State.lineMac (s : State) (pa : Nat) : BitVec 56 :=
  let key := (s.seal pa).token
  let c := s.lineCipher pa
  let addr := blockOf (padTo 16 (toBytes 6 (pa / 64 % 2 ^ 46)).reverse)
  let blocks := (upFrom 0 4).map fun i => blockOf ((c.drop (16 * i)).take 16)
  let lengths := blockOf ((toBytes 8 48).reverse ++ (toBytes 8 512).reverse)
  BitVec.ofNat 56 (field (ghash (Config.aes256 key 0) (addr :: blocks ++ [lengths])
    ^^^ Config.aes256 key (s.counterBlock pa 0)) 72 56)

/-- Reads bytes of one edge line under a key: the bytes, and whether the check passes (R98, R316, R317, R400). Under
another key than the line's, the pads of that key stand between the ciphertext and what is read. -/
def State.edgeLine (s : State) (pa n token : Nat) : List Byte × Bool × State :=
  if s.lineKnown pa token then (s.mem.readN (physKey pa) n, s.lineOk pa token, s)
  else match s.seals.find? (pa / 64) with
    | some _ => (((xorBytes (s.lineCipher pa) (s.linePad token pa)).drop (pa % 64)).take n, false, s)
    | none => let r := s.freeBytes n; (r.1, false, r.2)

/-- Whether a write to the line must wait for its page's re-encryption (R319). -/
def State.minorFull (s : State) (pa : Nat) : Bool := (s.seal pa).minor = 127

/-- Writes bytes of one edge line under a key and seals it (R318). The caller has found that a partial
write may be performed and that the line's minor counter has room. -/
def State.edgeWrite (s : State) (pa token : Nat) (bs : List (Nat × Byte)) : State :=
  let l := s.seal pa
  { s with seals := s.seals.put (pa / 64) { token := token, ok := true, minor := l.minor + 1 } }.poke (physKey pa) bs

/-- Whether the bytes of a write cover a whole line. -/
def wholeLine (pa : Nat) (bs : List (Nat × Byte)) : Bool :=
  pa % 64 = 0 && (upFrom 0 64).all fun i => bs.any fun b => b.1 = i

/-! ## Translation (R308 to R314) -/

/-- The reasons of R314 that a translation gives. -/
inductive XReason where
  | highBits | noPid | notMapped | badEntry | rights | ordRsv | badPa | farCtr | keySel | ctrMax | walkErr
  deriving DecidableEq, Repr

/-- The code of a reason (R314). -/
def XReason.code : XReason → BitVec 4
  | .highBits => 1 | .noPid => 2 | .notMapped => 3 | .badEntry => 4 | .rights => 5 | .ordRsv => 6 | .badPa => 7
  | .farCtr => 8 | .keySel => 9 | .ctrMax => 10 | .walkErr => 11

/-- The bit of R309 that holds a right (R313). -/
def Right.bit : Right → Nat
  | .r => 2 | .w => 3 | .x => 4 | .a => 5

/-- The right of an access kind (R313). -/
def Access.right : Access → Right
  | .load _ _ => .r | .sread _ => .r | .cread => .r | .regRead _ _ => .r
  | .store _ _ => .w | .swrite _ _ => .w | .regWrite _ _ => .w
  | .probe need => need
  | _ => .a

/-- Whether an access is a counter instruction or a reduction, which far memory does not serve (R312). -/
def Access.isCounter : Access → Bool
  | .load _ _ | .sread _ | .store _ _ | .swrite _ _ | .regRead _ _ | .regWrite _ _ | .probe _ => false
  | _ => true

/-- Whether an access expects a value back. -/
def Access.returns : Access → Bool
  | .store _ _ | .swrite _ _ | .cadd _ _ | .red _ _ _ | .cwatch _ _ _ _ | .regWrite _ _ => false
  | _ => true

/-- A translation: physical address, page kind, key slot, the leaf, and the first virtual address and the bytes of the entry
that gave it. -/
structure Xlat where
  pa : Nat
  ord : BitVec 2
  key : Nat
  leaf : Leaf
  span : Nat × Nat
  deriving DecidableEq, Repr

/-- The region a station serves. -/
def State.regionOf (s : State) (b : BulkId) : Nat := (s.bulk b).region.toNat

/-- The key slot of a KSEL of a region (R307, R308, R320). In the Dean's tables KSEL 0 names slot 0, and KSEL 1 to 7 those
of the key list of the region that owns the translating station's bulkhead: the model's choice, since the spec gives the
Dean's tables no key list (log entry 140). -/
def State.keyOf (s : State) (h : Bool) (region ksel : Nat) : Option Nat :=
  if h then (if ksel = 0 then some 0 else s.ksel.find? (8 * region + ksel))
  else s.ksel.find? (8 * region + ksel)

/-- `Finish` of R312 for a physical address under attribute bits. -/
def State.finish (s : State) (h : Bool) (region : Nat) (pte : Word) (pa : Nat) (need : Right) (counter : Bool)
    (leaf : Leaf) : Except XReason Xlat :=
  let key := s.keyOf h region (field pte 8 3)
  if !bit pte need.bit then .error .rights
  else if field pte 6 2 = 3 then .error .ordRsv
  else if 2 ^ 52 ≤ pa then .error .badPa
  else if paFar pa then
    (if counter then .error .farCtr
     else .ok { pa := pa, ord := BitVec.ofNat 2 (field pte 6 2), key := 0, leaf := leaf, span := (leaf.va, 2 ^ leaf.log) })
  else if pa / 2 ^ 49 % 4 != 0 || !isEdgeBulk (paBulk pa) then .error .badPa
  else if !h && (s.regionOf (paBulk pa) != region || 0x17C0000000 ≤ pa % 2 ^ 42) then .error .badPa
  else if 0x1800000000 ≤ pa % 2 ^ 42 then .error .badPa
  else match key with
    | none => .error .keySel
    | some k => if s.token k = 0 then .error .keySel
                else .ok { pa := pa, ord := BitVec.ofNat 2 (field pte 6 2), key := k, leaf := leaf,
                           span := (leaf.va, 2 ^ leaf.log) }

/-- The range entry of a station that matches, lowest index first (R311, R312). -/
def Station.rangeHit (x : Station) (pid : BitVec 16) (va : Nat) : Nat → Nat → Option Nat
  | 0, _ => none
  | n + 1, i =>
    let e := x.range.get 0 (4 * i)
    let base := field (x.range.get 0 (4 * i + 1)) 12 44
    let limit := field (x.range.get 0 (4 * i + 2)) 12 44
    if bit e 0 && (bit e 11 || field e 16 16 = pid.toNat) && base ≤ va / 4096 && va / 4096 ≤ limit then some i
    else Station.rangeHit x pid va n (i + 1)

/-- A leaf kept for a virtual address (R303, R312). -/
def leafHit (cache : List Leaf) (h : Bool) (pid : BitVec 16) (va : Nat) : Option Leaf :=
  cache.find? fun l => l.h = h && (h || l.pid = pid) && l.va ≤ va && va < l.va + 2 ^ l.log

/-- The physical address of a virtual one under a leaf. -/
def Leaf.pa (l : Leaf) (va : Nat) : Nat := field l.pte 12 40 * 4096 + (va - l.va)

/-- What a read of the tables gives: the entry, or WALKERR (R314, R319, R400); WALKERR too where PIDTAB or a pointer names
far memory or no edge bulkhead, of which the spec says nothing: the model's choice (log entry 141). -/
def State.readSealed (s : State) (pa : Nat) : Except XReason Word :=
  if paFar pa || !isEdgeBulk (paBulk pa) then .error .walkErr
  else if !s.lineOk pa (s.token 0) || s.eccBad (physKey pa) 8 then .error .walkErr
  else .ok (s.mem.word (physKey pa))

/-- One step of a walk (R312): the next entry to read, a leaf, or a fault. Level 4 reads PIDTAB. -/
inductive WalkStep where
  | next (w : Walk)
  | leaf (l : Leaf)
  | fault (r : XReason)
  deriving DecidableEq, Repr

/-- Uses the entry that a walk read (R309, R310, R312). -/
def walkEntry (h : Bool) (pid : BitVec 16) (va : Nat) (level : Nat) (x : Word) : WalkStep :=
  if level = 4 then
    if bit x 0 then .next { level := 3, entry := field x 20 32 * 2 ^ 20 + 8 * (va / 2 ^ 39 % 2 ^ 17), restart := false }
    else .fault .noPid
  else if !bit x 0 then .fault .notMapped
  else if bit x 11 || bit x 63 || (level = 3 && bit x 1) || (level = 0 && !bit x 1) then .fault .badEntry
  else if bit x 1 then
    if field x 12 40 * 4096 % 2 ^ (12 + 9 * level) != 0 then .fault .badEntry
    else .leaf { h := h, pid := pid, va := va / 2 ^ (12 + 9 * level) * 2 ^ (12 + 9 * level), log := 12 + 9 * level, pte := x }
  else .next { level := level - 1, entry := field x 12 40 * 4096 + 8 * (va / 2 ^ (12 + 9 * (level - 1)) % 512),
               restart := false }

/-- The first read of a walk (R310, R312): PIDTAB of the station, or the Dean's root at HROOT (R303, R305). -/
def State.walkStart (s : State) (b : BulkId) (h : Bool) (hroot : Word) (pid : BitVec 16) (va : Nat) : WalkStep :=
  if h then walkEntry true pid va 4 hroot
  else .next { level := 4, entry := field (s.station b).pidtab 0 52 + 8 * pid.toNat, restart := false }

/-- A whole walk, at most five reads. -/
def State.walkAll (s : State) (h : Bool) (pid : BitVec 16) (va : Nat) : Nat → WalkStep → Except XReason Leaf
  | _, .leaf l => .ok l
  | _, .fault r => .error r
  | 0, .next _ => .error .walkErr
  | n + 1, .next w =>
    match s.readSealed w.entry with
    | .error e => .error e
    | .ok x => State.walkAll s h pid va n (walkEntry h pid va w.level x)

/-- A translation at station `b` of an address of bits [55:0] (R312), without the walk when `walk` is false. -/
def State.translate (s : State) (b : BulkId) (h : Bool) (hroot : Word) (pid : BitVec 16) (a : Word) (need : Right)
    (counter walk : Bool) : Except XReason (Option Xlat) :=
  let x := s.station b
  let region := s.regionOf b
  let va := field a 0 56
  if field a 56 7 != 0 then .error .highBits
  else match (if h then none else x.rangeHit pid va 64 0) with
  | some i =>
    let base := field (x.range.get 0 (4 * i + 1)) 12 44 * 4096
    let pa := field (x.range.get 0 (4 * i + 3)) 12 40 * 4096 + va - base
    let pte := x.range.get 0 (4 * i)
    let leafPte := BitVec.ofNat 64 (field pte 0 11 + pa / 4096 * 4096)
    let bytes := (field (x.range.get 0 (4 * i + 2)) 12 44 + 1) * 4096 - base
    (s.finish h region pte pa need counter
      { h := h, pid := pid, va := va / 4096 * 4096, log := 12, pte := leafPte }).map fun y =>
        some { y with span := (base, bytes) }
  | none =>
    match leafHit x.cache h pid va with
    | some l => (s.finish h region l.pte (l.pa va) need counter l).map some
    | none =>
      if !walk then .ok none
      else match s.walkAll h pid va 6 (s.walkStart b h hroot pid va) with
        | .error e => .error e
        | .ok l => (s.finish h region l.pte (l.pa va) need counter l).map some

/-! ## Stations (R290, R303) -/

/-- Whether a bulkhead has a present station (R307). -/
def State.hasStation (s : State) (b : BulkId) : Bool := isEdgeBulk b && !(s.bulk b).memFailed

/-- The station that serves a tile's translated requests (R77, R290). -/
def State.tileStation (s : State) (t : TileName) : BulkId := s.stationOf.get 0 t

/-- The bulkhead with a present station that is least by a measure, the lower id on a tie (R303). -/
def leastBulk (ok : Nat → Bool) (cost : Nat → Nat) : List Nat → Option Nat → Option Nat
  | [], best => best
  | b :: rest, best =>
    leastBulk ok cost rest
      (if !ok b then best else match best with
        | none => some b
        | some c => if cost b < cost c then some b else some c)

/-- Bulkhead steps between two bulkheads of the wafer. -/
def bulkSteps (a b : Nat) : Nat := (a / 8 - b / 8) + (b / 8 - a / 8) + (a % 8 - b % 8) + (b % 8 - a % 8)

/-- The station that serves a proctor core (R303). -/
def State.coreStation (s : State) (b : BulkId) (h : Bool) : BulkId :=
  if !h || (s.bulk b).region != 0 then s.stationOf.get b (2 ^ 20 + b)
  else if s.hasStation b then b
  else (leastBulk s.hasStation (bulkSteps b) (upFrom 0 80) none).getD b

/-- The station, process, level and root under which the executing agent's translated accesses go (R77, R303). -/
def State.xlatCtx (s : State) : BulkId × BitVec 16 × Bool × Word :=
  match s.cur with
  | .slot t _ => (s.tileStation t, (s.tile t).pid, false, 0)
  | .core b c =>
    let x := s.core b c
    match (if x.h then none else x.home) with
    | some (t, _, _) => (s.coreStation b false, (s.tile t).pid, false, 0)
    | none => (s.coreStation b x.h, x.ppid, x.h, x.hroot)

/-- What the tables in force say of an address of the executing agent, without a fault (R81, R98). -/
def State.peek (s : State) (a : Word) (need : Right) : Option Xlat :=
  let c := s.xlatCtx
  match s.translate c.1 c.2.2.1 c.2.2.2 c.2.1 a need false true with
  | .ok (some x) => some x
  | _ => none

/-! ## Stations at work, progress (R307, R312, R341) -/

/-- A leaf joins a station's cache, but for one of the Dean's tables at level H, whose root is the core's (R303); in a
full cache it replaces an entry that the spec leaves open (R307). -/
def State.cacheLeaf (s : State) (b : BulkId) (l : Leaf) : State :=
  let x := s.station b
  if l.h || x.cache.contains l then s
  else if x.cache.length < 8192 then s.onStation b fun x => { x with cache := x.cache ++ [l] }
  else
    let w := s.freeWord
    w.2.onStation b fun x => { x with cache := x.cache.set (w.1.toNat % 8192) l }

/-- Walks that a station runs. -/
def State.walksAt (s : State) (b : BulkId) : Nat :=
  (s.packets.filter fun p => p.2.dst / 4096 = b && (match p.2.place with | .walking _ => true | _ => false)).length

/-- The lowest-numbered bulkhead of a region, whose island keeps the group directory and the
invigilator (R174, R341). -/
def State.anchor (s : State) (region : Nat) : BulkId :=
  ((upFrom 0 80).find? fun b => s.regionOf b = region).getD 0

/-- Notes a progress event in a region, at its anchor's TIMER, latest first (R341). -/
def State.noteProgress (s : State) (region : Nat) : State :=
  if region = 0 then s
  else
    let now := (s.bulk (s.anchor region)).timer
    { s with progress := s.progress.put region (now :: (s.progress.get [] region).filter (· != now)) }

/-- From state `before` to `s` an agent has retired an instruction: progress, for a tile or a migrated activation, not
for level H, nor where the activation's core has entered level H by a trap (R341). -/
def State.retired (s before : State) (ag : Agent) : State :=
  match ag with
  | .slot t _ => s.noteProgress (s.regionOf t.ret)
  | .core b c =>
    if (before.core b c).home.isSome && !(before.core b c).h && !(s.core b c).h then s.noteProgress (s.regionOf b) else s

/-- The wait of an agent is over, and its instruction retires (R155, R341). -/
def State.endsWait (s : State) (ag : Agent) : State := (s.wakeUp ag).retired s ag

end Sys2Proof.Machine
end

