-- ==== Sys2Proof/Machine/Access.lean ====
section
/-! DEFINITION. Accesses: how a request leaves its agent, what it does at its home, and the watches
that counter adds fire (R82, R92 to R95, R99, R129, R136 to R142, R157 to R162). -/

namespace Sys2Proof.Machine

/-! ## Counters and reductions at a memory key -/

/-- The value a counter add leaves (R93). -/
def satAdd (v n : Word) : Word := if 2 ^ 64 ≤ v.toNat + n.toNat then BitVec.allOnes 64 else v + n

/-- The status bits a counter add sets: those it carries, and SAT on overflow (R93, R97). -/
def addStatus (v n st : Word) : Word := st ||| (if 2 ^ 64 ≤ v.toNat + n.toNat then 1 else 0)

/-- A counter add over value and status together (R157). -/
def Memory.counterAdd (m : Memory) (key : Nat) (n st : Word) : Memory :=
  let v := m.word key
  let bits := addStatus v n st
  let m := m.setWord key (satAdd v n)
  if bits = 0 then m else m.setWord (key + 8) (m.word (key + 8) ||| bits)

/-- Width in bytes of a reduction (R110, R162). -/
def redWidth (op : RedOp) (mod : BitVec 2) : Nat := if op = .addf || mod != 0 then 4 else 8

/-- The word that a reduction leaves (R162). -/
def redValue (op : RedOp) (mod : BitVec 2) (m b : Nat) : Nat :=
  let w := 8 * redWidth op mod
  match op with
  | .add => (m + b) % 2 ^ w
  | .addf => fadd m b
  | .and => m &&& b
  | .or => m ||| b
  | .xor => m ^^^ b
  | .min => if mod = 2 then fp32.pick false m b else if signed w b < signed w m then b else m
  | .max => if mod = 2 then fp32.pick true m b else if signed w m < signed w b then b else m

/-- A reduction at a key (R162). -/
def Memory.reduce (m : Memory) (key : Nat) (op : RedOp) (mod : BitVec 2) (b : Word) : Memory :=
  let n := redWidth op mod
  m.writeN key (toBytes n (redValue op mod (ofBytes (m.readN key n)) (b.toNat % 2 ^ (8 * n))))

/-! ## Packets by what they are -/

/-- The ticket of a body that carries one. -/
def Body.ticket? : Body → Option Ticket
  | .req r => some r.who
  | .treq r _ _ _ => some r.who
  | .reply r _ => some r.who
  | .wake who _ => some who
  | .msg m => m.who
  | .msgRefused who _ => some who
  | .refused who _ => who
  | _ => none

/-- The request of a body that carries one, translated or not. -/
def Body.req? : Body → Option Req
  | .req r => some r
  | .treq r _ _ _ => some r
  | _ => none

/-- A body with its request replaced. -/
def Body.withReq (b : Body) (r : Req) : Body :=
  match b with
  | .req _ => .req r
  | .treq _ pa ord key => .treq r pa ord key
  | b => b

/-- Whether two bodies carry requests of one form: neither translated, or both translated to one location under one
key. -/
def Body.samePlace (a b : Body) : Bool :=
  match a, b with
  | .req _, .req _ => true
  | .treq _ pa _ key, .treq _ pa' _ key' => pa = pa' && key = key'
  | _, _ => false

/-- The tile of a node. -/
def tileOfNode (n : Nat) : TileName := tileAt (n / 4096) (n % 4096 % 48) (n % 4096 / 48)

/-! ## Homes and origins -/

/-- The node at which a request from a node enters a home controller (R78, R401). -/
def State.homeNode (s : State) (home src : Nat) : Nat :=
  if home < 2 ^ 20 then tileNode home
  else if home < 2 ^ 21 then s.blockNode ((home - 2 ^ 20) / 128) ((home - 2 ^ 20) % 128) src
  else if home < 2 ^ 22 then s.islandNode (home - 2 ^ 21) src
  else s.islandNode (home - 2 ^ 22) src

/-- The bulkhead of a home controller. -/
def homeBulk (home : Nat) : Nat :=
  if home < 2 ^ 20 then TileName.ret home
  else if home < 2 ^ 21 then (home - 2 ^ 20) / 128
  else if home < 2 ^ 22 then home - 2 ^ 21
  else home - 2 ^ 22

/-- The home number of an edge bulkhead's station (R78). -/
def stationHome (b : BulkId) : Nat := 2 ^ 22 + b

/-- The node that an origin's replies reach. -/
def Origin.node : Origin → Nat
  | .slot t _ _ => tileNode t
  | .core b _ _ => nodeAt b 20 16
  | .vec t _ _ _ => tileNode t
  | .stream t _ _ => tileNode t
  | .streamAdd t _ => tileNode t
  | .share t => tileNode t
  | .host _ _ => nodeAt 0 20 16

/-- The tile whose limits and INTEG an origin's requests count in. -/
def Origin.tile : Origin → Option TileName
  | .slot t _ _ => some t
  | .core _ _ _ => none
  | .vec t _ _ _ => some t
  | .stream t _ _ => some t
  | .streamAdd t _ => some t
  | .share t => some t
  | .host _ _ => none

/-- Whether an activation is on its way between its slot and a proctor core (R38, R182). -/
def State.inTransit (s : State) (act : Nat) : Bool :=
  s.packets.any fun p => match p.2.body with | .migrate m | .migrateBack m => m.act = act | _ => false

/-- Where activation `act` of a slot executes: in the slot, or on the proctor core to which it has migrated (R38). -/
def State.whereRuns (s : State) (t : TileName) (k : BitVec 2) (act : Nat) : Agent :=
  if (s.slot t k).state != .migrated then .slot t k
  else match (upFrom 0 8).find? fun c => (s.core t.ret (BitVec.ofNat 3 c)).home = some (t, k, act) with
    | some c => .core t.ret (BitVec.ofNat 3 c)
    | none => .slot t k

/-- The slot that holds an activation, found by the activation's number. -/
def State.slotOfAct (s : State) (act : Nat) : Option (TileName × BitVec 2) :=
  s.tiles.findSome? fun x =>
    (allSlots.find? fun k => (x.2.slot k).act = act && (x.2.slot k).state != .free).map fun k => (x.1, k)

/-- The activation of an origin: its slot and number, when the slot still holds it. -/
def State.activation (s : State) (t : TileName) (k : BitVec 2) (act : Nat) : Option Agent :=
  if (s.slot t k).act = act && (s.slot t k).state != .free then some (s.whereRuns t k act) else none

/-- The agent that executes the activation of an origin, while the activation still lives. -/
def State.holder (s : State) : Origin → Option Agent
  | .slot t k act => s.activation t k act
  | .core b c act =>
    if (match (s.core b c).home with | some h => h.2.2 == act || act == 0 | none => act == 0) then some (.core b c)
    else (s.slotOfAct act).map fun h => s.whereRuns h.1 h.2 act
  | .vec t k act _ => s.activation t k act
  | .stream t cmd _ | .streamAdd t cmd =>
    match (s.tile t).sq.find? (·.id = cmd) with
    | some v => s.activation t v.slot v.act
    | none => none
  | .share _ | .host _ _ => none

/-- The number of the activation of an origin; 0 for proctor code. -/
def Origin.act : Origin → Nat
  | .slot _ _ act | .core _ _ act | .vec _ _ act _ => act
  | _ => 0

/-- The number of the activation for which an origin acts: that of its command for a stream request; 0 for proctor
code. -/
def State.actOf (s : State) : Origin → Nat
  | .slot _ _ act | .core _ _ act | .vec _ _ act _ => act
  | .stream t cmd _ | .streamAdd t cmd => ((s.tile t).sq.find? (·.id = cmd)).elim 0 (·.act)
  | _ => 0

/-- The slot and number of an activation of an origin on a tile. -/
def Origin.slot? : Origin → Option (TileName × BitVec 2 × Nat)
  | .slot t k act | .vec t k act _ => some (t, k, act)
  | _ => none

/-- Whether two requests come from one party (R78): an activation, migrated or not, or the proctor code of a core. -/
def Origin.sameParty (x y : Origin) : Bool :=
  match x.slot?, y.slot? with
  | some a, some b => a = b
  | some a, none => (match y with | .core _ _ act => act != 0 && act = a.2.2 | _ => false)
  | none, some b => (match x with | .core _ _ act => act != 0 && act = b.2.2 | _ => false)
  | none, none =>
    match x, y with
    | .core b c act, .core b' c' act' => act = act' && (act != 0 || (b = b' && c = c'))
    | _, _ => false

/-! ## Watches (R93, R94, R158, R160) -/

/-- The stamp of a wake, which answers the request that registered its watch (R293). -/
def State.wakeStamp (s : State) (who : Ticket) : Nat :=
  s.stampOf (who.origin.node / 4096) (match who.origin with | .core b c _ => (s.core b c).h | _ => false)

/-- Sends what a fired watch sends: a wake on VC1, or a wake message on VC2 with the value `v` that the home observed
(R94, R160). The wake message of a block's,
hall's or edge counter has sender 0; its entry mark then has EXT set, which is the model's choice (log entry 105). -/
def State.fireWatch (s : State) (w : Watch) (v : Word) : State :=
  match w.kind with
  | .wake who =>
    let dst := who.origin.node
    let s1 := s.inject (s.homeNode w.home dst) dst 1 1 (s.wakeStamp who) false (.wake who w.id)
    if w.windowed.isNone then s1
    else { s1 with packets := s1.packets.map fun p => if p.1 = s.serial then (p.1, { p.2 with windowed := w.windowed }) else p }
  | .msg t q tag =>
    let sender : Word := if w.home < 2 ^ 20 then tileId w.home else 0
    let m : Msg := { dest := t, q := q, tag := tag, len := 16, payload := bytesOf w.addr ++ bytesOf v,
                     sender := sender, ext := 2 ^ 20 ≤ w.home, lc := false, wake := true, who := none }
    s.inject (s.homeNode w.home (tileNode t)) (tileNode t) 2 2 (s.stampOf (homeBulk w.home) false) false (.msg m)

/-- Registers the oldest waiting watch of a home that holds fewer than 8, comparing as it does so (R94). -/
def State.settleWatches (s : State) (home : Nat) : Nat → State
  | 0 => s
  | n + 1 =>
    if 8 ≤ (s.watches.filter fun w => w.home = home && w.active).length then s
    else match s.watches.find? fun w => w.home = home && !w.active with
      | none => s
      | some w =>
        if w.target.toNat ≤ (s.mem.word w.key).toNat then
          State.settleWatches ({ s with watches := s.watches.filter (·.id != w.id) }.fireWatch w (s.mem.word w.key)) home n
        else
          State.settleWatches
            { s with watches := s.watches.map fun x => if x.id = w.id then { x with active := true } else x } home n

/-- Removes a watch and lets the next one in (R94, R155). -/
def State.freeWatch (s : State) (id : Nat) : State :=
  match s.watches.find? (·.id = id) with
  | none => s
  | some w => { s with watches := s.watches.filter (·.id != id) }.settleWatches w.home s.watches.length

/-- A watch request at its home, which has read the value `v`: it fires at once when the target is reached, is
registered, or waits as the ninth (R94, R158, R160). -/
def State.registerWatch (s : State) (home key : Nat) (addr target : Word) (kind : WatchKind) (v : Word) : State :=
  let w : Watch := { id := s.serial, home := home, key := key, addr := addr, target := target, kind := kind,
                     active := decide ((s.watches.filter fun x => x.home = home && x.active).length < 8), windowed := none }
  if target.toNat ≤ v.toNat then s.bump.fireWatch w v
  else { s.bump with watches := s.watches ++ [w] }

/-- The context of a wait on a counter that has reached its target at TIMER `now`: a `CWAITT` writes 1, or 0 when its
timeout expired in an earlier cycle (R94, R158). -/
def Ctx.met (c : Ctx) (flag : Option (Reg × Word)) (now : Word) : Ctx :=
  match flag with
  | some (d, due) => c.set d (if now.toNat ≤ due.toNat then 1 else 0)
  | none => c

/-- Completes the waits of a tile's slots on a counter in its own scratch (R94, R158). -/
def State.wakeLocal (s : State) (t : TileName) (key : Nat) : State :=
  allSlots.foldl (fun s k =>
    match (s.slot t k).ctx.wait with
    | .counter key' target flag =>
      if key' = key && target.toNat ≤ (s.mem.word key).toNat then
        (s.onSlot t k fun x => { x with ctx := x.ctx.met flag (s.bulk t.ret).timer }).endsWait (.slot t k)
      else s
    | _ => s) s

/-- The comparisons that follow a counter add at a key (R93, R94). -/
def State.afterAdd (s : State) (home key : Nat) : State :=
  let v := s.mem.word key
  let s := if home < 2 ^ 20 then s.wakeLocal home key else s
  let hit := s.watches.filter fun w => w.key = key && w.active && w.target.toNat ≤ v.toNat
  let s := { s with watches := s.watches.filter fun w => !(w.key = key && w.active && w.target.toNat ≤ v.toNat) }
  (hit.foldl (fun s w => s.fireWatch w v) s).settleWatches home s.watches.length

/-- A counter add performed at its home (R157). -/
def State.addAt (s : State) (home key : Nat) (n st : Word) : State :=
  { s with mem := s.mem.counterAdd key n st }.afterAdd home key

/-! ## Roll-call wires (R164, R165, R275) -/

/-- The members of a wire of a bulkhead: row `i`, or column `i`. -/
def State.wireMembers (s : State) (b : BulkId) (col : Bool) (i : Nat) : List TileName :=
  (s.tiles.filter fun (x : Nat × Tile) =>
    TileName.ret x.1 = b && (if col then tileX x.1 = i && bit x.2.rcMask 1 else tileY x.1 = i && bit x.2.rcMask 0)).map (·.1)

/-- The number of a wire: row or column `i` of a bulkhead. -/
def wireKey (b : BulkId) (col : Bool) (i : Nat) : Nat := 128 * b + 64 * num col + i

/-- The last member of a wire has arrived, or has left it: the wire is to release the members that it has in this cycle
(R165, R275). -/
def State.latchWire (s : State) (b : BulkId) (col : Bool) (i : Nat) : State :=
  let ms := s.wireMembers b col i
  if (s.wires.find? (wireKey b col i)).isSome || ms.isEmpty || !(ms.all fun t => bit (s.tile t).arrived (num col)) then s
  else { s with wires := s.wires.put (wireKey b col i) ms }

/-- The row wire and the column wire of a tile, looked at when the tile arrives or its RC_MASK changes. -/
def State.latchWires (s : State) (t : TileName) : State :=
  (s.latchWire t.ret false (tileY t)).latchWire t.ret true (tileX t)

/-! ## Stores and ECC (R139) -/

/-- The 8-byte words of a range with an uncorrectable error that a store does not replace whole. -/
def State.badWords (s : State) (key : Nat) (bs : List (Nat × Byte)) : List Nat :=
  (s.ecc.filter fun e => e.2 && (bs.any fun b => (key + b.1) / 8 = e.1)
    && !((upFrom 0 8).all fun i => bs.any fun b => key + b.1 = 8 * e.1 + i)).map (·.1)

/-- Writes the bytes of a store, leaves the words that hold an uncorrectable error and are not replaced
whole, and clears the errors of those that are (R139, R194). -/
def State.storeBytes (s : State) (key : Nat) (bs : List (Nat × Byte)) : State :=
  let bad := s.badWords key bs
  let ok := bs.filter fun b => !bad.contains ((key + b.1) / 8)
  { s with mem := s.mem.writeAt key ok,
           ecc := s.ecc.filter fun e => !((upFrom 0 8).all fun i => bs.any fun b => key + b.1 = 8 * e.1 + i) }

/-! ## Issuing (R99, R129, R141) -/

/-- The activation number of the executing agent; 0 for proctor code. -/
def State.actNow (s : State) : Nat :=
  match s.cur with
  | .slot t k => (s.slot t k).act
  | .core b c => if (s.core b c).h then 0 else match (s.core b c).home with | some h => h.2.2 | none => 0

def State.originNow (s : State) : Origin :=
  match s.cur with
  | .slot t k => .slot t k s.actNow
  | .core b c => .core b c s.actNow

/-- The ticket of a request of the executing instruction. -/
def State.ticket (s : State) : Ticket := { origin := s.originNow, rid := s.serial, epc := s.pc, iw := s.iw }

/-- The stamp of the executing agent's packets (R293). -/
def State.stampNow (s : State) : Nat := s.stampOf (agentBulk s.cur) s.atH

/-- Whether an address is in tag 0x0 of the issuing tile's own scratch, so that it is performed at issue
(R81, R141). -/
def State.isOwn (s : State) (a : Word) : Bool :=
  match s.cur with
  | .slot _ _ => field a 60 4 = 0
  | .core _ _ => false

/-- Whether a location is the scratch of the issuing tile, whatever its tag (R157, R162). -/
def State.ownScratch (s : State) (l : Loc) : Bool :=
  match s.cur, l with
  | .slot t _, .scratch t' _ => t = t'
  | _, _ => false

/-- The translation that the executing core itself keeps of an address, with a right (R303). -/
def State.ownXlat (s : State) (a : Word) (need : Right) : Option Xlat :=
  match s.cur with
  | .slot _ _ => none
  | .core b c =>
    let x := s.xlatCtx
    match (if field a 56 7 = 0 then leafHit (s.core b c).tlb x.2.2.1 x.2.1 (field a 0 56) else none) with
    | some l => (s.finish x.2.2.1 (s.regionOf x.1) l.pte (l.pa (field a 0 56)) need false l).toOption
    | none => none

/-- The kind of the page of an address of the executing agent, as its core's own translation or the tables in force give
it under any right; none where they give none, or an access there faults whatever its right. -/
def State.pageKind (s : State) (a : Word) (need : Right) : Option (BitVec 2) :=
  match s.ownXlat a need with
  | some x => some x.ord
  | none => ([need, .r, .w, .x, .a].findSome? fun n => s.peek a n).map (·.ord)

/-- Whether the location of an untranslated or translated access is STRONG (R81). The kind of a page is judged by the
tables in force when the access issues, and a page of which they give no kind is taken as STRONG, so that an access which
faults keeps the order that its retry may need (R83): the model's choice (log entry 138). -/
def State.isStrong (s : State) (a : Word) (l : Loc) (need : Right) : Bool :=
  match l with
  | .scratch _ _ => s.isOwn a
  | .translated => (s.pageKind a need).getD 0 = 0
  | _ => false

/-- Whether a line check is counted for an access: an edge line that is read, by a wait or a test of a counter too (R98,
R321, R400; log entry 113). -/
def State.countsLine (s : State) (a : Word) (l : Loc) (acc : Access) : Bool :=
  l = .translated && (match acc with | .load _ _ | .cread | .ctest _ | .cwait _ | .sread _ => true | _ => false)
    && (match s.cur with | .slot _ _ => true | .core _ _ => false)
    && (match s.peek a acc.right with | some x => !paFar x.pa | none => true)

/-- Bytes that an access touches. -/
def Access.size : Access → Nat
  | .load n _ => n
  | .store w _ => w
  | .swrite n _ => n
  | .sread n => n
  | .red op m _ => redWidth op m
  | .regRead _ _ | .regWrite _ _ => 8
  | .probe _ => 1
  | _ => 16

/-- Whether an access is one of the 16 off-tile requests that a tile holds unacknowledged (R141, R157, R162). -/
def Access.isLimited : Access → Bool
  | .store _ _ | .cadd _ _ | .caddf _ | .red _ _ _ => true
  | _ => false

/-- Whether an access is a load for the limit of R129. -/
def Access.isLoad : Access → Bool
  | .load _ _ => true
  | _ => false

/-- Whether an access is an acquire while its instruction does not wait for it (R89). -/
def Access.isAcquire : Access → Bool
  | .caddf _ => true
  | _ => false

/-- Flits of a request (R278); a 64-byte store carries its data behind the header. -/
def Access.flits : Access → Nat
  | .store w _ => if 8 < w then 1 + ceilDiv w 32 else 1
  | .swrite n _ => 1 + ceilDiv n 32
  | _ => 1

/-! ## The order of one party's accesses (R19, R82, R83, R89, R129, R141, R191) -/

/-- Whether a vector command is a load or a store (R163). -/
def VCmd.isMem (c : VCmd) : Bool :=
  match c.instr with
  | .vld _ _ _ | .vst _ _ _ | .vstm _ _ _ | .vldq _ _ _ => true
  | _ => false

/-- Whether a vector command is a load (R163). -/
def VCmd.isLoad (c : VCmd) : Bool :=
  match c.instr with
  | .vld _ _ _ | .vldq _ _ _ => true
  | _ => false

/-- The vector loads and stores of the executing slot that are not yet performed. -/
def State.vecAccesses (s : State) : List VCmd :=
  match s.cur with
  | .slot t k => (s.tile t).vq.filter fun c => c.slot = k && c.isMem
  | .core _ _ => []

/-- Whether two ranges of numbers meet. -/
def rangesMeet (a n b m : Nat) : Bool := a < b + m && b < a + n

/-- Whether an own-scratch range meets the row that a vector load or store names (R191). -/
def State.rowMeets (s : State) (t : TileName) (c : VCmd) (off n : Nat) : Bool :=
  (match c.instr with | .vld _ _ _ => true | .vst _ _ _ => true | .vstm _ _ _ => true | _ => false)
    && (match s.locate (some t) c.a 64 with
        | .scratch t' o => t' = t && rangesMeet o 64 off n
        | _ => false)

/-- Whether an own-scratch range meets a row named by a queued vector load or store (R191). -/
def State.vecOverlap (s : State) (t : TileName) (off n : Nat) : Bool := (s.tile t).vq.any fun c => s.rowMeets t c off n

/-- Whether n bytes of own scratch lie in the metadata block of a leader's `MMAS` that issued before number `id` and has
not joined: a later instruction of the tile writes them once the join has read them (R19, R224). -/
def State.metaBefore (s : State) (id : Nat) (t : TileName) (off n : Nat) : Bool :=
  (s.tile t).mat.pos = 0 && (s.tile t).mat.arrivals.any fun c =>
    c.id < id && (match c.instr with | .mmas _ _ => rangesMeet c.metaAddr.toNat 128 off n | _ => false)

/-- Whether a write of n bytes of own scratch by the executing instruction must wait for what issued before it on the
tile: vector loads and stores, and the metadata of a join (R19, R191, R224). -/
def State.writeBehind (s : State) (t : TileName) (off n : Nat) : Bool :=
  s.vecOverlap t off n || s.metaBefore s.serial t off n

/-- The accesses that the executing activation has issued and that are not yet performed: its context's, and, after
`MIGRATE`, those that left from its home tile (R130, R163). -/
def State.outNow (s : State) : List Outst :=
  match s.cur, s.homeSlot with
  | .core _ _, some h => s.ctx.out ++ (s.slot h.1 h.2).ctx.out
  | _, _ => s.ctx.out

/-- A STRONG access of the agent is not yet performed: one that has left, or a queued vector command on own scratch
(R81, R83). -/
def State.strongOut (s : State) : Bool :=
  s.outNow.any (·.strong)
    || s.vecAccesses.any fun c => s.isOwn c.a && (match c.instr with | .vldq _ _ _ => false | _ => true)

/-- A `CADDF` of the agent has not returned: its acquire holds back every later access (R89). -/
def State.acquiring (s : State) : Bool := s.outNow.any (·.acquire)

/-- A fifth load waits (R129). A load that has failed, whose destination is never written (R140), counts no longer: R129
speaks of a written destination only, and this is the model's choice (log entry 139). -/
def State.loadsFull (s : State) : Bool :=
  match s.cur with
  | .slot _ _ => 4 ≤ (s.ctx.out.filter (·.load)).length
  | .core _ _ => false

/-- The memory key at which a request acts, as far as the tables in force say. -/
def State.packetKey (s : State) (k : Packet) (r : Req) : Option Nat :=
  match k.body with
  | .treq _ pa _ _ => some (physKey pa)
  | _ =>
    match s.locate (some (tileOfNode k.dst)) r.addr r.acc.size with
    | .bad => none
    | .translated =>
      let hroot := match r.who.origin with | .core b c _ => (s.core b c).hroot | _ => 0
      (match s.translate (k.dst / 4096) r.hLevel hroot r.pid r.addr r.acc.right r.acc.isCounter true with
       | .ok (some x) => some (physKey x.pa)
       | _ => none)
    | l => some l.key

/-- Whether a request on its way carries an access of a party for which a test on its number holds. A request for a
translation accesses nothing. -/
def Req.hasParty (r : Req) (who : Origin) (rid : Nat → Bool) : Bool :=
  (match r.acc with | .probe _ => false | _ => true) && (r.who :: r.also).any fun w => w.origin.sameParty who && rid w.rid

/-- Whether a request of the executing agent to some of n bytes at a key is not yet performed (R82). -/
def State.inFlight (s : State) (key n : Nat) : Bool :=
  s.packets.any fun p => match p.2.body.req? with
    | some r => r.hasParty s.originNow (fun _ => true) && (match s.packetKey p.2 r with
        | some key' => rangesMeet key' r.acc.size key n
        | none => false)
    | none => false

/-- Whether two requests name bytes in common, by key or by virtual address. -/
def State.sameBytes (s : State) (k k' : Packet) (r r' : Req) : Bool :=
  (bit r.addr 63 && bit r'.addr 63 && r.hLevel = r'.hLevel && (r.hLevel || r.pid = r'.pid)
      && rangesMeet r.addr.toNat r.acc.size r'.addr.toNat r'.acc.size)
    || (match s.packetKey k r, s.packetKey k' r' with
        | some a, some b => rangesMeet a r.acc.size b r'.acc.size
        | _, _ => false)

/-- Whether a request at its home must wait for an earlier one of a party of its own to the same bytes (R82). -/
def State.behindOwn (s : State) (p : Nat) (k : Packet) (r : Req) : Bool :=
  s.packets.any fun q => q.1 != p && (match q.2.body.req? with
    | some r' => ((r.who :: r.also).any fun w => r'.hasParty w.origin (· < w.rid)) && s.sameBytes q.2 k r' r
    | none => false)

/-- Whether the first router has accepted a request (R130, R193). -/
def State.accepted (s : State) (node rid : Nat) : Bool :=
  (s.router node).ins.all fun b => b.2.behind.all fun f =>
    match (s.packets.find? f.pkt).bind fun k => k.body.req? with
    | some r => r.who.rid != rid
    | none => true

/-- Whether a request is stalled at a station (R314). -/
def State.stalledReq (s : State) (rid : Nat) : Bool :=
  s.packets.any fun p => (match p.2.place with | .stalled _ _ => true | _ => false)
    && (match p.2.body.req? with | some r => r.who.rid = rid | none => false)

/-- Whether an access of own tile scratch must wait (R82, R83, R89, R191). -/
def State.ownBusy (s : State) (a : Word) (t : TileName) (off n : Nat) : Bool :=
  (s.isOwn a && s.strongOut) || s.acquiring || s.vecOverlap t off n || s.inFlight (scratchKey t off) n

/-- The memory key of n bytes at an address of the executing agent, as far as the tables in force say. -/
def State.keyAt (s : State) (a : Word) (n : Nat) : Option Nat :=
  match s.loc a n with
  | .bad => none
  | .translated =>
    let c := s.xlatCtx
    (match s.translate c.1 c.2.2.1 c.2.2.2 c.2.1 a .r false true with
     | .ok (some x) => some (physKey x.pa)
     | _ => none)
  | l => some l.key

/-- Whether an access through the network must wait for a queued vector command: of any slot on own scratch, of the
same slot elsewhere (R82, R191). -/
def State.behindVec (s : State) (a : Word) (l : Loc) (n : Nat) : Bool :=
  match s.cur with
  | .core _ _ => false
  | .slot t k =>
    (match l with | .scratch t' off => t' = t && s.vecOverlap t off n | _ => false)
      || (s.tile t).vq.any fun c => c.slot = k && c.isMem && !c.sent
          && ((bit a 63 && bit c.a 63 && rangesMeet a.toNat n c.a.toNat 64)
            || (match s.keyAt a n, s.keyAt c.a 64 with
                | some x, some y => rangesMeet x n y 64
                | _, _ => false))

/-- The agent must wait before it issues a further access through the network: for its own earlier accesses, for a
fifth load or a 17th request, for gates at HOLD (R82, R83, R89, R129, R141, R191, R292). -/
def State.mustWait (s : State) (acc : Access) (a : Word) (l : Loc) : Bool :=
  s.gatesHeld || s.acquiring || (s.isStrong a l acc.right && s.strongOut) || s.behindVec a l acc.size
    || (match s.cur with
        | .core _ _ => false
        | .slot t _ => (acc.isLoad && s.loadsFull) || (acc.isLimited && 16 ≤ (s.tile t).offTile.length))

/-- The request of an access by the executing agent. -/
def State.mkReq (s : State) (acc : Access) (a : Word) (dest : Option Reg) (counted : Bool) : Req :=
  { acc := acc, addr := a, who := s.ticket, also := [], pid := s.xlatCtx.2.1, hLevel := s.atH, dest := dest,
    counted := counted, lc := false }

/-- The destination node of a request: the home's controller, or the station that translates it (R77). -/
def State.reqNode (s : State) (l : Loc) (src : Nat) : Nat :=
  match l with
  | .translated => s.islandNode s.xlatCtx.1 src
  | _ => s.homeNode l.home src

/-- Sends a request of the executing agent and records what it leaves outstanding: a pending register,
an entry among the agent's accesses, a place among the tile's 16 requests, a line check (R98, R126, R141). -/
def State.sendAccess (s : State) (acc : Access) (a : Word) (l : Loc) (dest : Option Reg) : State :=
  let strong := s.isStrong a l acc.right
  let counted := s.countsLine a l acc
  let r := s.mkReq acc a dest counted
  let rid := s.serial
  let src := (agentNode s.cur)
  let s1 := s.bump.onCtx fun c =>
    { c with out := c.out ++ [{ id := rid, load := acc.isLoad, returns := acc.returns, acquire := acc.isAcquire, strong := strong }],
             pend := match dest with
               | some d => if d = 0 then c.pend else c.pend ++ [{ reg := d, id := rid, failed := false }]
               | none => c.pend }
  let s2 := match s.cur with
    | .core _ _ => s1
    | .slot t _ => s1.onTile t fun x =>
        { x with offTile := if acc.isLimited then x.offTile ++ [rid] else x.offTile,
                 outst := if counted then x.outst + 1 else x.outst }
  s2.inject src (s.reqNode l src) 0 acc.flits s.stampNow false (.req r)

/-- An access by the executing agent through the network: it waits, as `hold` has it, or it is sent and the
instruction completes (R141). -/
def State.accessOut (s : State) (acc : Access) (a : Word) (l : Loc) (dest : Option Reg) (hold : State) : State :=
  if s.mustWait acc a l then hold else (s.sendAccess acc a l dest).retire

/-- As `accessOut`, but the instruction waits for the reply (R158). -/
def State.accessWait (s : State) (acc : Access) (a : Word) (l : Loc) (dest : Option Reg) (flag : Option (Reg × Word))
    (hold : State) : State :=
  if s.mustWait acc a l then hold else (s.sendAccess acc a l dest).issueAndWait (.remote s.serial flag)

/-! ## Translations that a proctor core asks for (R303, R312, R314) -/

/-- Whether the executing core's request for a translation is on its way, and not stalled. -/
def State.asked (s : State) (a : Word) (need : Right) : Bool :=
  s.packets.any fun p => (match p.2.place with | .stalled _ _ => false | _ => true) && (match p.2.body.req? with
    | some r => r.acc = .probe need && r.addr = a && r.hLevel = s.atH && r.who.origin = s.originNow
    | none => false)

/-- The executing core asks its station for the translation of an address that it does not keep; it comes to the station
as every request does, and faults there as one (R303, R312, R314). -/
def State.askXlat (s : State) (a : Word) (need : Right) : State :=
  if s.asked a need then s
  else s.bump.inject (agentNode s.cur) (s.reqNode .translated (agentNode s.cur)) 0 1 s.stampNow false
    (.req (s.mkReq (.probe need) a none false))

/-! ## The caches of a proctor core and of its island (R87, R184, R302) -/

/-- Lines of a core's instruction cache and data cache, and of the island cache: 64 KiB and 16 MiB in lines of 64 bytes
(R302). -/
def coreLines : Nat := 1024
def islandLines : Nat := 262144

/-- The words of a line of an island's cache are written with correct ECC, or hold the line no longer. -/
def State.islandClean (s : State) (b : BulkId) (line : Nat) : State :=
  { s with ecc := s.ecc.filter fun e => 8 * e.1 < islandKey b line || islandKey b (line + 1) ≤ 8 * e.1 }

/-- Puts a line into the island cache; in a full one it replaces a line that the spec leaves open (log entry 12). -/
def State.putIsland (s : State) (b : BulkId) (line : Nat) (bs : List Byte) : State :=
  let m := (s.island b).cache
  match (if (m.find? line).isSome then none else m.victim islandLines (Config.freeWord s.free).toNat) with
  | none => (s.islandClean b line).onIsland b fun x => { x with cache := x.cache.put line bs }
  | some k =>
    ((s.freeWord.2.islandClean b line).islandClean b k).onIsland b fun x => { x with cache := (x.cache.del k).put line bs }

/-- Writes a core's copy of a far-memory line back, when it is dirty: to the island cache and to memory (R184). -/
def State.writeBack (s : State) (b : BulkId) (n : BitVec 3) (pa : Nat) : State :=
  match (s.core b n).dcache.find? (pa / 64) with
  | some (line, true) =>
    ({ s with mem := s.mem.writeN (physKey (pa / 64 * 64)) line }.putIsland b (pa / 64) line).onCore b n fun x =>
        { x with dcache := x.dcache.put (pa / 64) (line, false) }
  | _ => s

/-- Puts a line into a core's data cache; in a full one it replaces a line that the spec leaves open, which is written
back first when it is dirty (log entry 12). -/
def State.putLine (s : State) (b : BulkId) (c : BitVec 3) (line : Nat) (bs : List Byte) (dirty : Bool) : State :=
  let m := (s.core b c).dcache
  match (if (m.find? line).isSome then none else m.victim coreLines (Config.freeWord s.free).toNat) with
  | none => s.onCore b c fun x => { x with dcache := x.dcache.put line (bs, dirty) }
  | some k =>
    (s.freeWord.2.writeBack b c (64 * k)).onCore b c fun x => { x with dcache := (x.dcache.del k).put line (bs, dirty) }

/-- The far-memory location of a core's access, when the core keeps its translation (R87, R303); an access whose
translation it does not keep goes out as a request, and comes to the caches once its station has translated it. Edge lines are coherent
(R87), so that no copy of one differs from the line at its home: the model keeps none, and `DCWB` and `DCINV` do
nothing to an edge line. -/
def State.farLine (s : State) (a : Word) (need : Right) : Option Nat :=
  match s.cur with
  | .slot _ _ => none
  | .core _ _ =>
    if field a 63 1 = 1 then (match s.ownXlat a need with
      | some x => if paFar x.pa then some x.pa else none
      | none => none)
    else none

/-- The bytes of a far-memory line as a core sees them, which fills its data cache and the island cache (R87, R302). -/
def State.farFill (s : State) (b : BulkId) (c : BitVec 3) (pa : Nat) : List Byte × State :=
  match (s.core b c).dcache.find? (pa / 64) with
  | some l => (l.1, s)
  | none =>
    match (s.island b).cache.find? (pa / 64) with
    | some l => (l, s.putLine b c (pa / 64) l false)
    | none =>
      let l := s.mem.readN (physKey (pa / 64 * 64)) 64
      (l, (s.putIsland b (pa / 64) l).putLine b c (pa / 64) l false)

/-- Whether a far-memory line that a core must take from its island's cache holds an uncorrectable error
there (R139, R393). -/
def State.coreBad (s : State) (b : BulkId) (c : BitVec 3) (pa : Nat) : Bool :=
  ((s.core b c).dcache.find? (pa / 64)).isNone && s.eccBad (islandKey b (pa / 64)) 64

/-- The same for the executing core. -/
def State.islandBad (s : State) (pa : Nat) : Bool :=
  match s.cur with
  | .slot _ _ => false
  | .core b c => s.coreBad b c pa

/-- Reads n bytes of a far-memory line through a core's caches. -/
def State.readFar (s : State) (b : BulkId) (c : BitVec 3) (pa n : Nat) : List Byte × State :=
  let r := s.farFill b c pa
  ((r.1.drop (pa % 64)).take n, r.2)

/-- The same for the executing core. -/
def State.loadFar (s : State) (pa n : Nat) : List Byte × State :=
  match s.cur with
  | .slot _ _ => ([], s)
  | .core b c => s.readFar b c pa n

/-- The bytes of a far-memory line with some of them replaced. -/
def patchLine (line : List Byte) (o : Nat) (bs : List (Nat × Byte)) : List Byte :=
  (indexed line).map fun p => match bs.find? fun b => o + b.1 = p.1 with | some b => b.2 | none => p.2

/-- Writes bytes into a core's copy of a far-memory line, as written but not yet written back (R87). -/
def State.writeFar (s : State) (b : BulkId) (c : BitVec 3) (pa : Nat) (bs : List (Nat × Byte)) : State :=
  let r := s.farFill b c pa
  r.2.putLine b c (pa / 64) (patchLine r.1 (pa % 64) bs) true

/-- The same for the executing core. -/
def State.storeFar (s : State) (pa : Nat) (bs : List (Nat × Byte)) : State :=
  match s.cur with
  | .slot _ _ => s
  | .core b c => s.writeFar b c pa bs

/-- Whether an access of a far-memory line through the caches must wait for the core's earlier accesses (R82, R83,
R89). -/
def State.farBusy (s : State) (a : Word) (pa n : Nat) (need : Right) : Bool :=
  (s.isStrong a .translated need && s.strongOut) || s.acquiring || s.inFlight (physKey pa) n

/-! ## Loads and stores (R136 to R144) -/

/-- The value a load of n bytes writes (R136). -/
def loadValue (n : Nat) (sg : Bool) (bs : List Byte) : Word :=
  let v := ofBytes (bs.take n)
  if sg then BitVec.ofInt 64 (Sys2Proof.Machine.signed (8 * n) v) else BitVec.ofNat 64 v

/-- A load of own tile scratch that meets an uncorrectable error: the instruction completes, its destination stays
pending, and the slot traps (R139, R140, R345). -/
def State.loadFailed (s : State) (t : TileName) (k : BitVec 2) (off n : Nat) (d : Reg) (ea : Word) : State :=
  let epc := s.pc
  let s := s.retire.onCtx fun c =>
    { c with pend := if d = 0 then c.pend else c.pend ++ [{ reg := d, id := 0, failed := true }] }
  (s.foundEcc (scratchKey t off) n).lateTrap t k .eccUe epc ea

/-- An access of the executing core to a far-memory line that its island's cache holds with an uncorrectable error: the
instruction completes, is not performed, and the core traps; a load's destination stays pending (R139). A store takes the
trap wherever in the line the error lies (DESIGN CHOICE, log entry 130). -/
def State.islandFailed (s : State) (pa : Nat) (dest : Option Reg) (ea : Word) : State :=
  match s.cur with
  | .slot _ _ => s
  | .core b _ =>
    let epc := s.pc
    let act := s.actNow
    let ag := s.cur
    let s := s.retire.onCtx fun c =>
      { c with pend := match dest with
          | some d => if d = 0 then c.pend else c.pend ++ [{ reg := d, id := 0, failed := true }]
          | none => c.pend }
    (s.foundEcc (islandKey b (pa / 64)) 64).lateFailure ag act .eccUe epc ea id

/-- A load from own tile scratch, performed at issue (R127, R129, R139, R141, R191). -/
def State.loadOwn (s : State) (t : TileName) (k : BitVec 2) (off n : Nat) (sg : Bool) (d : Reg) (ea : Word) : State :=
  if s.ownBusy ea t off n || s.loadsFull then s.retry
  else if s.eccBad (scratchKey t off) n then s.loadFailed t k off n d ea
  else (s.wr d (loadValue n sg (s.mem.readN (scratchKey t off) n))).retire

/-- A scalar load of n bytes at `ea` (R136, R137, R141). -/
def State.loadAt (s : State) (n : Nat) (sg : Bool) (d : Reg) (ea : Word) : State :=
  let l := s.loc ea n
  let out := s.accessOut (.load n sg) ea l (some d) s.retry
  if ea.toNat % n != 0 then s.trap .misalign ea
  else match l with
    | .bad => s.trap .noname ea
    | .state _ _ => if s.atH then out else s.trap .priv (zext s.iw)
    | .scratch t off =>
      (match s.cur with
       | .slot _ k => if s.isOwn ea then s.loadOwn t k off n sg d ea else out
       | .core _ _ => out)
    | .translated =>
      (match s.farLine ea .r with
       | some pa =>
         if s.farBusy ea pa n .r then s.retry
         else if s.islandBad pa then s.islandFailed pa (some d) ea
         else let r := s.loadFar pa n; (r.2.wr d (loadValue n sg r.1)).retire
       | none => out)
    | _ => out

/-- Whether a location lies in the issuing tile, or in the home tile of a migrated activation, so that a store to it
carries no data off the tile (R99). -/
def State.onOwnTile (s : State) (l : Loc) : Bool :=
  match s.homeTile, l with
  | some t, .scratch t' _ => t = t'
  | _, _ => false

/-- Whether a store has its place in the issuing tile's locked code (R137 step 4). -/
def State.ownCode (s : State) (l : Loc) (n : Nat) : Bool :=
  match s.homeTile, l with
  | some t, .scratch t' off => t = t' && s.codeLocked t off n
  | _, _ => false

/-- A store to own tile scratch, performed at issue (R19, R139, R141, R191). -/
def State.storeOwn (s : State) (t : TileName) (k : BitVec 2) (off n : Nat) (bs : List Byte) (ea : Word) : State :=
  if s.ownBusy ea t off n || s.writeBehind t off n then s.retry
  else
    let key := scratchKey t off
    let bad := s.badWords key (indexed bs)
    let epc := s.pc
    let s' := (s.storeBytes key (indexed bs)).retire
    if bad.isEmpty then s' else (s'.foundWords bad).lateTrap t k .eccUe epc ea

/-- A scalar store of bytes at `ea` (R136, R137, R141); off the tile it is a release point (R99). -/
def State.storeAt (s : State) (bs : List Byte) (ea : Word) : State :=
  let n := bs.length
  let l := s.loc ea n
  let out := s.accessOut (.store n (indexed bs)) ea l none s.retry
  if ea.toNat % n != 0 then s.trap .misalign ea
  else match l with
    | .bad => s.trap .noname ea
    | .state _ _ => if s.atH then out else s.trap .priv (zext s.iw)
    | .scratch t off =>
      if s.ownCode l n then s.trap .priv (zext s.iw)
      else (match s.cur with
        | .slot _ k =>
          if s.isOwn ea then s.storeOwn t k off n bs ea
          else if s.onOwnTile l then out else s.releasePoint s.retry out
        | .core _ _ => if s.onOwnTile l then out else s.releasePoint s.retry out)
    | .translated =>
      (match s.farLine ea .w with
       | some pa =>
         if s.farBusy ea pa n .w then s.retry
         else s.releasePoint s.retry (if s.islandBad pa then s.islandFailed pa none ea else (s.storeFar pa (indexed bs)).retire)
       | none => s.releasePoint s.retry out)
    | _ => s.releasePoint s.retry out

end Sys2Proof.Machine
end

