-- ==== Sys2Proof/Machine/Operands.lean ====
section
/-! DEFINITION. Operand forms: immediates, effective addresses, branch targets, compact registers, the
fetch of an instruction's halfwords, and the values of the ALU group (R101, R102, R107, R116, R131 to
R134, R145, R303). -/

namespace Sys2Proof.Machine

/-- The outcome of a meaning. -/
abbrev Result := Host.Outcome State Fault Refusal

/-- Writes a result and completes the instruction (R126). -/
def State.put (s : State) (d : Reg) (v : Word) : State := (s.wr d v).retire

/-- The register of a compact field: `s0` to `s15` (R116). -/
def creg (r : BitVec 4) : Reg := r.zeroExtend 5

/-- EA of a load or store: A + SignExtend(off12, 64) modulo 2^64 (R136). -/
def State.ea (s : State) (a : Reg) (off : BitVec 12) : Word := s.rd a + sext off

/-- A halfword offset as bytes (R107). -/
def halfwords {w : Nat} (off : BitVec w) : Word := sext off <<< 1

/-- A truth value as a register value. -/
def flag (b : Bool) : Word := if b then 1 else 0

/-- A BRANCH: taken to pc + off, or fallen through (R145, R150). -/
def State.branchIf (s : State) (c : Bool) (off : Word) : State :=
  if c then s.onCtx fun x => x.branchTo (x.pc + off) else s.retire

/-! ## ALU values (R131 to R133) -/

/-- Bits [127:64] of the signed product (R131). -/
def mulHigh (a b : Word) : Word := BitVec.ofInt 64 (a.toInt * b.toInt / ((2 ^ 64 : Nat) : Int))

/-- Bits [127:64] of the unsigned product (R131). -/
def mulHighN (a b : Word) : Word := BitVec.ofNat 64 (a.toNat * b.toNat / 2 ^ 64)

/-- Quotient and remainder of the signed division (R132). -/
def divSigned (a b : Word) : Word × Word :=
  if b = 0 then (BitVec.allOnes 64, a)
  else if a = BitVec.ofNat 64 (2 ^ 63) && b = BitVec.allOnes 64 then (a, 0)
  else (BitVec.ofInt 64 (a.toInt.tdiv b.toInt), BitVec.ofInt 64 (a.toInt.tmod b.toInt))

/-- Quotient and remainder of the unsigned division (R132). -/
def divUnsigned (a b : Word) : Word × Word :=
  if b = 0 then (BitVec.allOnes 64, a) else (BitVec.ofNat 64 (a.toNat / b.toNat), BitVec.ofNat 64 (a.toNat % b.toNat))

/-- Number of 1 bits (R131). -/
def popCount (a : Word) : Nat := ((upFrom 0 64).filter fun i => bit a i).length

/-- 0 bits above the highest 1 bit, 64 for 0 (R131). -/
def leadingZeros (a : Word) : Nat := if a = 0 then 64 else 63 - Nat.log2 a.toNat

/-- 0 bits below the lowest 1 bit, 64 for 0 (R131). -/
def trailingZeros (a : Word) : Nat := ((upFrom 0 64).find? fun i => bit a i).getD 64

/-- Position and length of a bit field (R133). -/
def fieldPos (b : Word) : Nat := field b 0 6
def fieldLen (b : Word) : Nat := min (field b 6 7) 64

/-- The field that `BEXT` and `BEXTS` take (R133). -/
def extractField (a b : Word) : Nat := a.toNat / 2 ^ fieldPos b % 2 ^ fieldLen b

/-- `BEXTS` (R133). -/
def extractSigned (a b : Word) : Word :=
  if fieldLen b = 0 then 0 else BitVec.ofInt 64 (Sys2Proof.Machine.signed (fieldLen b) (extractField a b))

/-- `BINS` (R133). -/
def insertField (d a b : Word) : Word :=
  let m := BitVec.ofNat 64 ((2 ^ fieldLen b - 1) * 2 ^ fieldPos b)
  (d &&& ~~~m) ||| ((a <<< fieldPos b) &&& m)

/-- The smaller or larger by a comparison. -/
def pickIf (c : Bool) (a b : Word) : Word := if c then a else b

/-! ## Fetch (R101, R102, R142, R303) -/

/-- Puts a line into a core's instruction cache; in a full one it replaces a line that the spec leaves open (R302, log
entry 9). -/
def State.putCode (s : State) (b : BulkId) (c : BitVec 3) (line : Nat) (bs : List Byte) : State :=
  match (s.core b c).icache.victim coreLines (Config.freeWord s.free).toNat with
  | none => s.onCore b c fun x => { x with icache := x.icache.put line bs }
  | some k => s.freeWord.2.onCore b c fun x => { x with icache := (x.icache.del k).put line bs }

/-- The instruction-cache line of a core that holds a memory key, filled when absent (R302, R303). -/
def State.icacheLine (s : State) (b : BulkId) (c : BitVec 3) (key : Nat) (fill : List Byte × State) :
    List Byte × State :=
  match (s.core b c).icache.find? (key / 64) with
  | some l => (l, s)
  | none => (fill.1, fill.2.putCode b c (key / 64) fill.1)

/-- The bytes of a line of edge or far memory under a translation. -/
def State.physLine (s : State) (x : Xlat) : List Byte × State :=
  if paFar x.pa then (s.mem.readN (physKey (x.pa / 64 * 64)) 64, s)
  else let r := s.edgeLine (x.pa / 64 * 64) 64 (s.token x.key); (r.1, r.2.2)

/-- Why a halfword is not fetched: a trap, with its value, or a translation that the core must ask its station for
(R102, R303). -/
inductive FetchStop where
  | trap (cause : Cause) (eval : Word)
  | ask (a : Word)
  deriving DecidableEq, Repr

/-- A halfword of the instruction stream: its value, or why it is not fetched (R102, R303). -/
def State.fetchHalf (s : State) (a : Word) : Except FetchStop (BitVec 16 × State) :=
  let half (l : List Byte) (o : Nat) : BitVec 16 := BitVec.ofNat 16 (ofBytes ((l.drop o).take 2))
  match s.cur with
  | .slot t _ =>
    if 0x28000 < a.toNat + 2 then .error (.trap .noname a)
    else if s.eccBad (scratchKey t a.toNat) 2 then .error (.trap .eccUe a)
    else .ok (half (s.mem.readN (scratchKey t a.toNat) 2) 0, s)
  | .core b c =>
    match (if (s.core b c).h then none else (s.core b c).home) with
    | some (t, _, _) =>
      if 0x28000 < a.toNat + 2 then .error (.trap .noname a)
      else
        let key := scratchKey t a.toNat
        let r := s.icacheLine b c key (s.mem.readN (key / 64 * 64) 64, s)
        .ok (half r.1 (a.toNat % 64), r.2)
    | none =>
      if !bit a 63 then .error (.trap .noname a)
      else match s.ownXlat a .x with
        | none => .error (.ask a)
        | some x =>
          let r := s.icacheLine b c (physKey x.pa) (s.physLine x)
          .ok (half r.1 (x.pa % 64), r.2)

/-! ## Registers that an instruction reads or writes (R126, R190) -/

/-- The scalar registers an instruction reads or writes, so that it waits while one of them is pending. -/
def touches (i : Instr) : List Reg :=
  match i with
  | .add d a b | .sub d a b | .and d a b | .or d a b | .xor d a b | .andn d a b | .shl d a b | .shr d a b
  | .sha d a b | .rot d a b | .mul d a b | .mulh d a b | .mulhn d a b | .div d a b | .divn d a b | .rem d a b
  | .remn d a b | .min d a b | .max d a b | .minn d a b | .maxn d a b | .seq d a b | .slt d a b | .sltn d a b
  | .sel d a b | .addsh1 d a b | .addsh2 d a b | .addsh3 d a b | .bext d a b | .bexts d a b | .bins d a b
  | .caddf d a b | .cwaitt d a b | .fetch _ _ _ _ d a b | .put _ _ _ _ d a b | .copy _ _ _ _ d a b
  | .mcast _ _ _ _ d a b | .gather _ _ _ _ d a b | .scatter _ _ _ _ d a b => [d, a, b]
  | .popc d a | .clz d a | .ctz d a | .mov d a | .addi d a _ | .andi d a _ | .ori d a _ | .xori d a _
  | .slti d a _ | .shli d a _ | .shri d a _ | .shai d a _ | .roti d a _ | .ldb d a _ | .ldh d a _
  | .ldw d a _ | .ldd d a _ | .ldbs d a _ | .ldhs d a _ | .ldws d a _ | .jal d a _ | .cread d a | .trec d a => [d, a]
  | .movi d _ | .lih d _ | .ldq d _ _ | .xget d _ | .fwdw _ d | .llget d | .qwait d _ | .qstat d _ | .mstat d
  | .dget d _ | .dres d _ | .drdc _ d _ | .dstat d => [d]
  | .stb c a _ | .sth c a _ | .stw c a _ | .std c a _ => [c, a]
  | .beq a c _ | .bne a c _ | .blt a c _ | .bge a c _ | .bltn a c _ | .bgen a c _ | .bbs a c _ | .bbc a c _ => [a, c]
  | .call _ => [1]
  | .j a _ | .loop a _ | .xset _ a | .fwd _ a | .llput a | .disarm _ a | .join a | .leave a | .qfree _ a
  | .vld _ a _ | .vst _ a _ | .vbcast _ _ a | .vext _ a _ _ | .vins _ _ a _ | .vcmpeq _ a _ _
  | .vcmplt _ a _ _ | .vcmple _ a _ _ | .vsel _ _ a _ | .vredadd _ a _ | .vredmax _ a _ | .vredmin _ a _
  | .mmas _ a | .dset _ a | .dsave a | .dload a | .dclk _ a | .dstep a | .dinj a | .trinv a => [a]
  | .cadd a b | .cwait a b | .cwatch a b | .redadd _ a b | .redaddf a b | .redmin _ a b | .redmax _ a b
  | .redand _ a b | .redor _ a b | .redxor _ a b | .arm _ a b | .qpush _ a b | .mopaBlock _ a b
  | .mopbBlock _ a b => [a, b]
  | .send _ a b d | .sends _ a b d => [a, b, d]
  | .syscall c | .mfs c _ | .mts c _ | .atinv c | .dcwb c | .dcinv c | .icinv c => [c]
  | .vstm _ a m => [a, m]
  | .dpatch c a d => if c = 0x100 then [a] else [a, d]
  | .cMov d b | .cAdd d b | .cSub d b | .cAnd d b | .cOr d b | .cXor d b | .cShl d b | .cShr d b => [creg d, creg b]
  | .cAddi d _ | .cMovi d _ | .cShli d _ => [creg d]
  | .cLdd d a _ | .cLdw d a _ => [creg d, creg a]
  | .cStd c a _ | .cStw c a _ => [creg c, creg a]
  | .cBeqz a _ | .cBnez a _ | .cJ a => [creg a]
  | _ => []

end Sys2Proof.Machine
end

