-- ==== Sys2Proof/Machine/Sync.lean ====
section
/-! DEFINITION. Counter instructions, reductions, fences and roll-call wires (R157 to R165, R185). -/

namespace Sys2Proof.Machine

/-! ## Completion of earlier accesses (R88, R163) -/

/-- Every earlier access of the executing agent is performed (R88, R163). -/
def State.released (s : State) : Bool := s.outNow.isEmpty && s.vecAccesses.isEmpty

/-- Every earlier load and acquire of the executing agent has returned (R88, R163). -/
def State.acquired (s : State) : Bool := (s.outNow.all fun o => !o.returns) && (s.vecAccesses.all fun c => !c.isLoad)

/-- An issued instruction, with the operands that it has read, is tried again until it completes (R117, R155). -/
def State.await (s : State) (i : Instr) : State := s.issueAndWait (.issued i s.iw s.ctx.regs s.ctx.eregs)

/-- Waits, as an issued instruction, until earlier accesses are performed, then acts (R89). -/
def State.afterRelease (s : State) (i : Instr) (act : State) : State := if s.released then act else s.await i

/-- A read of a counter in own scratch that meets an uncorrectable error (R139, R345). -/
def State.eccStop (s : State) (a : Word) : State :=
  match s.cur with
  | .slot t k => (s.retire.foundEcc (scratchKey t (field a 0 24)) 16).lateTrap t k .eccUe s.pc a
  | .core _ _ => s.retire

/-! ## Counters (R157 to R161) -/

/-- The checks 1 to 3 of R157 on a counter address. -/
def State.counterAddr (s : State) (a : Word) (act : Loc → State) : State :=
  if a.toNat % 16 != 0 then s.trap .misalign a
  else match s.loc a 16 with
    | .bad => s.trap .noname a
    | .state _ _ => s.trap .priv (zext s.iw)
    | l => act l

/-- An access of own scratch by a counter instruction or reduction must wait (R82, R83, R89, R191). -/
def State.locBusy (s : State) (a : Word) (l : Loc) (n : Nat) : Bool :=
  match l with
  | .scratch t off => s.ownBusy a t off n
  | _ => false

/-- A counter add or reduction of own scratch must wait (R19, R82, R83, R89, R191). -/
def State.updateBusy (s : State) (a : Word) (l : Loc) (n : Nat) : Bool :=
  s.locBusy a l n || (match l with | .scratch t off => s.writeBehind t off n | _ => false)

/-- Whether a counter instruction or reduction writes its operand. -/
def updatesOperand : Instr → Bool
  | .cwait _ _ | .cwaitt _ _ _ | .cread _ _ | .cwatch _ _ => false
  | _ => true

/-- An access of n bytes at a counter or reduction operand: in own scratch it acts at issue, once nothing holds it back,
and an uncorrectable error stops it; elsewhere `out` acts (R139, R157, R162). -/
def State.atOperand (s : State) (i : Instr) (a : Word) (l : Loc) (n : Nat) (own out : State) : State :=
  if s.ownScratch l then
    if (if updatesOperand i then s.updateBusy a l n else s.locBusy a l n) then s.await i
    else if s.eccBad l.key n then s.eccStop a
    else own
  else out

/-- `CADD` (R157). -/
def execCadd (a b : Reg) (s : State) : Result :=
  let A := s.rd a
  let i : Instr := .cadd a b
  .next (s.counterAddr A fun l => s.releasePoint (s.await i) (s.afterRelease i
    (s.atOperand i A l 16 (s.addAt l.home l.key (s.rd b) 0).retire
      (s.accessOut (.cadd (s.rd b) 0) A l none (s.await i)))))

/-- `CADDF` (R157): elsewhere than in own scratch, its acquire holds back later accesses until the old value returns
(R89). -/
def execCaddf (d a b : Reg) (s : State) : Result :=
  let A := s.rd a
  let i : Instr := .caddf d a b
  .next (s.counterAddr A fun l => s.releasePoint (s.await i) (s.afterRelease i
    (s.atOperand i A l 16 ((s.addAt l.home l.key (s.rd b) 0).put d (s.mem.word l.key))
      (s.accessOut (.caddf (s.rd b)) A l (some d) (s.await i)))))

/-- `CWAIT` (R158). -/
def execCwait (a b : Reg) (s : State) : Result :=
  let A := s.rd a
  let i : Instr := .cwait a b
  .next (s.counterAddr A fun l =>
    s.atOperand i A l 16
      (if (s.rd b).toNat ≤ (s.mem.word l.key).toNat then s.retire
       else s.issueAndWait (.counter l.key (s.rd b) none))
      (s.accessWait (.cwait (s.rd b)) A l none none (s.await i)))

/-- Whether the timeout of a `CWAITT` that had to wait before it could compare is over: it completes as one whose target
is not met (R158, R274). -/
def State.timedOut (s : State) (timeout : Nat) : Bool :=
  timeout != 0 && timeout < ((s.bulk (agentBulk s.cur)).timer - s.issueTime).toNat

/-- `CWAITT`: a timeout of 0 makes one comparison (R158). -/
def execCwaitt (d a b : Reg) (s : State) : Result :=
  let A := s.rd a
  let i : Instr := .cwaitt d a b
  let timeout := field (s.erd 0) 0 32
  let due := s.issueTime + BitVec.ofNat 64 timeout
  .next (s.counterAddr A fun l => if s.timedOut timeout then s.put d 0 else
    s.atOperand i A l 16
      (if (s.rd b).toNat ≤ (s.mem.word l.key).toNat then s.put d 1
       else if timeout = 0 then s.put d 0
       else s.issueAndWait (.counter l.key (s.rd b) (some (d, due))))
      (if timeout = 0 then s.accessWait (.ctest (s.rd b)) A l (some d) none (s.await i)
       else s.accessWait (.cwait (s.rd b)) A l none (some (d, due)) (s.await i)))

/-- `CREAD` (R159). -/
def execCread (d a : Reg) (s : State) : Result :=
  let A := s.rd a
  let i : Instr := .cread d a
  .next (s.counterAddr A fun l =>
    s.atOperand i A l 16 (s.put d (s.mem.word l.key)) (s.accessOut .cread A l (some d) (s.await i)))

/-- The wake target that `e0` names; none takes `NONAME` (R161). The spec gives SPACE the codes 0 and 1, and code 0 a
meaning where there is an own tile: any other code, and code 0 of proctor code, takes `NONAME` in the model (log entry
104). -/
def State.wakeTarget (s : State) (e : Word) : Option TileName :=
  if field e 43 17 != 0 || bit e 35 || field e 19 5 != 0 then none
  else match field e 60 4 with
    | 0 => s.homeTile
    | 1 => if s.tileExists (field e 24 19) then some (field e 24 19) else none
    | _ => none

/-- `CWATCH` (R160). -/
def execCwatch (a b : Reg) (s : State) : Result :=
  let A := s.rd a
  let e := s.erd 0
  let i : Instr := .cwatch a b
  .next (s.counterAddr A fun l =>
    match s.wakeTarget e with
    | none => s.trap .noname e
    | some t =>
      let q : QNum := BitVec.ofNat 3 (field e 16 3)
      let tag : BitVec 16 := BitVec.ofNat 16 (field e 0 16)
      s.atOperand i A l 16 (s.registerWatch l.home l.key A (s.rd b) (.msg t q tag) (s.mem.word l.key)).retire
        (s.accessOut (.cwatch (s.rd b) t q tag) A l none (s.await i)))

/-! ## Reductions (R162) -/

/-- A reduction: its checks, then at issue on own scratch and as a request elsewhere (R162). -/
def State.reduction (s : State) (i : Instr) (op : RedOp) (mod : BitVec 2) (A B : Word) : State :=
  let n := redWidth op mod
  if A.toNat % n != 0 then s.trap .misalign A
  else match s.loc A n with
    | .bad => s.trap .noname A
    | .state _ _ => s.trap .priv (zext s.iw)
    | l =>
      s.atOperand i A l n { s with mem := s.mem.reduce l.key op mod B }.retire
        (if s.onOwnTile l then s.accessOut (.red op mod B) A l none (s.await i)
         else s.releasePoint (s.await i) (s.accessOut (.red op mod B) A l none (s.await i)))

/-- `REDADD` (R162). -/
def execRedadd (m : BitVec 2) (a b : Reg) (s : State) : Result :=
  .next (s.reduction (.redadd m a b) .add m (s.rd a) (s.rd b))

/-- `REDADDF` (R162). -/
def execRedaddf (a b : Reg) (s : State) : Result := .next (s.reduction (.redaddf a b) .addf 0 (s.rd a) (s.rd b))

/-- `REDMIN` (R162). -/
def execRedmin (m : BitVec 2) (a b : Reg) (s : State) : Result :=
  .next (s.reduction (.redmin m a b) .min m (s.rd a) (s.rd b))

/-- `REDMAX` (R162). -/
def execRedmax (m : BitVec 2) (a b : Reg) (s : State) : Result :=
  .next (s.reduction (.redmax m a b) .max m (s.rd a) (s.rd b))

/-- `REDAND` (R162). -/
def execRedand (m : BitVec 2) (a b : Reg) (s : State) : Result :=
  .next (s.reduction (.redand m a b) .and m (s.rd a) (s.rd b))

/-- `REDOR` (R162). -/
def execRedor (m : BitVec 2) (a b : Reg) (s : State) : Result :=
  .next (s.reduction (.redor m a b) .or m (s.rd a) (s.rd b))

/-- `REDXOR` (R162). -/
def execRedxor (m : BitVec 2) (a b : Reg) (s : State) : Result :=
  .next (s.reduction (.redxor m a b) .xor m (s.rd a) (s.rd b))

/-! ## Fences and wires (R163 to R165) -/

/-- `FENCE`: kind 0 acquire, 1 release, 2 full (R163). -/
def execFence (kind : BitVec 2) (scope : BitVec 3) (s : State) : Result :=
  if kind = 0 then .next (if s.acquired then s.retire else s.await (.fence kind scope))
  else .next (s.releasePoint (s.await (.fence kind scope)) (s.afterRelease (.fence kind scope) s.retire))

/-- The wires of a `BARW` that the tile is a member of: row, column (R164, R165). -/
def wiresOf (mask : BitVec 2) (wire : BitVec 2) : Bool × Bool :=
  (bit mask 0 && wire != 1, bit mask 1 && wire != 0)

/-- `BARW`: a release at BULKHEAD scope, an arrival on the wires the tile is a member of, and the wait for
their release. In proctor code it completes at once; a migrated activation acts as on its home tile (R165, R185). -/
def execBarw (wire : BitVec 2) (s : State) : Result :=
  .next (s.afterRelease (.barw wire)
    (match s.homeTile with
     | none => s.retire
     | some t =>
       let w := wiresOf (s.tile t).rcMask wire
       if !w.1 && !w.2 then s.retire
       else
         ((s.onTile t fun x =>
           { x with arrived := x.arrived ||| BitVec.ofNat 2 (num w.1 + 2 * num w.2) }).latchWires t).issueAndWait (.wire w.1 w.2)))

end Sys2Proof.Machine
end

