-- ==== Sys2Proof/Machine/Queue.lean ====
section
/-! DEFINITION. Queues and bindings: the ring, its marks, the queue instructions, `LDQ`, `ARM` and
`DISARM` (R24, R26, R143, R172, R175 to R179). -/

namespace Sys2Proof.Machine

/-! ## The ring (R24, R175, R328) -/

def Queue.size (q : Queue) : Nat := 2 ^ q.logn.toNat
def Queue.bytes (q : Queue) : Nat := 64 * 2 ^ q.esize.toNat
def Queue.entry (q : Queue) (i : Nat) : Entry := q.entries.get Entry.empty i
/-- Sets an entry's marks and leaves the indices as they are. -/
def Queue.mark (q : Queue) (i : Nat) (e : Entry) : Queue := { q with entries := q.entries.put i e }
/-- An entry whose message is neither fired nor passed (R143). -/
def Entry.waiting (e : Entry) : Bool := e.full && !e.fired && !e.passed
/-- The index of the read entry: the first message from READ on that is neither fired nor passed, or WRITE when none is
(R143, R175, R328). -/
def Queue.readIndex (q : Queue) : BitVec 8 :=
  (((upFrom q.read.toNat q.size).map fun i => BitVec.ofNat 8 (i % q.size)).find? fun i => (q.entry i.toNat).waiting).getD q.write
/-- Sets an entry; READ follows the marks (R175). -/
def Queue.setEntry (q : Queue) (i : Nat) (e : Entry) : Queue := { q.mark i e with read := (q.mark i e).readIndex }

/-- Offset of an entry in tile scratch. -/
def Queue.offset (q : Queue) (i : Nat) : Nat := q.base.toNat + q.bytes * i

/-- Ring positions from OLDEST to WRITE that are not yet free in ring order (R175). -/
def Queue.used (q : Queue) : Nat :=
  if (q.entry q.oldest.toNat).full then (q.write.toNat + q.size - q.oldest.toNat - 1) % q.size + 1 else 0

/-- Entries writable now (R179). -/
def Queue.free (q : Queue) : Nat := q.size - q.used

/-- The indices of the ring that are in use, oldest first. -/
def Queue.inUse (q : Queue) : List Nat := (upFrom q.oldest.toNat q.used).map (· % q.size)

/-- Advances OLDEST over entries that are free. -/
def Queue.settle (q : Queue) : Nat → Queue
  | 0 => q
  | n + 1 =>
    if q.oldest = q.write || (q.entry q.oldest.toNat).full then q
    else Queue.settle { q with oldest := BitVec.ofNat 8 ((q.oldest.toNat + 1) % q.size) } n

/-- Frees an entry (R175). -/
def Queue.freeEntry (q : Queue) (i : Nat) : Queue :=
  let q := q.setEntry i Entry.empty
  -- the oldest entry of a full ring stands at WRITE itself
  let q := if q.oldest = q.write && i = q.oldest.toNat then
    { q with oldest := BitVec.ofNat 8 ((q.oldest.toNat + 1) % q.size) } else q
  q.settle q.size

/-- The read entry: the oldest message neither fired nor passed, once it has arrived (R143, R156, R175). -/
def Queue.readEntry (q : Queue) : Option Nat :=
  let i := q.readIndex.toNat
  if (q.entry i).waiting && (q.entry i).here then some i else none

/-- Whether an entry has been taken by another activation than that of slot `k` (R143). -/
def Entry.takenByOther (e : Entry) (k : BitVec 2) : Bool := e.taken && !(e.held && e.holder = k)

/-- The sender field of an entry mark (R328). -/
def senderField (id : Word) : BitVec 18 :=
  BitVec.ofNat 18 (field id 36 7 * 2 ^ 11 + field id 28 7 * 2 ^ 4 + field id 24 4)

/-- `TILE_ID` of a sender field (R28, R328). -/
def senderId (e : Entry) : Word :=
  if e.ext then 0
  else tileId (TileName.mk (field e.sender 11 7) (field e.sender 4 7) (field e.sender 0 4))

/-- Assigns the next entry of a queue to a message (R25, R156, R328). -/
def Queue.assign (q : Queue) (tag : BitVec 16) (len : Nat) (sender : Word) (ext : Bool) : Queue :=
  let e : Entry := { Entry.empty with tag := tag, len := BitVec.ofNat 9 len, full := true, seq := q.nextSeq,
                                      sender := if ext then 0 else senderField sender, ext := ext }
  { q.setEntry q.write.toNat e with write := BitVec.ofNat 8 ((q.write.toNat + 1) % q.size), nextSeq := q.nextSeq + 1 }

/-- The message of an entry arrives: its bytes from offset `o` on are written, and padded with zeros to the entry's size
(R156, R167). -/
def State.arriveEntry (s : State) (t : TileName) (qn : QNum) (i o : Nat) (payload : List Byte) : State :=
  let q := (s.tile t).queue qn
  let s := { s with mem := s.mem.writeN (scratchKey t (q.offset i + o)) (padTo (q.bytes - o) (payload.drop o)) }
  s.onTile t fun x =>
    x.setQueue qn (q.setEntry i { q.entry i with here := true, order := (s.bulk t.ret).timer.toNat })

/-- Changes the queue `qn` of a tile. -/
def State.onQueue (s : State) (t : TileName) (qn : QNum) (f : Queue → Queue) : State :=
  s.onTile t fun x => x.setQueue qn (f (x.queue qn))

/-- Frees every entry that slot `k` holds (R29, R175). -/
def Tile.freeHeld (x : Tile) (k : BitVec 2) : Tile :=
  (upFrom 0 8).foldl (fun x n =>
    let qn : QNum := BitVec.ofNat 3 n
    let q := x.queue qn
    x.setQueue qn ((q.inUse.filter fun i => (q.entry i).held && (q.entry i).holder = k).foldl Queue.freeEntry q)) x

/-- `QUEUE_ERR` with a queue number (R46). -/
def State.queueErr (s : State) (q : QNum) : State := s.trap .queueErr (zext q)

/-- The described queue that an instruction of a slot names; `QUEUE_ERR` otherwise, and on a proctor core
(R24, R143, R185). -/
def State.withQueue (s : State) (qn : QNum) (act : TileName → BitVec 2 → Queue → State) : State :=
  match s.cur with
  | .core _ _ => s.queueErr qn
  | .slot t k => if ((s.tile t).queue qn).valid then act t k ((s.tile t).queue qn) else s.queueErr qn

/-- The mark of an entry taken by slot `k` (R175). -/
def Entry.take (e : Entry) (k : BitVec 2) : Entry := { e with taken := true, held := true, holder := k }

/-! ## Instructions -/

/-- `LDQ` (R143). -/
def execLdq (d : Reg) (qn : QNum) (off : BitVec 12) (s : State) : Result :=
  .next (s.withQueue qn fun t k q =>
    if (sext off).toNat % 8 != 0 then s.trap .misalign (zext q.base + sext off)
    else if bit off 11 || q.bytes < off.toNat + 8 then s.queueErr qn
    else match q.readEntry with
      | none => s.await (.ldq d qn off)
      | some i =>
        let at' := q.offset i + off.toNat
        if (q.entry i).takenByOther k || s.loadsFull || s.ownBusy (BitVec.ofNat 64 at') t at' 8 then
          s.await (.ldq d qn off)
        else
          let s' := s.onQueue t qn fun q => q.setEntry i ((q.entry i).take k)
          if s.eccBad (scratchKey t at') 8 then s'.loadFailed t k at' 8 d (BitVec.ofNat 64 at')
          else s'.put d (s.mem.word (scratchKey t at')))

/-- The word that `QWAIT` writes (R176). -/
def qwaitWord (off : Nat) (e : Entry) : Word :=
  BitVec.ofNat 64 (off + e.tag.toNat * 2 ^ 32 + e.len.toNat * 2 ^ 48)

/-- `QWAIT` (R176). -/
def execQwait (d : Reg) (qn : QNum) (s : State) : Result :=
  .next (s.withQueue qn fun t k q =>
    match q.readEntry with
    | none => s.await (.qwait d qn)
    | some i =>
      if (q.entry i).takenByOther k then s.await (.qwait d qn)
      else
        (s.onQueue t qn fun q => q.setEntry i { (q.entry i).take k with passed := true }).put d
          (qwaitWord (q.offset i) (q.entry i)))

/-- Passes the read entry of a queue: freed at once if nobody took it (R175, R177). -/
def Queue.pass (q : Queue) (i : Nat) : Queue :=
  if (q.entry i).taken then q.setEntry i { q.entry i with passed := true } else q.freeEntry i

/-- `QADV` on a described queue (R177). -/
def State.qadv (s : State) (i : Instr) (qn : QNum) : State :=
  s.withQueue qn fun t _ q =>
    match q.readEntry with
    | none => s.await i
    | some j => (s.onQueue t qn fun q => q.pass j).retire

/-- `QADV` (R177). -/
def execQadv (qn : QNum) (s : State) : Result := .next (s.qadv (.qadv qn) qn)

/-- `C.QADV` (R116, R177). -/
def execCQadv (qn : QNum) (s : State) : Result := .next (s.qadv (.cQadv qn) qn)

/-- `QFREE` (R177). -/
def execQfree (qn : QNum) (a : Reg) (s : State) : Result :=
  .next (s.withQueue qn fun t k q =>
    match q.inUse.find? fun i => q.offset i = field (s.rd a) 0 18 && (q.entry i).held && (q.entry i).holder = k with
    | none => s.queueErr qn
    | some i => (s.onQueue t qn fun q => q.freeEntry i).retire)

/-- The offset of n bytes in the agent's own tile scratch, by tag 0x0 or a tag 0x1 that names it (R166, R262). -/
def State.ownRange (s : State) (a : Word) (n : Nat) : Option (TileName × Nat) :=
  match s.homeTile, s.loc a n with
  | some t, .scratch t' off => if t = t' then some (t, off) else none
  | _, _ => none

/-- Whether a read of n payload bytes of own scratch, at an address, must wait (R19, R82, R83, R191). -/
def State.payloadBusy (s : State) (a : Word) (t : TileName) (off n : Nat) : Bool := n != 0 && s.ownBusy a t off n

/-- `QPUSH` (R178): its message carries a release, and is written behind what issued earlier on the tile (R19). The spec
does not say how A is to be aligned; the model asks for a multiple of 8, as for the payload of `SEND` (R166, log entry
106). -/
def execQpush (qn : QNum) (a b : Reg) (s : State) : Result :=
  let A := s.rd a
  let len := field (s.rd b) 0 9
  let tag : BitVec 16 := BitVec.ofNat 16 (field (s.rd b) 16 16)
  .next (s.withQueue qn fun t _ q =>
    if 256 < len || q.bytes < len then s.queueErr qn
    else if len != 0 && A.toNat % 8 != 0 then s.trap .misalign A
    else match (if len = 0 then some (t, 0) else s.ownRange A len) with
      | none => s.trap .noname A
      | some (_, off) =>
        if q.free = 0 || !s.released || s.payloadBusy A t off len || s.writeBehind t (q.offset q.write.toNat) q.bytes then
          s.await (.qpush qn a b)
        else
          ((s.onQueue t qn fun q => q.assign tag len (tileId t) false).arriveEntry t qn q.write.toNat 0
            (s.mem.readN (scratchKey t off) len)).retire)

/-- Whether a message for a described queue waits in the tile's router for an entry: its header stands at the head of a
buffer there, it fits the queue, and no entry is writable (R25, R179). -/
def State.blocked (s : State) (t : TileName) (qn : QNum) : Bool :=
  let q := (s.tile t).queue qn
  q.free = 0 && s.packets.any fun p =>
    match p.2.body with
    | .msg m => m.dest = t && m.q = qn && p.2.entry.isNone && m.len ≤ q.bytes
        && (s.router (tileNode t)).ins.any fun b => match b.2.flits with | f :: _ => f.pkt = p.1 && f.idx = 0 | [] => false
    | _ => false

/-- `QSTAT` (R179). -/
def execQstat (d : Reg) (qn : QNum) (s : State) : Result :=
  .next (s.withQueue qn fun t _ q =>
    let es := q.inUse.map q.entry
    let pending := (es.filter fun e => e.waiting && e.here).length
    let held := (es.filter fun e => e.held).length
    s.put d (BitVec.ofNat 64 (pending + held * 2 ^ 9 + q.free * 2 ^ 18 + num (s.blocked t qn) * 2 ^ 27)))

/-! ## Bindings (R26, R172) -/

/-- The index of the binding of a (queue, tag) pair (R26). -/
def Tile.bindingOf (x : Tile) (q : QNum) (tag : BitVec 16) : Option Nat :=
  (upFrom 0 32).find? fun i => match x.bindings[i]? with
    | some b => b.valid && b.queue = q && b.tag = tag
    | none => false

/-- A free binding index. -/
def Tile.freeBinding (x : Tile) : Option Nat :=
  (upFrom 0 32).find? fun i => match x.bindings[i]? with | some b => !b.valid | none => false

def Tile.setBinding (x : Tile) (i : Nat) (b : Binding) : Tile := { x with bindings := x.bindings.setIfInBounds i b }

/-- `ARM` (R172). -/
def execArm (qn : QNum) (a b : Reg) (s : State) : Result :=
  let A := s.rd a
  let B := s.rd b
  let e := s.erd 0
  let tag : BitVec 16 := BitVec.ofNat 16 (field e 0 16)
  .next (s.withQueue qn fun t _ _ =>
    if bit A 0 then s.trap .misalign A
    else if 0x28000 ≤ A.toNat then s.trap .noname A
    else if B.toNat % 16 != 0 then s.trap .misalign B
    else if s.loc B 16 = .bad then s.trap .noname B
    else
      let x := s.tile t
      match (match x.bindingOf qn tag with | some i => some i | none => x.freeBinding) with
      | none => s.queueErr qn
      | some i =>
        (s.onTile t fun x => x.setBinding i
          { valid := true, queue := qn, tag := tag, entry := A, counter := B,
            share := BitVec.ofNat 32 (field e 32 32) }).retire)

/-- `DISARM` (R172). -/
def execDisarm (qn : QNum) (a : Reg) (s : State) : Result :=
  .next (s.withQueue qn fun t _ _ =>
    match (s.tile t).bindingOf qn (BitVec.ofNat 16 (field (s.rd a) 0 16)) with
    | none => s.retire
    | some i => (s.onTile t fun x => x.setBinding i Binding.none).retire)

end Sys2Proof.Machine
end

