-- ==== Sys2Proof/Machine/Msg.lean ====
section
/-! DEFINITION. Messages, drafts, the forwarding lanes, the work list, shares, the end of an activation,
and groups (R166 to R174, R185, R270). -/

namespace Sys2Proof.Machine

/-- `PRIV` with the instruction word (R46). -/
def State.privTrap (s : State) : State := s.trap .priv (zext s.iw)

/-- A tile-only instruction: `PRIV` on a proctor core (R185). -/
def State.onTileOnly (s : State) (act : TileName → BitVec 2 → State) : State :=
  match s.cur with
  | .slot t k => act t k
  | .core _ _ => s.privTrap

/-- An instruction that acts on an activation's home tile: `PRIV` for proctor code (R185). -/
def State.onHome (s : State) (act : TileName → BitVec 2 → State) : State :=
  match s.homeSlot with
  | some h => act h.1 h.2
  | none => s.privTrap

/-! ## Messages (R166, R167) -/

/-- The tile that a destination operand names (R73, R76, R166). -/
def State.messageDest (s : State) (a : Word) : Option TileName :=
  match field a 60 4 with
  | 0 => s.homeTile
  | 1 =>
    if field a 43 17 != 0 || bit a 35 || !s.tileExists (field a 24 19) then none else some (field a 24 19)
  | _ => none

/-- The offset of the payload in the issuer's own scratch (R166 check 3). -/
def State.payloadAt (s : State) (B : Word) (n : Nat) : Option Nat :=
  if n = 0 then some 0 else (s.ownRange B n).map (·.2)

/-- Checks 1 to 4 of R166 for a message of D bytes at B to the tile that A names. -/
def State.messageChecks (s : State) (A B D : Word) (act : TileName → Nat → State) : State :=
  if 256 < D.toNat then s.trap .queueErr (BitVec.ofNat 64 (field (s.erd 0) 16 3))
  else if D != 0 && B.toNat % 8 != 0 then s.trap .misalign B
  else match s.payloadAt B D.toNat with
    | none => s.trap .noname B
    | some off =>
      match s.messageDest A with
      | none => s.trap .noname A
      | some t => act t off

/-- The message that the executing agent forms (R166): its sender is the home tile, or 0 for proctor
code (R28, R185). -/
def State.formMessage (s : State) (lc : Bool) (t : TileName) (off n : Nat) : Msg :=
  let e := s.erd 0
  let payload := match s.homeTile with
    | some h => s.mem.readN (scratchKey h off) n
    | none => []
  { dest := t, q := BitVec.ofNat 3 (field e 16 3), tag := BitVec.ofNat 16 (field e 0 16), len := n, payload := payload,
    sender := match s.homeTile with | some h => tileId h | none => 0, ext := s.homeTile.isNone, lc := lc,
    wake := false, who := some s.ticket }

/-- Injects a message: a header flit and ceil(D / 32) payload flits, on VC2 or VC4 (R166, R278). -/
def State.injectMessage (s : State) (m : Msg) : State :=
  s.bump.inject (agentNode s.cur) (tileNode m.dest) (if m.lc then 4 else 2) (1 + ceilDiv m.len 32) s.stampNow false
    (.msg { m with who := some s.ticket })

/-- Whether a read of n bytes of the agent's own tile scratch must wait (R19, R82, R83, R191). -/
def State.homeBusy (s : State) (a : Word) (off n : Nat) : Bool :=
  match s.homeTile with
  | some t => s.payloadBusy a t off n
  | none => false

/-- `SEND` (R166). -/
def execSend (lc : Bool) (a b d : Reg) (s : State) : Result :=
  let D := s.rd d
  .next (s.messageChecks (s.rd a) (s.rd b) D fun t off =>
    let i : Instr := .send lc a b d
    s.releasePoint (s.await i) (s.afterRelease i
      (if s.gatesHeld || s.homeBusy (s.rd b) off D.toNat then s.await i
       else (s.injectMessage (s.formMessage lc t off D.toNat)).retire)))

/-! ## Drafts (R36, R168) -/

/-- The drafts of a slot, in the order written. -/
def Tile.draftsOf (x : Tile) (k : BitVec 2) : List Draft :=
  (upFrom 0 16).filterMap fun n =>
    (x.drafts.toList.filterMap id).find? fun d => d.slot = k && d.order = n

/-- A free draft entry. -/
def Tile.freeDraft (x : Tile) : Option Nat := (upFrom 0 16).find? fun i => (x.drafts.toList.getD i none).isNone

/-- Frees the drafts of a slot (R168). -/
def Tile.dropDrafts (x : Tile) (k : BitVec 2) : Tile :=
  { x with drafts := x.drafts.map fun d => match d with | some y => if y.slot = k then none else some y | none => none }

/-- `SENDS` (R168). -/
def execSends (lc : Bool) (a b d : Reg) (s : State) : Result :=
  let D := s.rd d
  .next (s.onTileOnly fun t k =>
    s.messageChecks (s.rd a) (s.rd b) D fun dst off =>
      let instr : Instr := .sends lc a b d
      s.releasePoint (s.await instr) (s.afterRelease instr
        (match (if s.homeBusy (s.rd b) off D.toNat then none else (s.tile t).freeDraft) with
         | none => s.await instr
         | some i =>
           let y : Draft := { msg := s.formMessage lc dst off D.toNat, dest := s.rd a, slot := k,
                              order := ((s.tile t).draftsOf k).length }
           (s.onTile t fun x => { x with drafts := x.drafts.setIfInBounds i (some y) }).retire)))

/-- The message of a draft: LENGTH of its payload bytes (R36, R328). -/
def Draft.message (d : Draft) : Msg :=
  { d.msg with len := min d.msg.len 256, payload := d.msg.payload.take (min d.msg.len 256) }

/-- `COMMIT` (R168). -/
def execCommit (s : State) : Result :=
  .next (s.releasePoint (s.await .commit)
    (match s.cur with
     | .core _ _ => s.retire
     | .slot t k =>
       let ds := (s.tile t).draftsOf k
       if ds.isEmpty then s.retire
       else if s.gatesHeld then s.await .commit
       else ((ds.foldl (fun s d => s.injectMessage d.message) s).onTile t (·.dropDrafts k)).retire))

/-- `ABORT` (R168, R185). -/
def execAbort (s : State) : Result :=
  .next (match s.cur with
    | .core _ _ => s.retire
    | .slot t k => (s.onTile t (·.dropDrafts k)).retire)

/-! ## Forwarding (R37, R169, R170, R279) -/

/-- The neighbour in a direction and its name; a position that holds no tile gives what its `NONAME`
reports: the position's name, or a value that the spec leaves open beyond the wafer's edge (R76, R169). -/
def State.neighbourTile (s : State) (t : TileName) (dir : BitVec 2) : Except (Word × State) TileName :=
  match neighbour t dir with
  | none => .error s.freeWord
  | some n => if s.tileExists n then .ok n else .error (tileId n, s)

/-- Entries of a tile's mailbox for a direction. -/
def Tile.box (x : Tile) (dir : BitVec 2) : List Word := x.mail[dir.toNat]'dir.isLt
def Tile.setBox (x : Tile) (dir : BitVec 2) (l : List Word) : Tile := { x with mail := x.mail.set dir.toNat l dir.isLt }

/-- Entries of the mailbox for a direction that are in use or promised to a value on its way (R169). -/
def State.credits (s : State) (dst : TileName) (facing : BitVec 2) : Nat :=
  ((s.tile dst).box facing).length
    + (s.lanes.filter fun l => l.2.dst = dst && opposite l.2.dir = facing).length

/-- Starts a value on a forwarding lane (R169, R209, R279). -/
def State.startLane (s : State) (src dst : TileName) (dir : BitVec 2) (v : Word) (who : Ticket) : State :=
  { s.bump with lanes := s.lanes.put s.serial { src := src, dst := dst, dir := dir, value := v, who := who } }

/-- `FWD` (R169). -/
def execFwd (dir : BitVec 2) (a : Reg) (s : State) : Result :=
  .next (s.onTileOnly fun t _ =>
    match s.neighbourTile t dir with
    | .error e => e.2.trap .noname e.1
    | .ok n =>
      s.releasePoint (s.await (.fwd dir a))
        (if s.gatesHeld || 4 ≤ s.credits n (opposite dir) then s.await (.fwd dir a)
         else (s.startLane t n dir (s.rd a) s.ticket).retire))

/-- Pops the oldest entry of a mailbox (R170). -/
def Tile.popBox (x : Tile) (dir : BitVec 2) : Tile :=
  { x.setBox dir ((x.box dir).drop 1) with
    mailHead := x.mailHead.set dir.toNat (x.mailHead[dir.toNat]'dir.isLt + 1) dir.isLt }

/-- Whether a role of `XSCAN` takes a carry, and whether it sends one: 0 mid, 1 head, 2 tail, 3 only (R113, R209). -/
def roleIn (role : BitVec 2) : Bool := role = 0 || role = 2
def roleOut (role : BitVec 2) : Bool := role = 0 || role = 1

/-- Whether a queued `XSCAN` that issued before number `n` has still to pop its carry from a mailbox (R19, R209). -/
def Tile.scanPops (x : Tile) (dir : BitVec 2) (n : Nat) : Bool :=
  x.vq.any fun c => c.id < n && c.carry.isNone
    && (match c.instr with | .xscan _ _ dirIn _ _ role => roleIn role && dirIn = dir | _ => false)

/-- Whether a slot waits in a `FWDW` on a mailbox that issued before number `n` (R19, R170). -/
def Tile.waitPops (x : Tile) (dir : BitVec 2) (n : Nat) : Bool :=
  allSlots.any fun k => (match (x.slot k).ctx.wait with | .issued (.fwdw d _) _ _ _ => d = dir | _ => false)
    && (x.slot k).ctx.popNo < n

/-- The number of a `FWDW` in the issue order of its tile: that of its issue, while it is looked at again. -/
def State.popNo (s : State) : Nat := if s.ctx.issuedAt.isSome then s.ctx.popNo else s.serial

/-- `FWDW` waits, with its number in the issue order. -/
def State.awaitPop (s : State) (i : Instr) : State :=
  (((if s.ctx.issuedAt.isSome then s else s.bump).onCtx fun c => { c with popNo := s.popNo }).await i)

/-- `FWDW` (R170): the pops of a mailbox are made in issue order (R19). -/
def execFwdw (dir : BitVec 2) (d : Reg) (s : State) : Result :=
  .next (s.onTileOnly fun t _ =>
    match s.neighbourTile t dir with
    | .error e => e.2.trap .noname e.1
    | .ok _ =>
      let x := s.tile t
      match x.box dir with
      | [] => s.awaitPop (.fwdw dir d)
      | v :: _ =>
        if x.scanPops dir s.popNo || x.waitPops dir s.popNo then s.awaitPop (.fwdw dir d)
        else (s.onTile t (·.popBox dir)).put d v)

/-! ## The work list (R171, R270) -/

def Level.size (l : Level) : Nat := if field l.ctl 32 4 = 0 then 0 else 2 ^ field l.ctl 32 4
def Level.base (l : Level) : Nat := 32 * field l.ctl 16 13
/-- Ring index of the tail, and its place in tile scratch. -/
def Level.tail (l : Level) : Nat := (l.head + l.depth) % l.size
def Level.tailOff (l : Level) : Nat := l.base + 32 * l.tail

/-- Whether the ring cannot take an entry: it is full, or its tail position holds an entry that a slot
has taken (R171). -/
def Tile.listFull (x : Tile) : Bool :=
  x.lvl.size ≤ x.lvl.depth || allSlots.any fun k => (x.slot k).taken = some x.lvl.tail

/-- Appends the 32 bytes of an entry (R171, R271). -/
def State.appendEntry (s : State) (t : TileName) (bs : List Byte) : State :=
  let l := (s.tile t).lvl
  { s with mem := s.mem.writeN (scratchKey t l.tailOff) bs }.onTile t fun x =>
    { x with lvl := { x.lvl with depth := x.lvl.depth + 1 } }

/-- `LLPUT` (R171, R270): the entry is written behind what issued earlier on the tile (R19). A list of SIZE 0 takes
`QUEUE_ERR` after the checks of A, which is the model's order (log entry 27). -/
def execLlput (a : Reg) (s : State) : Result :=
  let A := s.rd a
  .next (s.onTileOnly fun t _ =>
    if A.toNat % 32 != 0 then s.trap .misalign A
    else match s.ownRange A 32 with
      | none => s.trap .noname A
      | some (_, off) =>
        if (s.tile t).lvl.size = 0 then s.trap .queueErr 0
        else if (s.tile t).listFull || s.payloadBusy A t off 32 || s.writeBehind t (s.tile t).lvl.tailOff 32 then
          s.await (.llput a)
        else (s.appendEntry t (s.mem.readN (scratchKey t off) 32)).retire)

/-- `LLGET` (R171, R270). -/
def execLlget (d : Reg) (s : State) : Result :=
  .next (s.onTileOnly fun t k =>
    let l := (s.tile t).lvl
    if l.size = 0 || l.depth = 0 then (s.onSlot t k fun x => { x with taken := none }).put d 0
    else
      (s.onTile t fun x =>
        { x.onSlot k fun y => { y with taken := some l.head } with
          lvl := { x.lvl with head := (l.head + 1) % l.size, depth := l.depth - 1 } }).put d
        (BitVec.ofNat 64 (l.base + 32 * l.head)))

/-! ## Shares and the end of an activation (R29, R31, R173) -/

/-- `TRIG` (R173): the share is added once, as by `CADD` (R31). -/
def execTrig (s : State) : Result :=
  .next (s.onHome fun t k =>
    let x := s.slot t k
    let hold := s.await .trig
    if x.shared then s.releasePoint hold s.retire
    else
      s.counterAddr x.counter fun l => s.releasePoint hold (s.afterRelease .trig
        (let mark (s : State) : State := s.onSlot t k fun y => { y with shared := true }
         if s.ownScratch l then
           if s.updateBusy x.counter l 16 then hold
           else if s.eccBad l.key 16 then (mark s).eccStop x.counter
           else (mark (s.addAt l.home l.key (zext x.share) 0)).retire
         else if s.mustWait (.cadd (zext x.share) 0) x.counter l then hold
         else (mark (s.sendAccess (.cadd (zext x.share) 0) x.counter l none)).retire)))

/-- The accesses of the executing activation that are not yet performed, by number (R173). -/
def State.outIds (s : State) : List Nat := s.outNow.map (·.id) ++ s.vecAccesses.map (·.id)

/-- The slot after its activation has ended: FREE, with no loop level, wait or pending register; its
other registers stay as they were (R173, R326). -/
def Slot.release (x : Slot) : Slot :=
  { x with state := .free, taken := none,
           ctx := { x.ctx with loop0 := 0, loop1 := 0, wait := .none, noEnd := false, pend := [], out := [] } }

/-- What leaves a tile when an activation of slot `k` ends or is killed: its drafts, the queue entries
it holds, its share (queued with status bits, behind the accesses it waits for), a debug step (R29, R32,
R173, R330, R372). -/
def Tile.endSlot (x : Tile) (k : BitVec 2) (status epc : Word) (no : Nat) (after : List Nat) : Tile :=
  let y := x.slot k
  let x := (x.dropDrafts k).freeHeld k
  let x := if y.shared then x else
    { x with shareAdds := x.shareAdds ++ [{ counter := y.counter, share := y.share, status := status, after := after, no := no, epc := epc }] }
  let x := x.setSlot k y.release
  if x.dbgActive && x.dbgOf = k then { x with dbgCount := 0, dbgActive := false, dbgFirst := false, dbgOwed := false }
  else x

/-- `END` past its release-point check (R173). On a proctor core the activation's core becomes free (R39). -/
def State.endActivation (s : State) : State :=
  match s.cur with
  | .slot t k => s.onTile t fun x => x.endSlot k 0 s.pc s.serial s.outIds
  | .core b c =>
    match (s.core b c).home with
    | none => s
    | some (t, k, _) =>
      (s.onTile t fun x => x.endSlot k 0 s.pc s.serial s.outIds).onCore b c fun y =>
        { y with home := none, running := false, ctx := { y.ctx with wait := .none, loop0 := 0, loop1 := 0, pend := [], out := [] } }

/-- Whether an activation would add its share to a counter in a tile state space, which is closed to it (R74). -/
def State.shareClosed (s : State) (t : TileName) (k : BitVec 2) : Bool :=
  let x := s.slot t k
  !x.shared && (match s.locate (some t) x.counter 16 with | .state _ _ => true | _ => false)

/-- `END` and `C.END` (R173). A share that would go to a tile state space takes `PRIV` (R74). -/
def State.finishActivation (s : State) (i : Instr) : State :=
  s.onHome fun t k => if s.shareClosed t k then s.privTrap else s.releasePoint (s.await i) s.endActivation

/-- `END` (R173). -/
def execEnd (s : State) : Result := .next (s.finishActivation .endI)

/-- `C.END` (R116, R173). -/
def execCEnd (s : State) : Result := .next (s.finishActivation .cEnd)

/-! ## Groups (R34, R35, R174) -/

/-- Sends a `JOIN` or `LEAVE` to the directory and waits for its acknowledgement (R174). -/
def State.groupRequest (s : State) (i : Instr) (t : TileName) (g : BitVec 8) (join : Bool) : State :=
  if s.gatesHeld then s.await i
  else
    let src := agentNode s.cur
    (s.inject src (s.islandNode (s.anchor (s.regionOf t.ret)) src) 0 1 s.stampNow false
      (.group t g join s.cur s.actNow)).issueAndWait .group

/-- The groups that a tile belongs to (R34). -/
def Tile.groups (x : Tile) : List (BitVec 8) :=
  (upFrom 0 16).filterMap fun i => if bit x.groupMask i then x.groupIds.toList[i]? else none

/-- A membership is added, in the lowest entry that holds none, or removed (R34, R174, R328). -/
def Tile.joinGroup (x : Tile) (g : BitVec 8) : Tile :=
  if x.groups.contains g then x
  else match (upFrom 0 16).find? fun i => !bit x.groupMask i with
    | some i => { x with groupIds := x.groupIds.setIfInBounds i g, groupMask := x.groupMask ||| BitVec.ofNat 16 (2 ^ i) }
    | none => x

def Tile.leaveGroup (x : Tile) (g : BitVec 8) : Tile :=
  { x with groupMask := (upFrom 0 16).foldl (fun m i =>
      if x.groupIds.toList[i]? = some g then m &&& ~~~(BitVec.ofNat 16 (2 ^ i)) else m) x.groupMask }

/-- The groups that a tile has asked to join and does not yet belong to (R34, R174). -/
def State.joining (s : State) (t : TileName) : List (BitVec 8) :=
  (s.packets.filterMap fun p =>
    match p.2.body with
    | .group u g true _ _ | .groupAck u g true _ _ =>
      if u = t && !(s.tile t).groups.contains g then some g else none
    | _ => none).eraseDups

/-- `JOIN` (R174): a 17th membership, those asked for counted, takes `QUEUE_ERR`. -/
def execJoin (a : Reg) (s : State) : Result :=
  let g : BitVec 8 := BitVec.ofNat 8 (field (s.rd a) 0 8)
  .next (s.onHome fun t _ =>
    let gs := (s.tile t).groups ++ s.joining t
    if !gs.contains g && 16 ≤ gs.length then s.trap .queueErr (zext g) else s.groupRequest (.join a) t g true)

/-- `LEAVE` (R174). -/
def execLeave (a : Reg) (s : State) : Result :=
  .next (s.onHome fun t _ => s.groupRequest (.leave a) t (BitVec.ofNat 8 (field (s.rd a) 0 8)) false)

end Sys2Proof.Machine
end

