-- ==== Sys2Proof/Machine/Fabric.lean ====
section
/-! DEFINITION. The integrator fabric: cells, sources, step domains, its instructions, and the events of
its step clock (R232 to R255). -/

namespace Sys2Proof.Machine

/-! ## Cells and changes (R232, R234, R235, R246) -/

/-- A cell that is not listed. -/
def Fabric.base (f : Fabric) : Cell := if f.blank then Cell.zero else Cell.reset
def Fabric.cell (f : Fabric) (c : Nat) : Cell := f.cells.get f.base c
def Fabric.setCell (f : Fabric) (c : Nat) (x : Cell) : Fabric := { f with cells := f.cells.put c x }
def Fabric.count (f : Fabric) (k : Nat) : BitVec 32 := f.counts.get 0 k
/-- A byte of the map block: LINE for bytes 0 to 31, CSEL for 32 to 63; each resets to its index modulo 32. -/
def Fabric.mapByte (f : Fabric) (i : Nat) : Byte := f.map.get (if f.blank then 0 else BitVec.ofNat 8 (i % 32)) i
def State.onFabric (s : State) (t : TileName) (g : Fabric → Fabric) : State :=
  s.onTile t fun x => { x with fab := g x.fab }

/-- The integer −1, 0 or +1 of an OUT code; 0b10 reads 0 (R251). -/
def outInt (o : BitVec 2) : Int := if o = 1 then 1 else if o = 3 then -1 else 0

/-- The OUT code of −1, 0 or +1. -/
def outCode (z : Int) : BitVec 2 := if z = 1 then 1 else if z = -1 then 3 else 0

/-- The 2-bit code of cell c in a packed pattern (R251, R253). -/
def patternCode (bs : List Byte) (c : Nat) : BitVec 2 := BitVec.ofNat 2 (field (bs.getD (c / 4) 0) (2 * (c % 4)) 2)

/-- One dy input of a patch word (R234). -/
def dyOf (w : Nat) : DyInput :=
  { src := BitVec.ofNat 9 w, shift := BitVec.ofNat 4 (w / 2 ^ 9), gain := BitVec.ofNat 16 (w / 2 ^ 16) }

/-- The cell with the patch word of 32 bytes (R234). -/
def Cell.patch (x : Cell) (bs : List Byte) : Cell :=
  let w (i : Nat) : Nat := ofBytes ((bs.drop (4 * i)).take 4)
  { x with dx := BitVec.ofNat 9 (w 0), dy := Vector.ofFn fun j : Fin 4 => dyOf (w (j.val + 1)) }

/-- The patch word of a cell, reserved bits 0 (R234). -/
def Cell.patchBytes (x : Cell) : List Byte :=
  toBytes 4 x.dx.toNat
    ++ (x.dy.toList.map fun i => toBytes 4 (i.src.toNat + i.shift.toNat * 2 ^ 9 + i.gain.toNat * 2 ^ 16)).flatten
    ++ toBytes 12 0

/-- Applies one change (R246). -/
def Fabric.apply (f : Fabric) : FabChange → Fabric
  | .patch c bs => f.setCell c ((f.cell c).patch bs)
  | .map bs => (indexed bs).foldl (fun f b => { f with map := f.map.put b.1 b.2 }) f
  | .setY c y => f.setCell c { f.cell c with y := y }
  | .subCount k v => { f with counts := f.counts.put k (f.count k - v) }
  | .clearCount k => { f with counts := f.counts.put k 0 }

/-- The fabric with every pending change applied: what a reader of the tile sees (R246). -/
def Fabric.view (f : Fabric) : Fabric := { f.changes.foldl (fun f c => f.apply c.2) f with changes := [] }

/-- The end of an arithmetic cycle, in half cycles (R402). -/
def endOf (c : Nat) : Nat := 2 * c + 2

/-- The fabric at a boundary, given in half cycles: the changes whose issue cycle + 2 has ended apply (R246, R402). -/
def Fabric.settle (f : Fabric) (at' : Nat) : Fabric :=
  let due := f.changes.filter fun c => endOf (c.1.toNat + 2) ≤ at'
  { due.foldl (fun f c => f.apply c.2) f with changes := f.changes.filter fun c => !(endOf (c.1.toNat + 2) ≤ at') }

/-- TIMER of a tile's bulkhead (R43). -/
def State.now (s : State) (t : TileName) : Word := (s.bulk t.ret).timer

/-- Issues the changes of one command: at once while the domain is HALTED or ARMED, and at a boundary
while it is RUNNING (R246). -/
def State.changeFabric (s : State) (t : TileName) (cs : List FabChange) : State :=
  s.onFabric t fun f =>
    if f.state = 2 then { f with changes := f.changes ++ cs.map fun c => (s.now t, c) }
    else cs.foldl Fabric.apply f.view

/-! ## Domains (R240 to R244) -/

/-- The key of a tile's step domain; a tile in domain 0 is a domain of its own (R241). -/
def domainKey (t : TileName) (d : BitVec 6) : Nat := if d = 0 then 2 ^ 20 + t else 64 * t.ret + d.toNat

def State.domainOf (s : State) (t : TileName) : Nat := domainKey t (s.tile t).fab.domain
def State.domain (s : State) (k : Nat) : Domain := s.domains.get Domain.reset k
def State.onDomain (s : State) (k : Nat) (g : Domain → Domain) : State :=
  { s with domains := s.domains.put k (g (s.domain k)) }

/-- The member set of a tile's domain (R241). -/
def State.membersOf (s : State) (t : TileName) : List TileName :=
  if (s.tile t).fab.domain = 0 then [t]
  else (s.tiles.filter fun x => TileName.ret x.1 = t.ret && x.2.fab.domain = (s.tile t).fab.domain).map (·.1)

/-- The smallest non-zero STEPS that the members of a set carried when they armed, 0 when all are 0 (R243). -/
def State.budgetOf (s : State) (ms : List TileName) : Nat :=
  ms.foldl (fun m t =>
    let n := (s.tile t).fab.budget.toNat
    if n = 0 then m else if m = 0 then n else min m n) 0

/-- Takes the start of the domain of `t` when every member is ARMED (R243). -/
def State.takeStart (s : State) (t : TileName) : State :=
  let ms := s.membersOf t
  if (s.domain (s.domainOf t)).run.isNone && !ms.isEmpty && ms.all fun m => (s.tile m).fab.state = 1 then
    s.onDomain (s.domainOf t) fun d => { d with run := some (ms, s.budgetOf ms, s.now t), halt := none, stop := false }
  else s

/-- Takes the start of a domain that a member has left (R243). Where every other member had armed before, cycle t is the
cycle in which the last unarmed one leaves: the model's choice (log entry 148). -/
def State.takeStartLeft (s : State) (t : TileName) (d : BitVec 6) : State :=
  match (s.tiles.filter fun (x : Nat × Tile) => TileName.ret x.1 = t.ret && x.2.fab.domain = d).head? with
  | some x => if d = 0 then s else s.takeStart x.1
  | none => s

/-- Enrols a HALTED tile in a domain: DIV and POLICY are written at once, or held while the domain's
start is taken or it runs (R241, R242). -/
def State.enrol (s : State) (t : TileName) (div : BitVec 4) (d : BitVec 6) (policy : Bool) : State :=
  let old := (s.tile t).fab.domain
  let s := s.onFabric t fun f => { f with domain := d }
  let s := if old = d then s else s.takeStartLeft t old
  s.onDomain (domainKey t d) fun x =>
    if x.run.isSome then { x with held := some (div, policy) } else { x with div := div, policy := policy }

/-- DDA_CTL (R240). -/
def State.ddaCtl (s : State) (t : TileName) : Word :=
  let f := (s.tile t).fab
  let d := s.domain (s.domainOf t)
  BitVec.ofNat 64 (d.div.toNat + f.domain.toNat * 2 ^ 4 + num d.policy * 2 ^ 10 + f.steps.toNat * 2 ^ 32)

/-- DDA_STAT (R245). -/
def Fabric.stat (f : Fabric) : Word :=
  BitVec.ofNat 64 (f.state.toNat + num f.sat * 4 + num f.flt * 8 + num f.xdom * 16 + num f.badsrc * 32
    + num (!f.inj.isEmpty) * 64 + num f.eccu * 128 + f.ovcell.toNat * 2 ^ 8 + f.stepn.toNat * 2 ^ 32)

/-- Clears the sticky bits of DDA_STAT that an operand names (R183, R245). -/
def Fabric.clearStat (f : Fabric) (v : Word) : Fabric :=
  { f with sat := f.sat && !bit v 2, flt := f.flt && !bit v 3, xdom := f.xdom && !bit v 4,
           badsrc := f.badsrc && !bit v 5, eccu := f.eccu && !bit v 7 }

/-- `DRUN` on a tile (R243): it arms with its STEPS as they are now. -/
def State.armFabric (s : State) (t : TileName) (a : Option Armed) : State :=
  if (s.tile t).fab.state = 0 then
    (s.onFabric t fun f => { f with state := 1, armed := a, budget := f.steps, was := 0 }).takeStart t
  else s

/-- The waits of a tile's slots for a HALTED fabric are complete (R155, R238, R252). -/
def State.dwaitDone (s : State) (t : TileName) : State :=
  allSlots.foldl (fun s k =>
    match (s.slot t k).ctx.wait with
    | .issued .dwait _ _ _ => s.endsWait (.slot t k)
    | _ => s) s

/-- `DHALT` on a tile (R252). -/
def State.haltFabric (s : State) (t : TileName) : State :=
  let f := (s.tile t).fab
  let taken := match (s.domain (s.domainOf t)).run with | some r => r.1.contains t | none => false
  if f.state = 0 then s
  else if taken then
    s.onDomain (s.domainOf t) fun d => { d with halt := match d.halt with | some x => some x | none => some (s.now t) }
  else (s.onFabric t fun f => { f with state := 0, armed := none }).dwaitDone t

/-- The end of a domain's run: a held DIV and POLICY are written (R242). -/
def Domain.ended (d : Domain) : Domain :=
  let h := d.held.getD (d.div, d.policy)
  { d with div := h.1, policy := h.2, held := none, run := none, started := false, halt := none, stop := false }

/-- A tile leaves its domain and its fabric returns to its reset values (R255). -/
def State.resetFabric (s : State) (t : TileName) : State :=
  let d := (s.tile t).fab.domain
  let k := s.domainOf t
  let s := s.onFabric t fun _ => Fabric.reset
  let s := s.onDomain k fun x => { x with run := x.run.map fun r => (r.1.filter (· != t), r.2) }
  let s := if (match (s.domain k).run with | some r => r.1.isEmpty | none => false) then s.onDomain k Domain.ended else s
  { s with domains := s.domains.del (domainKey t 0) }.takeStartLeft t d

/-! ## The save image (R251) -/

/-- Packs a 2-bit code per cell into 64 bytes. -/
def packOut (f : Fabric) : List Byte :=
  (upFrom 0 64).map fun i =>
    BitVec.ofNat 8 ((f.cell (4 * i)).out.toNat + (f.cell (4 * i + 1)).out.toNat * 4
      + (f.cell (4 * i + 2)).out.toNat * 16 + (f.cell (4 * i + 3)).out.toNat * 64)

/-- The 2 304 bytes that `DSAVE` writes (R251). -/
def State.fabricImage (s : State) (t : TileName) : List Byte :=
  let f := (s.tile t).fab.view
  ((upFrom 0 256).map fun c => toBytes 4 (f.cell c).y.toNat).flatten
    ++ ((upFrom 0 256).map fun c => toBytes 4 (f.cell c).res.toNat).flatten
    ++ ((upFrom 0 32).map fun k => toBytes 4 (f.count k).toNat).flatten
    ++ packOut f ++ bytesOf f.stat ++ bytesOf (s.ddaCtl t) ++ toBytes 48 0

/-- Clamps an integer to ±2^24 (R237). -/
def clampY (y : Int) : Int := max (-16777216) (min 16777216 y)

/-- A cell restored from an image (R251). -/
def Cell.restore (x : Cell) (bs : List Byte) (c : Nat) : Cell :=
  let w (o : Nat) : Nat := ofBytes ((bs.drop o).take 4)
  { x with y := BitVec.ofInt 32 (clampY (signed 32 (w (4 * c)))), res := BitVec.ofNat 24 (w (0x400 + 4 * c)),
           out := outCode (outInt (patternCode (bs.drop 0x880) c)) }

/-- The fabric restored from an image (R251). -/
def Fabric.restore (f : Fabric) (bs : List Byte) : Fabric :=
  let f := f.view
  let w (o : Nat) : Nat := ofBytes ((bs.drop o).take 4)
  let st : Word := wordOf ((bs.drop 0x8C0).take 8)
  let clamped := (upFrom 0 256).any fun c => clampY (signed 32 (w (4 * c))) != signed 32 (w (4 * c))
  let cells := (upFrom 0 256).foldl (fun m c =>
    let x := (m.get f.base c).restore bs c
    if x = f.base then m.del c else m.put c x) f.cells
  let counts := (upFrom 0 32).foldl (fun m k => m.put k (BitVec.ofNat 32 (w (0x800 + 4 * k)))) f.counts
  { f with cells := cells, counts := counts, sat := bit st 2 || clamped, flt := bit st 3, xdom := bit st 4,
           badsrc := bit st 5, eccu := bit st 7, ovcell := BitVec.ofNat 8 (field st 8 8),
           stepn := BitVec.ofNat 32 (field st 32 32) }

/-! ## Instructions (R248 to R254) -/

/-- The checks of R248 on an operand range of own scratch, and the waits of the slot's accesses to it (R82, R83,
R191). -/
def State.fabricRange (s : State) (a : Word) (align n : Nat) (act : TileName → Nat → State) : State :=
  s.onTileOnly fun _ _ =>
    if a.toNat % align != 0 then s.trap .misalign a
    else if n = 0 then (match s.homeTile with | some t => act t 0 | none => s)
    else match s.ownRange a n with
      | none => s.trap .noname a
      | some (t, off) => if s.ownBusy a t off n then s.retry else act t off

/-- The bytes that a fabric instruction loads from own scratch at an address. A word with an uncorrectable error takes
`ECC_UE` with its address, as a load of it would (R139, R248). The instruction then transfers nothing at all, and EVAL is
the address of the first such word, where R139 speaks of a single load: the model's choice (log entry 147). -/
def State.fabricLoad (s : State) (a : Word) (t : TileName) (off n : Nat) (act : List Byte → State) : State :=
  let key := scratchKey t off
  match s.cur, (if n = 0 then none else (s.eccWords key n).head?) with
  | .slot _ k, some w =>
    (s.retire.foundEcc key n).lateTrap t k .eccUe s.pc (a + BitVec.ofNat 64 (8 * w - key))
  | _, _ => act (s.mem.readN key n)

/-- `ILLEGAL` with the instruction word (R46). -/
def State.illegal (s : State) : State := s.trap .illegal (zext s.iw)

/-- `DPATCH` (R249). -/
def execDpatch (cell : BitVec 9) (a d : Reg) (s : State) : Result :=
  let A := s.rd a
  .next (if bit cell 8 then
      s.fabricRange A 32 64 fun t off => s.fabricLoad A t off 64 fun bs => (s.changeFabric t [.map bs]).retire
    else
      let n := min (s.rd d).toNat (256 - cell.toNat)
      s.fabricRange A 32 (32 * n) fun t off => s.fabricLoad A t off (32 * n) fun bs =>
        (s.changeFabric t ((upFrom 0 n).map fun i =>
          .patch (cell.toNat + i) ((bs.drop (32 * i)).take 32))).retire)

/-- Y from an FP32 value (R70). -/
def yOfFP (a : Nat) : BitVec 32 :=
  BitVec.ofInt 32 (match fp32.value (a % 2 ^ 32) with
    | .fin neg m e => (FP.fin neg m (e + 24)).toInt 0 (-16777216) 16777216
    | x => x.toInt 0 (-16777216) 16777216)

/-- `DSET` (R250). -/
def execDset (cell : BitVec 8) (a : Reg) (s : State) : Result :=
  .next (s.onTileOnly fun t _ => (s.changeFabric t [.setY cell.toNat (yOfFP (s.rd a).toNat)]).retire)

/-- Y / 2^24 as FP32 (R70). -/
def fpOfY (y : BitVec 32) : Nat := toFP32 (.fin (y.toInt < 0) y.toInt.natAbs (-24))

/-- `DGET` (R250). -/
def execDget (d : Reg) (cell : BitVec 8) (s : State) : Result :=
  .next (s.onTileOnly fun t _ => s.put d (BitVec.ofNat 64 (fpOfY ((s.tile t).fab.view.cell cell.toNat).y)))

/-- `DRES` (R250). -/
def execDres (d : Reg) (cell : BitVec 8) (s : State) : Result :=
  .next (s.onTileOnly fun t _ =>
    let x := (s.tile t).fab.view.cell cell.toNat
    s.put d (BitVec.ofNat 64 (x.res.toNat + wrap 32 (outInt x.out) * 2 ^ 32)))

/-- `DSAVE` (R251). -/
def execDsave (a : Reg) (s : State) : Result :=
  .next (s.fabricRange (s.rd a) 64 2304 fun t off =>
    if s.codeLocked t off 2304 then s.privTrap
    else if (s.tile t).fab.state != 0 then s.illegal
    else if s.writeBehind t off 2304 then s.retry
    else (s.storeBytes (scratchKey t off) (indexed (s.fabricImage t))).retire)

/-- `DLOAD` (R251). -/
def execDload (a : Reg) (s : State) : Result :=
  .next (s.fabricRange (s.rd a) 64 2304 fun t off =>
    if (s.tile t).fab.state != 0 then s.illegal
    else s.fabricLoad (s.rd a) t off 2304 fun bs => (s.onFabric t (·.restore bs)).retire)

/-- `DCLK` (R252). -/
def execDclk (div : BitVec 4) (a : Reg) (s : State) : Result :=
  let A := s.rd a
  .next (s.onTileOnly fun t _ =>
    if (s.tile t).fab.state != 0 then s.illegal
    else (s.enrol t div (BitVec.ofNat 6 (field A 0 6)) (bit A 8)).retire)

/-- `DSTEP` (R252). -/
def execDstep (a : Reg) (s : State) : Result :=
  .next (s.onTileOnly fun t _ =>
    (s.onFabric t fun f => { f with steps := BitVec.ofNat 32 (field (s.rd a) 0 32) }).retire)

/-- `DRUN` (R243, R252). -/
def execDrun (s : State) : Result :=
  .next (s.onTileOnly fun t k => (s.armFabric t (some { slot := k, act := s.actNow, epc := s.pc })).retire)

/-- `DHALT` (R252). -/
def execDhalt (s : State) : Result := .next (s.onTileOnly fun t _ => (s.haltFabric t).retire)

/-- `DWAIT` (R252). -/
def execDwait (s : State) : Result :=
  .next (s.onTileOnly fun t _ => if (s.tile t).fab.state = 0 then s.retire else s.await .dwait)

/-- `DRDC` and `DRDC.clr` (R254). -/
def execDrdc (clr : Bool) (d : Reg) (cnt : BitVec 5) (s : State) : Result :=
  .next (s.onTileOnly fun t _ =>
    let v := (s.tile t).fab.view.count cnt.toNat
    (if clr then s.changeFabric t [.subCount cnt.toNat v] else s).put d (sext v))

/-- `DCLRC` (R254). -/
def execDclrc (cnt : BitVec 5) (s : State) : Result :=
  .next (s.onTileOnly fun t _ => (s.changeFabric t [.clearCount cnt.toNat]).retire)

/-- `DSTAT` (R254). -/
def execDstat (d : Reg) (s : State) : Result := .next (s.onTileOnly fun t _ => s.put d (s.tile t).fab.stat)

/-- Whether a pattern issued in a cycle applies to the step that began at `edge` (R253, R402). -/
def injDue (edge : Nat) (i : Word × List Byte) : Bool := endOf (i.1.toNat + 2) ≤ edge

/-- The patterns that a step under way has taken: a later `DINJ` does not replace them (R253). -/
def State.injTaken (s : State) (t : TileName) : List (Word × List Byte) :=
  let d := s.domain (s.domainOf t)
  let runs := d.started && !d.stop && (match d.run with | some r => r.1.contains t | none => false)
  if runs then (s.tile t).fab.inj.filter (injDue d.edge) else []

/-- `DINJ` (R253): it replaces a pattern that no step has taken. -/
def execDinj (a : Reg) (s : State) : Result :=
  .next (s.fabricRange (s.rd a) 64 64 fun t off => s.fabricLoad (s.rd a) t off 64 fun bs =>
    (s.onFabric t fun f => { f with inj := s.injTaken t ++ [(s.now t, bs)] }).retire)

/-! ## The step rule (R233, R236, R237) -/

/-- What a source gives: its value, and whether the read sets XDOM or BADSRC (R233). -/
structure SourceRead where
  v : Int
  xdom : Bool
  badsrc : Bool
  deriving DecidableEq, Repr

/-- The value of a source for the step before (R233), with the members of the run. -/
def State.source (s : State) (ms : List TileName) (t : TileName) (code : BitVec 9) : SourceRead :=
  let n := code.toNat
  if n < 256 then { v := outInt ((s.tile t).fab.cell n).out, xdom := false, badsrc := false }
  else if n = 256 then { v := 1, xdom := false, badsrc := false }
  else if n = 257 then { v := 0, xdom := false, badsrc := false }
  else if n < 290 then
    let dir : BitVec 2 := BitVec.ofNat 2 ((n - 258) / 8)
    match neighbour t dir with
    | none => { v := 0, xdom := true, badsrc := false }
    | some u =>
      if !s.tileExists u || u.ret != t.ret || !ms.contains u || (s.tile t).fab.domain = 0 then
        { v := 0, xdom := true, badsrc := false }
      else
        let g := (s.tile u).fab
        { v := outInt (g.cell (g.mapByte (8 * (opposite dir).toNat + (n - 258) % 8)).toNat).out, xdom := false,
          badsrc := false }
  else { v := 0, xdom := false, badsrc := true }

/-- The result of a cell's step: the new cell, an overrun, and the status its reads set. -/
structure CellStep where
  cell : Cell
  ovr : Bool
  xdom : Bool
  badsrc : Bool
  deriving DecidableEq, Repr

/-- One cell's step, with the injection code of its pattern (R236, R253). -/
def State.stepCell (s : State) (ms : List TileName) (t : TileName) (x : Cell) (inj : BitVec 2) : CellStep :=
  let dx := s.source ms t x.dx
  let dys := x.dy.toList.map fun i => (i, s.source ms t i.src)
  let tr : Int := (x.res.toNat : Int) + dx.v * x.y.toInt
  let dz := if dx.v = 0 then 0 else tr / 16777216
  let res := if dx.v = 0 then (x.res.toNat : Int) else tr - dz * 16777216
  let y := dys.foldl (fun a i => a + i.1.gain.toInt * ((2 ^ i.1.shift.toNat : Nat) : Int) * i.2.v) x.y.toInt
  { cell := { x with y := BitVec.ofInt 32 (clampY y), res := BitVec.ofInt 24 res,
                     out := if inj = 0 then outCode dz else outCode (outInt inj) },
    ovr := clampY y != y, xdom := dx.xdom || dys.any (·.2.xdom), badsrc := dx.badsrc || dys.any (·.2.badsrc) }

/-- The cells of a member that a step can change or read for: an unlisted cell is at its reset value, whose sources are all
257, or zero with gains of 0 on a local source, so that a step leaves it as it is. -/
def Fabric.active (f : Fabric) (inj : List Byte) : List Nat :=
  (upFrom 0 256).filter fun c => (f.cells.find? c).isSome || patternCode inj c != 0

/-- The injection that applies to the step that began at `edge` (R253). -/
def Fabric.dueInj (f : Fabric) (edge : Nat) : Option (List Byte) :=
  match f.inj with
  | i :: _ => if injDue edge i then some i.2 else none
  | [] => none

/-- One member's fabric after a step: new cells and counts, and the status of R233 and R237. -/
def State.stepFabric (s : State) (ms : List TileName) (policy : Bool) (edge : Nat) (t : TileName) (f : Fabric) : Fabric :=
  let inj := (f.dueInj edge).getD []
  let rs := (f.active inj).map fun c => (c, s.stepCell ms t (f.cell c) (patternCode inj c))
  let cells := rs.foldl (fun m r => m.put r.1 r.2.cell) f.cells
  let out (c : Nat) : Int := outInt (cells.get f.base c).out
  let counts := (upFrom 0 32).foldl (fun m k =>
    m.put k (f.count k + BitVec.ofInt 32 (out (f.mapByte (32 + k)).toNat))) f.counts
  let ovr := rs.find? fun r => r.2.ovr
  { f with cells := cells, counts := counts, stepn := f.stepn + 1,
           xdom := f.xdom || rs.any (·.2.xdom), badsrc := f.badsrc || rs.any (·.2.badsrc),
           sat := f.sat || (policy && ovr.isSome),
           ovcell := match ovr with | some r => BitVec.ofNat 8 r.1 | none => f.ovcell,
           inj := if (f.dueInj edge).isSome then f.inj.drop 1 else f.inj }

/-- Whether a member overruns in a step. -/
def State.overruns (s : State) (ms : List TileName) (edge : Nat) (t : TileName) : Bool :=
  let f := (s.tile t).fab
  let inj := (f.dueInj edge).getD []
  (f.active inj).any fun c => (s.stepCell ms t (f.cell c) (patternCode inj c)).ovr

/-- Memory key of the fabric state area of a tile, for errors in its cells (R326). -/
def fabricKey (t : TileName) : Nat := scratchKey t 0x830000

/-- The memory keys of a cell's state, with sizes: Y, RES, OUT, patch word (R232, R326). -/
def cellKeys (t : TileName) (c : Nat) : List (Nat × Nat) :=
  [(fabricKey t + 4 * c, 4), (fabricKey t + 0x400 + 4 * c, 4), (fabricKey t + 0x880 + c / 4, 1),
   (fabricKey t + 0x1000 + 32 * c, 32)]

/-- The lowest cell of a tile whose state holds an uncorrectable error (R239). -/
def State.badCell (s : State) (t : TileName) : Option Nat :=
  if s.ecc.isEmpty then none
  else (upFrom 0 256).find? fun c => (cellKeys t c).any fun k => s.eccBad k.1 k.2

/-- `DDA_OVERRUN` of a member: to the slot that armed the run, whose `DWAIT` is complete, or a record that names no slot
(R238): its EPC is that of the `DRUN`, and 0 where no slot armed the tile (DESIGN CHOICE, log entry 129). -/
def State.overrunTrap (s : State) (t : TileName) : State :=
  let cell : Word := zext (s.tile t).fab.ovcell
  match (s.tile t).fab.armed with
  | some a =>
    let x := s.slot t a.slot
    if x.act = a.act && (x.state = .ready || x.state = .waiting || x.state = .parked) then
      (match x.ctx.wait with | .issued .dwait _ _ _ => s.endsWait (.slot t a.slot) | _ => s).lateTrap t a.slot .ddaOverrun
        a.epc cell
    else s.noSlotRecord t .ddaOverrun a.epc cell
  | none => s.noSlotRecord t .ddaOverrun 0 cell

/-- Whether the region of a tile's domain is frozen or its tile stopped (R244, R335). -/
def State.stopped (s : State) (t : TileName) : Bool := (s.tile t).pre != 0 || (s.bulk t.ret).st = .frozen

/-! ## Events of the step clock -/

/-- Ends of the cycles of a clock of `rate` cycles to `per` nominal periods, among n periods after `t`. -/
def cyclesIn (rate per t n : Nat) : Nat := rate * (t + n) / per - rate * t / per

/-- The next edge of a step clock that can fall in the nominal period after `time`, in half periods: at DIV 0 one falls in
the middle of a period and one at its end, otherwise one at its end (R8, R240). -/
def Domain.nextHalf (d : Domain) (time : Nat) : Nat :=
  if d.div = 0 && d.half < 2 * time + 1 then 2 * time + 1 else 2 * time + 2

/-- An edge of the period under way as the arithmetic cycles of a tile's bulkhead hold it, in half cycles of TIMER: it
coincides with the end of its cycle or falls within it. A cap stretches the cycles and not the step clock (R8, R402). -/
def State.edgeOf (s : State) (t : TileName) (half : Nat) : Nat :=
  if half = 2 * s.time + 2 && cyclesIn (s.powerOf t.ret).clkn 64 s.time 1 != 0 then endOf (s.now t).toNat
  else 2 * (s.now t).toNat + 1

/-- The edge in the period under way on which a run can start, if there is one at or after the end of cycle `c` (R243). -/
def State.startEdge (s : State) (t : TileName) (d : Domain) (c : Nat) : Option Nat :=
  [d.nextHalf s.time, 2 * s.time + 2].find? fun h => endOf c ≤ s.edgeOf t h

/-- `DOMAIN_START` (R243): the members of a run whose start was taken switch to RUNNING on the start edge. -/
def execDomainStart (t : TileName) (s : State) : Result :=
  let k := s.domainOf t
  let d := s.domain k
  .next (match d.run with
    | none => s
    | some (ms, _, taken) =>
      let late := if (s.tile t).fab.domain = 0 then 2 else 12
      match s.startEdge t d (taken.toNat + late) with
      | none => s
      | some h =>
        if d.started then s else
        (ms.foldl (fun s m => s.onFabric m fun f => { f.view with state := 2, stepn := 0, was := 0 }) s).onDomain k fun d =>
          { d with started := true, edge := s.edgeOf t h, half := h })

/-- `FABRIC_STEP` (R236): one step of every member of a running domain, with the conditions of R244 found
at its boundary. A step takes one period of the step clock, 2^DIV half periods (R240): no boundary falls earlier. The
`ECC_UE` record of R239 names no slot, and its EPC is 0 (DESIGN CHOICE, log entry 129). -/
def execFabricStep (t : TileName) (s : State) : Result :=
  let k := s.domainOf t
  let d := s.domain k
  .next (match d.run with
    | none => s
    | some (ms, budget, _) =>
      let half := d.nextHalf s.time
      if !d.started || d.stop || !ms.contains t || half < d.half + 2 ^ d.div.toNat then s
      else
        let now := s.edgeOf t half
        let ovr := ms.filter fun m => s.overruns ms d.edge m
        let fault := !d.policy && !ovr.isEmpty
        let bad := ms.filter fun m => (s.badCell m).isSome
        let late := if (s.tile t).fab.domain = 0 then 2 else 12
        let s1 := ms.foldl (fun s' m =>
          s'.onFabric m fun _ =>
            let f := s.stepFabric ms d.policy d.edge m (s.tile m).fab
            { f with flt := f.flt || fault, eccu := f.eccu || bad.contains m }.settle now) s
        let s2 := s1.onDomain k fun d =>
          { d with edge := now, half := half,
                   stop := fault || !bad.isEmpty || (budget != 0 && budget ≤ (s1.tile t).fab.stepn.toNat)
                     || (ms.any fun m => s.stopped m)
                     || (match d.halt with | some h => decide (endOf (h.toNat + late) ≤ now) | none => false) }
        let s3 := if fault then ovr.foldl State.overrunTrap s2 else s2
        bad.foldl (fun s m =>
          let c := (s.badCell m).getD 0
          ((cellKeys m c).foldl (fun s k => s.foundEcc k.1 k.2) s).noSlotRecord m .eccUe 0 (BitVec.ofNat 64 c)) s3)

/-- `DOMAIN_HALT` (R244): at a boundary that meets a condition of R244 every member halts, its `DWAIT`s complete, and a
held DIV and POLICY are written (R242, R252). -/
def execDomainHalt (t : TileName) (s : State) : Result :=
  let k := s.domainOf t
  let d := s.domain k
  .next (match d.run with
    | none => s
    | some (ms, _, _) =>
      if !d.started || !d.stop then s
      else
        ((ms.foldl (fun s m => (s.onFabric m fun f =>
          { f.view with state := 0, was := if s.stopped m then 2 else 0 }).dwaitDone m) s).onDomain k
            Domain.ended).takeStart t)

end Sys2Proof.Machine
end

