-- ==== Sys2Proof/Machine/Arbiter.lean ====
section
/-! DEFINITION. What a router would forward next: which packets a destination takes, which flits may move, and the
choice among them (R25, R95, R271, R281 to R284, R325). -/

namespace Sys2Proof.Machine

/-! ## What a destination takes (R25, R156, R271, R325) -/

/-- Whether a message is discarded at its destination: an undescribed queue, or a payload longer than the entry. -/
def State.badMessage (s : State) (m : Msg) : Bool :=
  let q := (s.tile m.dest).queue m.q
  !q.valid || q.bytes < m.len

/-- Whether a ring of trap records can take one (R325). -/
def Island.ringFull (x : Island) : Bool := x.tqtail + 1 = x.tqhead

/-- Whether another packet of a kind has begun to arrive at a bulkhead and is not yet consumed. -/
def State.arriving (s : State) (p : Nat) (kind : Body → Bool) : Bool :=
  s.packets.any fun k => k.1 != p && kind k.2.body && k.2.got != 0

/-- Whether a port's lanes carry frames: UP or KEYWAIT. -/
def Port.works (x : Port) : Bool := x.st = 1 || x.st = 2

/-- Whether a port takes a payload of the mesh: a DOWN port, which refuses it, or one that runs no test and has sent the
payload before (R25, R363, R374). -/
def Port.takes (x : Port) : Bool := x.st = 0 || (x.works && !x.run && x.txq.isEmpty)

/-- Whether no packet injected before packet p is bound for or comes from the same port: the registrar's payloads keep
their order (DESIGN CHOICE, log entry 86). -/
def State.linkFirst (s : State) (p : Nat) (same : Body → Bool) : Bool := !s.packets.any fun k => k.1 < p && same k.2.body

/-- Whether the destination takes the header of a packet now: a message waits for a free entry, a trap record
for room in the ring, a work entry for room in the list, a payload for its port. -/
def State.accepts (s : State) (p : Nat) (k : Packet) : Bool :=
  match k.body with
  | .msg m => s.badMessage m || ((s.tile m.dest).queue m.q).free != 0
  | .trapRec r => !(s.island r.island).ringFull
      && !(s.arriving p fun b => match b with | .trapRec x => x.island = r.island | _ => false)
  | .level _ t _ => !(s.tile t).listFull && !(s.arriving p fun b => match b with | .level _ u _ => u = t | _ => false)
  | .linkOut q _ _ => (s.port (q / 8) (q % 8)).takes && s.linkFirst p fun b => match b with | .linkOut x _ _ => x = q | _ => false
  | .linkIn q _ _ => s.linkFirst p fun b => match b with | .linkIn x _ _ => x = q | _ => false
  | _ => true

/-! ## Arbitration (R281 to R284) -/

def Router.buf (r : Router) (i vc : Nat) : InBuf := r.ins.get InBuf.empty (8 * i + vc)
def Router.setBuf (r : Router) (i vc : Nat) (b : InBuf) : Router := { r with ins := r.ins.put (8 * i + vc) b }
def Router.out (r : Router) (port : Nat) : OutPort := r.outs.get OutPort.reset port
def OutPort.holder (o : OutPort) (vc : Nat) : Option Nat := o.hold.toList.getD vc none
def OutPort.budgetAt (o : OutPort) (vc : Nat) : Nat := o.budget.toList.getD vc 0

/-- Weight of a VC (R284). -/
def Island.weight (x : Island) (vc : Nat) : Nat := max 1 (field x.arbcfg (4 * vc) 4)
def Island.ageLimit (x : Island) : Nat := field x.arbcfg 32 10

/-- The head flit of an input buffer that is bound for a port, with space beyond (R281). -/
def State.headFor (s : State) (node port i vc : Nat) : Option (Flit × Packet) :=
  match ((s.router node).buf i vc).flits with
  | [] => none
  | f :: _ =>
    match s.packets.find? f.pkt with
    | none => none
    | some k =>
      if s.portFor node k.dst != port then none
      else if k.body = .dropped && isGateway node then some (f, k)
      else match s.nextNode node port k.dst with
        | some n => if ((s.router n.1).buf n.2 vc).flits.length < 4 then some (f, k) else none
        | none => if f.idx != 0 || s.accepts f.pkt k then some (f, k) else none

/-- The head flit of an input buffer that a port may forward now: its VC is free there for a header, or held by its
own packet (R281). -/
def State.eligible (s : State) (node port i vc : Nat) : Option (Flit × Packet) :=
  match s.headFor node port i vc with
  | none => none
  | some x =>
    match ((s.router node).out port).holder vc with
    | some p => if p = x.1.pkt then some x else none
    | none => if x.1.idx = 0 then some x else none

/-- The inputs in the cyclic order of R281, after the one that last began a packet of a VC at the port. -/
def inputOrder (last : Nat) : List Nat := (upFrom (last + 1) 5).map (· % 5)

/-- The input that a VC is served from at a port (R281): on VC1 a marked packet first, the oldest of them. -/
def State.inputFor (s : State) (node port vc : Nat) : Option Nat :=
  let r := s.router node
  let order := inputOrder ((r.out port).lastIn.toList.getD vc 4)
  let ready := order.filter fun i => (s.eligible node port i vc).isSome
  let marked := ready.filter fun i => match s.eligible node port i vc with | some x => x.2.marked | none => false
  if vc = 1 && !marked.isEmpty then
    let oldest := marked.foldl (fun a i => max a (r.buf i vc).age) 0
    marked.find? fun i => (r.buf i vc).age = oldest
  else ready.head?

/-- Whether the packet at the head of a buffer is promoted, under an AGE_LIMIT (R283). -/
def InBuf.isPromoted (b : InBuf) (limit : Nat) : Bool := limit != 0 && (b.promoted || b.age = limit)

/-- The promoted flits of a port: input and VC to serve, with the age (R283). A held VC is served from its holder. -/
def State.promotedAt (s : State) (node port : Nat) : List (Nat × Nat × Nat) :=
  let r := s.router node
  let limit := (s.island (node / 4096)).ageLimit
  ((upFrom 0 8).map fun vc =>
    (inputOrder ((r.out port).lastIn.toList.getD vc 4)).filterMap fun i =>
      let b := r.buf i vc
      if !b.isPromoted limit || (s.headFor node port i vc).isNone then none
      else if (s.eligible node port i vc).isSome then some (i, vc, b.age)
      else (s.inputFor node port vc).map fun j => (j, vc, b.age)).flatten

/-- The first of the entries with the highest age. -/
def oldestOf (l : List (Nat × Nat × Nat)) : Option (Nat × Nat) :=
  let top := l.foldl (fun a x => max a x.2.2) 0
  (l.find? fun x => x.2.2 = top).map fun x => (x.1, x.2.1)

/-- The choice of R282 among VCs: the VC, and the budgets after a reload if one was due. -/
def OutPort.choose (o : OutPort) (w : Nat → Nat) (vcs : List Nat) : Option Nat × OutPort :=
  let o := if !vcs.isEmpty && vcs.all fun v => o.budgetAt v = 0 then { o with budget := Vector.ofFn fun i : Fin 8 => w i.val } else o
  let order := (upFrom o.ptr 8).map (· % 8)
  (order.find? fun v => vcs.contains v && o.budgetAt v != 0, o)

end Sys2Proof.Machine
end

