-- ==== Sys2Proof/Machine/TileRegs.lean ====
section
/-! DEFINITION. The state registers of a tile, what drains a tile and a region, and the translations that
an invalidation meets (R41 to R45, R100, R164, R192, R270, R315, R332 to R336). -/

namespace Sys2Proof.Machine

/-- Whether the vector unit of a tile is held by a command that a station has stalled (R192, R194). -/
def State.unitHeld (s : State) (t : TileName) : Bool :=
  s.packets.any fun p =>
    (match p.2.place with | .stalled _ _ => true | _ => false)
      && (match p.2.body.req? with | some r => (match r.who.origin with | .vec u _ _ _ => u = t | _ => false) | none => false)

/-! ## Draining (R336) -/

/-- The tile's part of R336. A joined operation that waits for the array, whose join is complete, and an `MSCA` count as
running, and share adds that have not left as requests, since the save image has no place for them (log entry 66);
arrivals whose join is not complete may remain. A `JOIN` or `LEAVE` whose answer has not come is a request not yet
acknowledged. -/
def State.tileDrained (s : State) (t : TileName) : Bool :=
  let x := s.tile t
  x.vq.isEmpty && x.mat.running.isNone && x.mat.scRunning.isNone && x.mat.scWaiting.isNone && x.mat.waiting.isNone
    && x.sq.isEmpty
    && !(s.packets.any fun p => match p.2.body with | .level src _ _ => src = t | _ => false)
    && !(s.lanes.any fun l => l.2.src = t)
    && !(s.packets.any fun p => match p.2.body with | .group u _ _ _ _ | .groupAck u _ _ _ _ => u = t | _ => false)
    && x.offTile.isEmpty && x.sysOut = 0 && x.shareAdds.isEmpty && (allSlots.all fun k => (x.slot k).ctx.wait != .group)
    && (allSlots.all fun k => (x.slot k).ctx.out.all fun o =>
         match (x.slot k).ctx.wait with | .remote rid _ => o.id = rid | _ => false)
    && x.outst = 0 && x.fab.state = 0

/-- The listed tiles of a region; a tile that is not listed is as tile reset leaves it: it runs, and has nothing to
drain. -/
def State.tilesOf (s : State) (region : Nat) : List TileName :=
  (s.tiles.filter fun (x : Nat × Tile) => s.regionOf (TileName.ret x.1) = region).map (·.1)

/-- Whether a message can go no further until a queue entry frees: no router has a flit of it that may move, and no
gateway router holds one (R25, R281, R336). Flits that its sender holds stay behind those. -/
def State.standsStill (s : State) (p : Nat) : Bool :=
  s.routers.all fun r => r.2.ins.all fun b =>
    if isGateway r.1 then b.2.flits.all fun f => f.pkt != p
    else match b.2.flits with
      | f :: _ => f.pkt != p || (upFrom 0 5).all fun port => (s.eligible r.1 port (b.1 / 8) (b.1 % 8)).isNone
      | [] => true

/-- Whether a packet may remain in a drained region: a message that waits for a queue entry, its own or that of one
before it, or a migrated activation that has reached its island and waits for a core (R25, R182, R336). -/
def State.mayRemain (s : State) (p : Nat) (k : Packet) : Bool :=
  match k.body with
  | .msg _ => k.entry.isNone && k.place = .moving && s.standsStill p
  | .migrate _ => k.place = .arrived
  | _ => false

/-- Whether a router holds no flit but those of messages that may remain; a gateway router holds none (R336). -/
def State.routerDrained (s : State) (node : Nat) (r : Router) : Bool :=
  r.ins.all fun b => (b.2.flits ++ b.2.behind).all fun f =>
    !isGateway node && (match s.packets.find? f.pkt with | some k => s.mayRemain f.pkt k | none => false)

/-- Whether a packet that has left the routers holds a region back: one that has reached it, but for a request at a station
that is none of the region's own (R336). -/
def State.holdsRegion (s : State) (region p : Nat) (k : Packet) : Bool :=
  let atStation := match k.body with | .treq _ _ _ _ => true | .req r => bit r.addr 63 | _ => false
  k.place != .moving && s.regionOf (k.dst / 4096) = region && !s.mayRemain p k && (!atStation || k.stamp = region)

/-- INVSTAT.DRAINED of a region (R336): its tiles are drained, its routers hold messages that wait for a queue entry at
most, whatever their stamp, and its gateway routers nothing; its stations hold none of its requests, and its directory
and its tiles nothing that is still to be taken in. -/
def State.regionDrained (s : State) (region : Nat) : Bool :=
  (s.tilesOf region).all s.tileDrained
    && (s.routers.all fun r => s.regionOf (r.1 / 4096) != region || s.routerDrained r.1 r.2)
    && s.packets.all fun p => !s.holdsRegion region p.1 p.2

/-- Suspended() of R341: a tile of the region is not in RUN, or INVCTL.DEBUG. -/
def State.suspended (s : State) (region : Nat) : Bool :=
  (s.tilesOf region).any (fun t => (s.tile t).pre != 0) || bit (s.island (s.anchor region)).invctl 6

/-! ## Invalidation of translations (R315) -/

/-- Whether an invalidation by mode, process and page matches an entry of a process that covers n bytes. -/
def invMatches (mode : BitVec 2) (pid : BitVec 16) (page : Nat) (pid' : BitVec 16) (va n : Nat) : Bool :=
  match mode.toNat with
  | 1 => true
  | 2 => pid = pid'
  | 3 => pid = pid' && va ≤ page * 4096 && page * 4096 < va + n
  | _ => false

/-- Whether the invalidation of a station still waits for a request that an entry it removed has translated (R315). -/
def State.invPending (s : State) (b : BulkId) : Bool :=
  let x := s.station b
  x.invBusy && x.invWaits.any fun p => (s.packets.find? p).isSome

/-- The requests translated by station `b`, or standing at it, whose entry an invalidation matches, as packet numbers. -/
def State.translatedBy (s : State) (b : BulkId) (mode : BitVec 2) (pid : BitVec 16) (page : Nat) : List Nat :=
  (s.packets.filter fun p =>
    match p.2.body with
    | .treq r _ _ _ =>
      let e := p.2.span.getD (field r.addr 12 44 * 4096, 4096)
      (p.2.src / 4096 = b || p.2.dst / 4096 = b) && invMatches mode pid page r.pid e.1 e.2
    | _ => false).map (·.1)

/-- A write to ST_INV (R315): cached leaves that match are dropped, and walks that may have read a matching entry, at
whatever level, start again from PIDTAB. It is ignored while an invalidation is pending; mode 0 does nothing. -/
def State.startInv (s : State) (b : BulkId) (mode : BitVec 2) (pid : BitVec 16) : State :=
  if mode = 0 || s.invPending b then s
  else
    let page := field (s.station b).invVa 12 44
    let waits := s.translatedBy b mode pid page
    let s := s.onStation b fun x =>
      { x with invMode := mode, invPid := pid, invBusy := true, invWaits := waits,
               cache := x.cache.filter fun l => !invMatches mode pid page l.pid l.va (2 ^ l.log) }
    { s with packets := s.packets.map fun p =>
        match p.2.place, p.2.body with
        | .walking w, .req r =>
          if p.2.dst / 4096 = b && invMatches mode pid page r.pid 0 (2 ^ 64) then
            (p.1, { p.2 with place := .walking { w with restart := true } })
          else p
        | _, _ => p }

/-! ## State registers (R41) -/

/-- OWNER (R291). -/
def Bulk.owner (x : Bulk) : Word :=
  BitVec.ofNat 64 (x.region.toNat + x.key.toNat * 2 ^ 8 + num x.mutcode * 2 ^ 16 + num x.scrub * 2 ^ 17
    + x.epoch.toNat * 2 ^ 24)

/-- SLOT (R44). -/
def Slot.reg (x : Slot) (k : BitVec 2) : Word :=
  BitVec.ofNat 64 (k.toNat + num x.shared * 4 + num (x.state = .migrated) * 8 + x.queue.toNat * 2 ^ 4
    + x.binding.toNat * 2 ^ 8 + x.tag.toNat * 2 ^ 16)

/-- VSTAT (R192). -/
def State.vstat (s : State) (t : TileName) : Word :=
  let q := (s.tile t).vq
  BitVec.ofNat 64 (num (!q.isEmpty) + (q.filter fun c => !c.started).length * 2 + num (s.unitHeld t) * 2 ^ 5)

/-- INTEG (R100). -/
def Tile.integ (x : Tile) : Word := BitVec.ofNat 64 (x.fails.toNat + x.outst.toNat * 2 ^ 16)

/-- LL_DEPTH (R270). -/
def Level.reg (l : Level) : Word := BitVec.ofNat 64 (l.depth % 2 ^ 16 + l.shipped.toNat * 2 ^ 16 + l.received.toNat * 2 ^ 32)

/-- PREEMPT (R334). DRAINED is found as the register is read: after tile reset, for which R334 lists 0, it reads 1 at once,
since every condition of R336 holds then; the model's choice (log entry 144). -/
def State.preemptReg (s : State) (t : TileName) : Word :=
  let x := s.tile t
  BitVec.ofNat 64 (x.pre.toNat * 2 ^ 3 + num (s.tileDrained t) * 2 ^ 5 + num x.preDone * 2 ^ 6 + num x.preErr * 2 ^ 7
    + x.image.toNat * 2 ^ 12)

/-- The value of state register `i` of a tile, with the slot registers of slot `k`; none for an index that
R41 does not list. -/
def State.tileReg (s : State) (t : TileName) (k : BitVec 2) (i : Nat) : Option Word :=
  let x := s.tile t
  let y := x.slot k
  match i with
  | 0x000 => some (tileId t)
  | 0x001 => some (zext (s.bulk t.ret).region)
  | 0x002 => some (s.bulk t.ret).owner
  | 0x003 => some (zext x.pid)
  | 0x004 => some (zext s.mapgen)
  | 0x005 => some (s.bulk t.ret).timer
  | 0x010 => some (y.reg k)
  | 0x011 => some (zext y.cause)
  | 0x012 => some y.epc
  | 0x013 => some y.eval
  | 0x014 => some (zext x.trapctl)
  | 0x020 => some (zext x.rcMask)
  | 0x021 => some (s.vstat t)
  | 0x022 => some x.mat.status
  | 0x030 => some (s.ddaCtl t)
  | 0x031 => some x.fab.stat
  | 0x040 => some x.lvl.ctl
  | 0x041 => some x.lvl.reg
  | 0x050 => some x.integ
  | 0x100 => some (zext x.dbgCtl)
  | 0x101 => some (BitVec.ofNat 64 (x.dbgCount.toNat + num x.dbgActive * 2 ^ 8))
  | 0x102 => some (x.slot (BitVec.ofNat 2 (field x.dbgCtl 3 2))).ctx.pc
  | 0x110 => some (s.preemptReg t)
  | _ => none

/-- The privileged indices of R41. -/
def privReg (i : Nat) : Bool := i = 0x100 || i = 0x101 || i = 0x102 || i = 0x110

/-- LL_CTL with its reserved bits 0 (R270). -/
def llMask (v : Word) : Word := v &&& 0x00000FFF1FFF7FFD#64

/-- Whether a write of LL_CTL takes `ILLEGAL` (R270). -/
def Tile.badLevel (x : Tile) (v : Word) : Bool :=
  let size := field v 32 4
  let moved := field v 32 4 != field x.lvl.ctl 32 4 || field v 16 13 != field x.lvl.ctl 16 13
  size = 1 || size = 2 || 12 < size
    || (moved && (x.lvl.depth != 0 || allSlots.any fun k => (x.slot k).taken.isSome))
    || (size != 0 && 0x28000 < 32 * field v 16 13 + 32 * 2 ^ size)

/-- A levelling entry of a tile is in flight, from it or to it (R270). -/
def State.levelMoving (s : State) (t : TileName) : Bool :=
  s.packets.any fun p => match p.2.body with | .level a b _ => a = t || b = t | _ => false

/-- Whether a context waits in `BARW`: before its arrival, or for its wires (R164, R165). -/
def Ctx.inBarw (c : Ctx) : Bool :=
  match c.wait with
  | .wire _ _ => true
  | .issued (.barw _) _ _ _ => true
  | _ => false

/-- Whether an activation of a tile waits in `BARW`, in a slot or on a proctor core (R164, R185). -/
def State.barwWaits (s : State) (t : TileName) : Bool :=
  allSlots.any fun k => ((s.tile t).slot k).ctx.inBarw
    || (upFrom 0 8).any fun c =>
      let x := s.core t.ret (BitVec.ofNat 3 c)
      (match x.home with | some h => h.1 = t && h.2.1 = k | none => false) && x.ctx.inBarw

/-- What a write of a state register gives: a new state, `ILLEGAL`, or a wait (R41, R45, R164, R240, R245,
R270). -/
inductive RegWrite where
  | ok (s : State)
  | illegal
  | wait
  deriving Repr

/-- Writes state register `i` of a tile, as `MTS` does (R41, R183). A write that changes BASE or SIZE of LL_CTL lets the
ring's head stand at its first entry again, where the spec is silent: the model's choice (log entry 145). -/
def State.setTileReg (s : State) (t : TileName) (i : Nat) (v : Word) : RegWrite :=
  let x := s.tile t
  match i with
  | 0x014 => .ok (s.setTile t { x with trapctl := BitVec.ofNat 2 (field v 0 2) })
  | 0x020 =>
    if s.barwWaits t then .wait
    else .ok ((s.setTile t { x with rcMask := BitVec.ofNat 2 (field v 0 2) }).latchWires t)
  | 0x030 =>
    if x.fab.state != 0 then .illegal
    else .ok ((s.enrol t (BitVec.ofNat 4 (field v 0 4)) (BitVec.ofNat 6 (field v 4 6)) (bit v 10)).onFabric t fun f =>
      { f with steps := BitVec.ofNat 32 (field v 32 32) })
  | 0x031 => .ok (s.onFabric t (·.clearStat v))
  | 0x040 =>
    let moved := field v 32 4 != field x.lvl.ctl 32 4 || field v 16 13 != field x.lvl.ctl 16 13
    if x.badLevel v || (s.levelMoving t && moved) then .illegal
    else .ok (s.setTile t { x with lvl := { x.lvl with ctl := llMask v, head := if moved then 0 else x.lvl.head } })
  | _ => .illegal

end Sys2Proof.Machine
end

