-- ==== Sys2Proof/Machine/Hazards.lean ====
section
/-! DEFINITION. The accumulators and rows that vector and matrix commands read and write, the interlocks between
them, and `MZERO`, which acts once nothing holds it back (R190, R191, R225, R228). -/

namespace Sys2Proof.Machine

/-! ## Rows of vector commands (R190) -/

/-- The rows n from a register on. -/
def rowSpan (v : VReg) (n : Nat) : List Nat := upFrom v.toNat n

/-- The rows of a scan: a pair for `rec` (R208). -/
def scanRows (v : VReg) (op : BitVec 2) : List Nat := rowSpan v (if op = 3 then 2 else 1)

/-- The rows that a vector command reads. -/
def rowsRead : Instr → List Nat
  | .vadd _ _ a b | .vsub _ _ a b | .vmul _ _ a b | .vmin _ _ a b | .vmax _ _ a b | .vand _ _ a b | .vor _ _ a b
  | .vxor _ _ a b | .vshl _ _ a b | .vshr _ _ a b | .vsha _ _ a b | .vperm _ _ a b | .vshf _ _ a b => [a.toNat, b.toNat]
  | .vfma _ d a b | .vrec _ d a b => [d.toNat, a.toNat, b.toNat]
  | .vabs _ _ a | .vneg _ _ a | .vexp2 _ _ a | .vlog2 _ _ a | .vrcp _ _ a | .vrsq _ _ a | .vsig _ _ a | .vmov _ _ a => [a.toNat]
  | .vcvt ty src _ _ _ a => rowSpan a (cvtRowsIn ty src)
  | .vscan _ _ a op => scanRows a op
  | .vst v _ _ | .vstm v _ _ => [v.toNat]
  | .vext _ _ v _ | .vins _ v _ _ | .vredadd _ _ v | .vredmax _ _ v | .vredmin _ _ v => [v.toNat]
  | .vcmpeq _ _ v x | .vcmplt _ _ v x | .vcmple _ _ v x | .vsel _ v _ x => [v.toNat, x.toNat]
  | .xscan _ v _ _ op _ => scanRows v op
  | _ => []

/-- The rows that a vector command writes. -/
def rowsWritten : Instr → List Nat
  | .vadd _ d _ _ | .vsub _ d _ _ | .vmul _ d _ _ | .vfma _ d _ _ | .vmin _ d _ _ | .vmax _ d _ _ | .vand _ d _ _
  | .vor _ d _ _ | .vxor _ d _ _ | .vshl _ d _ _ | .vshr _ d _ _ | .vsha _ d _ _ | .vabs _ d _ | .vneg _ d _
  | .vrec _ d _ _ | .vexp2 _ d _ | .vlog2 _ d _ | .vrcp _ d _ | .vrsq _ d _ | .vsig _ d _ | .vperm _ d _ _
  | .vshf _ d _ _ | .vmov _ d _ => [d.toNat]
  | .vcvt ty src _ _ d _ => rowSpan d (cvtRowsOut ty src)
  | .vscan _ d _ op => scanRows d op
  | .vld v _ _ | .vldq v _ _ | .vbcast _ v _ | .vins _ v _ _ | .vsel _ v _ _ => [v.toNat]
  | .xscan _ v _ _ op _ => scanRows v op
  | _ => []

def meets (a b : List Nat) : Bool := a.any b.contains

/-- Whether a later command must wait for an earlier one that has started (R190). -/
def rowHazard (later earlier : Instr) : Bool :=
  meets (rowsRead later) (rowsWritten earlier) || meets (rowsWritten later) (rowsWritten earlier)
    || meets (rowsWritten later) (rowsRead earlier)

/-! ## Accumulators of matrix commands (R191, R219, R225) -/

/-- Whether a joining instruction is sparse (R224). -/
def MCmd.sparse (c : MCmd) : Bool := match c.instr with | .mmas _ _ => true | _ => false

/-- An FP4 operation, which writes a partial buffer and no accumulator (R225). -/
def MCmd.fp4 (c : MCmd) : Bool := !c.sparse && c.descA.fmt = 5 && c.descB.fmt = 5

/-- The descriptors that a member reads: its own B, and on the leader A (R219). -/
def MCmd.reads (c : MCmd) (leader : Bool) : List Desc := (if leader then [c.descA] else []) ++ [c.descB]

/-- The accumulators that a matrix command reads or writes, on the leader of its gang or elsewhere (R191); an FP4
operation ignores its acc field (R225). -/
def MCmd.accs (c : MCmd) (leader : Bool) : List Nat :=
  let operands := ((c.reads leader).filter fun d => !d.block).map (·.acc.toNat)
  match c.instr with
  | .mma acc _ => if c.fp4 then operands else acc.toNat :: operands
  | .mmas acc _ => acc.toNat :: operands
  | .msca acc _ a b => [acc.toNat, a.toNat / 16, b.toNat / 16]
  | .mzero acc => [acc.toNat]
  | _ => []

/-- The accumulators of a command of a tile's matrix slice. -/
def Matrix.accs (m : Matrix) (c : MCmd) : List Nat := c.accs (m.pos = 0)

/-- Every matrix command of a tile that has issued and is not complete. -/
def Matrix.open (m : Matrix) : List MCmd :=
  m.arrivals ++ (m.waiting.map (·.cmd)).toList ++ (m.running.map (·.cmd)).toList ++ m.scWaiting.toList
    ++ m.scRunning.toList ++ m.zeros

/-- Whether an earlier matrix command holds an accumulator of a vector command (R191). -/
def Tile.matrixHolds (x : Tile) (c : VCmd) : Bool :=
  let accs := (rowsRead c.instr ++ rowsWritten c.instr).map (· / 16)
  x.mat.open.any fun m => m.id < c.id && meets (x.mat.accs m) accs

/-- The tile-state offset of a row, for its errors (R326, R345). -/
def rowKey (t : TileName) (r : Nat) : Nat := scratchKey t (0x820000 + 64 * r)

/-- The rows of an accumulator. -/
def accRows (acc : Acc) : List Nat := upFrom (16 * acc.toNat) 16

/-- Whether an `MZERO` may act: no earlier matrix or vector command on its accumulator is left (R228). -/
def Tile.zeroReady (x : Tile) (c : MCmd) : Bool :=
  !(x.mat.open.any fun m => m.id < c.id && meets (x.mat.accs m) (x.mat.accs c))
    && !(x.vq.any fun v => v.id < c.id && meets ((rowsRead v.instr ++ rowsWritten v.instr).map (· / 16)) (x.mat.accs c))

/-- MSTATW with its reserved bits 0 (R229). -/
def mstatMask (v : Word) : Word := v &&& 0xFFFF7F0F#64

/-- MSTATW after a command completes: its fn4, acc and pb fields, one more in SEQ, further sticky bits (R229). -/
def statusAfter (st : Word) (iw : Word) (sticky : Nat) : Word :=
  BitVec.ofNat 64 ((field st 0 4 ||| sticky) + field iw 28 4 * 2 ^ 8 + field iw 26 2 * 2 ^ 12 + field iw 25 1 * 2 ^ 14
    + (field st 16 16 + 1) % 2 ^ 16 * 2 ^ 16)

/-- Performs an `MZERO` (R228). -/
def State.zeroAcc (s : State) (t : TileName) (c : MCmd) : State :=
  let rows := match c.instr with | .mzero acc => accRows acc | _ => []
  (s.onTile t fun x =>
    { x with rows := rows.foldl (fun m r => m.del r) x.rows,
             mat := { x.mat with zeros := x.mat.zeros.filter fun z => z.id != c.id,
                                 status := statusAfter x.mat.status c.iw 0 } }) |> fun s =>
    rows.foldl (fun s r => s.eccClear (rowKey t r) 64) s

/-- Performs every `MZERO` of a tile that may act, oldest first. -/
def State.settleZeros (t : TileName) (s : State) : State :=
  (s.tile t).mat.zeros.foldl (fun s c => if (s.tile t).zeroReady c then s.zeroAcc t c else s) s

end Sys2Proof.Machine
end

