-- ==== Sys2Proof/Machine/System.lean ====
section
/-! DEFINITION. System instructions: traps, `SYSCALL`, `MIGRATE`, state registers, and the proctor-only
instructions with the proctor's system registers (R180 to R185, R302, R305, R325, R331, R342, R364,
R373). -/

namespace Sys2Proof.Machine

/-! ## TRAP and BRK (R180) -/

/-- `TRAP`: complete when it traps; a resume continues after it (R46, R180, R329). -/
def execTrap (imm : BitVec 12) (s : State) : Result :=
  let epc := s.pc
  let s' := s.onCtx fun c => { c with pc := c.pc + 4, noEnd := false }
  .next (match s.cur with
    | .slot t k => s'.slotTrap t k (slotRecord t k Cause.trapInsn.code epc (zext imm) true)
    | .core b c => s'.coreTrap b c (slotRecord 0 0 Cause.trapInsn.code epc (zext imm) true))

/-- `BRK` (R46, R180). -/
def execBrk (_imm : BitVec 12) (s : State) : Result := .next (s.trap .brk s.pc)

/-! ## SYSCALL and MIGRATE (R40, R181, R182) -/

/-- Entry to level H by a hypercall, which issues without trapping and so makes its end action: the return address is
that of the next instruction (R149, R184, R302). -/
def PCore.hypercall (x : PCore) : PCore :=
  let c := x.ctx.advance 4
  { x with pepc := c.pc, psaved := BitVec.ofNat 2 (num x.h + 2 * num x.ien), h := true, ien := false,
           ctx := { c with pc := x.hventry &&& ~~~1#64, wait := .none } }

/-- Checks 1 to 4 of R181. -/
def State.syscallChecks (s : State) (C E : Word) (act : TileName → Nat → State) : State :=
  if C.toNat % 64 != 0 then s.trap .misalign C
  else match s.ownRange C 64 with
    | none => s.trap .noname C
    | some (t, off) =>
      if E.toNat % 16 != 0 then s.trap .misalign E
      else if s.loc E 16 = .bad then s.trap .noname E
      else act t off

/-- `SYSCALL` (R181); from proctor code at level G a hypercall, at level H `ILLEGAL` (R185). -/
def execSyscall (c : Reg) (s : State) : Result :=
  let E := s.erd 1
  .next (match s.cur, s.homeTile with
    | .core b n, none => if s.atH then s.illegal else s.onCore b n PCore.hypercall
    | _, _ =>
      let hold := s.await (.syscall c)
      s.syscallChecks (s.rd c) E fun t off => s.releasePoint hold
        (if 8 ≤ (s.tile t).sysOut || s.gatesHeld || s.payloadBusy (s.rd c) t off 64 then hold
         else
           let src := agentNode s.cur
           ((s.onTile t fun x => { x with sysOut := x.sysOut + 1 }).inject src
             (s.islandNode (agentBulk s.cur) src) 6 3 s.stampNow false
             (.syscall t (s.mem.readN (scratchKey t off) 64) (BitVec.ofNat 16 (field (s.erd 0) 0 16)) E)).retire))

/-- The 336 bytes of a context (R38, R151). -/
def Ctx.image (c : Ctx) (t : TileName) (k : BitVec 2) (act : Nat) : MigImage :=
  { tile := t, slot := k, act := act, regs := c.regs, eregs := c.eregs, pc := c.pc, loop0 := c.loop0, loop1 := c.loop1,
    noEnd := c.noEnd, pend := c.pend }

/-- R130: every load of the executing activation has written its destination or taken its trap, and the first router
has accepted every store. -/
def State.settled (s : State) : Bool :=
  let node := agentNode s.cur
  (s.ctx.pend.all fun p => p.failed)
    && (s.ctx.out.all fun o => if o.load then s.stalledReq o.id else s.accepted node o.id)
    && s.vecAccesses.all fun c => !c.isLoad && c.sent && s.accepted node c.id

/-- The accesses of a migrated activation that are not yet performed stay with its home slot when it leaves a core
(R88, R130). -/
def State.leaveOut (s : State) (t : TileName) (k : BitVec 2) : State :=
  let out := s.ctx.out
  (s.onSlot t k fun x => { x with ctx := { x.ctx with out := x.ctx.out ++ out } }).onCtx fun c =>
    { c with wait := .none, pend := [], out := [] }

/-- `MIGRATE` (R182): to a proctor core of the bulkhead, or back to the home slot, once R130 holds. -/
def execMigrate (s : State) : Result :=
  let hold := s.await .migrate
  .next (match s.cur with
    | .slot t k =>
      if !((s.tile t).draftsOf k).isEmpty then s.trap .queueErr 0
      else s.releasePoint hold (if !s.settled || s.gatesHeld then hold
        else
          let s := s.retire
          (s.onSlot t k fun x => { x with state := .migrated, ctx := { x.ctx with wait := .none, pend := [] } }).inject
            (tileNode t) (s.islandNode t.ret (tileNode t)) 6 12 s.stampNow false (.migrate (s.ctx.image t k s.actNow)))
    | .core b c =>
      match s.homeSlot with
      | none => s.privTrap
      | some (t, k) => s.releasePoint hold (if !s.settled then hold
          else
            let s := s.retire
            let src := agentNode s.cur
            ((s.inject src (tileNode t) 6 12 s.stampNow false (.migrateBack (s.ctx.image t k s.actNow))).leaveOut t
              k).onCore b c fun x => { x with home := none, running := false }))

/-! ## Proctor system registers (R305, R325, R342, R364, R373) -/

/-- Gates present on a bulkhead, a bit per N, E, S, W (R292, R305). -/
def edgesOf (b : BulkId) : Nat :=
  num (8 ≤ b) + 2 * num (b % 8 != 7) + 4 * num (b < 72) + 8 * num (b % 8 != 0)

/-- GATECTL (R305). -/
def State.gateCtl (s : State) (b : BulkId) : Word :=
  BitVec.ofNat 64 ((s.bulk b).gate.toNat + (s.bulk b).region.toNat * 2 ^ 8 + edgesOf b * 2 ^ 16)

/-- Whether a bulkhead's island runs its region's invigilator (R341). -/
def State.isAnchor (s : State) (b : BulkId) : Bool := (s.bulk b).region != 0 && s.anchor (s.regionOf b) = b

/-- INVSTAT (R342). DRAINED is found as the register is read: after reset of the anchor, for which R342 lists 0, it reads 1
at once in a region that R336 finds drained; the model's choice (log entry 144). -/
def State.invStat (s : State) (b : BulkId) : Word :=
  if !s.isAnchor b then 0
  else
    let x := s.island b
    BitVec.ofNat 64 (num x.stalled + 2 * num (s.regionDrained (s.regionOf b)) + 4 * num (s.suspended (s.regionOf b))
      + x.idle.toNat * 2 ^ 32)

/-- ST_STAT (R305). -/
def State.stationStat (s : State) (b : BulkId) : Word :=
  let at' (f : Place → Bool) : Nat := (s.packets.filter fun p => p.2.dst / 4096 = b && f p.2.place).length
  BitVec.ofNat 64 (at' (fun p => match p with | .walking _ => true | _ => false) % 2 ^ 8
    + at' (fun p => match p with | .stalled _ _ => true | _ => false) % 2 ^ 16 * 2 ^ 8)

/-- LSTAT (R364). -/
def Port.lstat (x : Port) : Word :=
  BitVec.ofNat 64 (x.st.toNat + num x.active * 4 + num (if x.active then x.tx[0] else x.tx[1]).isSome * 8
    + x.naks.toNat * 2 ^ 16 + x.counter.toNat * 2 ^ 32)

/-- LTEST (R374). -/
def Port.ltest (x : Port) : Word :=
  BitVec.ofNat 64 (num x.run + 2 * num x.done + 4 * num x.ackEach + x.pattern.toNat * 2 ^ 8 + x.count.toNat * 2 ^ 16
    + x.txSeq.toNat * 2 ^ 48)

/-- LERRINJ (R375). -/
def Port.lerrinj (x : Port) : Word := BitVec.ofNat 64 (x.injSeq.toNat + num x.injArm * 2 ^ 16)

/-- LRXSTAT (R376). -/
def Port.lrxstat (x : Port) : Word :=
  BitVec.ofNat 64 (x.delivered.toNat + x.badauth.toNat * 2 ^ 16 + x.outorder.toNat * 2 ^ 32 + x.dups.toNat * 2 ^ 48
    + x.paterr.toNat * 2 ^ 56)

/-- A write of LTEST (R374): DONE is cleared by a 1, the RW fields are written, and a 1 in RUN starts a run on a port
that is UP and has none. A run keeps the fields that it started with (DESIGN CHOICE, log entry 26). -/
def Port.writeTest (x : Port) (v : Word) : Port :=
  let x := { x with done := x.done && !bit v 1, ackEach := bit v 2, pattern := BitVec.ofNat 8 (field v 8 8),
                    count := BitVec.ofNat 16 (field v 16 16) }
  if !bit v 0 || x.st != 1 || x.run then x
  else if x.count = 0 then { x with done := true }
  else { x with run := true, runEach := x.ackEach, runPattern := x.pattern, runCount := x.count, sentTest := 0, lastTest := none }

/-- A write of LERRINJ (R375). -/
def Port.writeInject (x : Port) (v : Word) : Port :=
  { x with injSeq := BitVec.ofNat 16 (field v 0 16), injArm := bit v 16 }

/-- The access class of a system register: listed, readable at level G, writable at level H (R305, R325,
R364, R373). -/
structure SysClass where
  readG : Bool
  writeH : Bool
  deriving DecidableEq, Repr

/-- The class of index `i` on the island of bulkhead `b`; none for an index not listed there. -/
def sysClass (b : BulkId) (i : Nat) : Option SysClass :=
  if i ≤ 0x002 || i = 0x020 then some { readG := true, writeH := false }
  else if i = 0x003 || (0x010 ≤ i && i ≤ 0x012) || (0x018 ≤ i && i ≤ 0x01B) then some { readG := true, writeH := true }
  else if i = 0x014 then some { readG := false, writeH := false }
  else if i = 0x004 || i = 0x013 || i = 0x015 then some { readG := false, writeH := true }
  else if i = 0x100 || i = 0x101 || i = 0x103 || i = 0x120 || i = 0x130 || i = 0x131 then
    some { readG := false, writeH := true }
  else if i = 0x102 || i = 0x140 || i = 0x141 then some { readG := false, writeH := false }
  else if i = 0x200 then some { readG := false, writeH := true }
  else if (0x201 ≤ i && i ≤ 0x203) || (0x240 ≤ i && i ≤ 0x2BF) then some { readG := false, writeH := false }
  else if !isEdgeBulk b then none
  else if i = 0x300 || i = 0x301 || i = 0x303 || (0x400 ≤ i && i ≤ 0x4FF) then some { readG := false, writeH := true }
  else if i = 0x302 then some { readG := false, writeH := false }
  else if 0x500 ≤ i && i < 0x580 then
    (if i % 16 = 0 || i % 16 = 3 then some { readG := false, writeH := false }
     else if i % 16 = 1 || i % 16 = 2 then some { readG := false, writeH := true }
     else none)
  else none

/-- The value of a listed system register of core `c` of bulkhead `b`. -/
def State.sysReg (s : State) (b : BulkId) (c : BitVec 3) (i : Nat) : Word :=
  let x := s.core b c
  let d := s.island b
  let st := s.station b
  match i with
  | 0x000 => BitVec.ofNat 64 (c.toNat + b * 2 ^ 36)
  | 0x001 => zext (s.bulk b).region
  | 0x002 => flag x.h
  | 0x003 => zext x.ppid
  | 0x004 => x.hroot
  | 0x010 => zext x.pcause
  | 0x011 => x.pepc
  | 0x012 => x.peval
  | 0x013 => zext x.psaved
  | 0x014 => zext x.hvimm
  | 0x015 => x.hventry
  | 0x018 => x.ctx.loop0
  | 0x019 => x.ctx.loop1
  | 0x01A => x.ctx.loopH0
  | 0x01B => x.ctx.loopH1
  | 0x020 => d.ptimer
  | 0x100 => d.tqbase
  | 0x101 => zext d.tqhead
  | 0x102 => zext d.tqtail
  | 0x103 => zext d.tqint
  | 0x120 => flag d.xretry
  | 0x130 => if s.isAnchor b then zext d.invctl else 0
  | 0x131 => s.invStat b
  | 0x140 => BitVec.ofNat 64 (d.eccCorr.toNat + d.eccUnc.toNat * 2 ^ 32)
  | 0x141 => d.eccAddr
  | 0x200 => zext d.arbcfg
  | 0x201 => s.gateCtl b
  | 0x202 => zext d.gateLog
  | 0x203 => d.gateAddr
  | 0x300 => st.pidtab
  | 0x301 => BitVec.ofNat 64 (st.invMode.toNat + num (s.invPending b) * 4 + st.invPid.toNat * 2 ^ 16)
  | 0x302 => s.stationStat b
  | 0x303 => st.invVa
  | _ =>
    if i < 0x300 then (s.bulk b).windows.get 0 (i - 0x240)
    else if i < 0x500 then st.range.get 0 (i - 0x400)
    else
      let p := s.port b ((i - 0x500) / 16)
      if i % 16 = 0 then p.lstat else if i % 16 = 1 then p.ltest else if i % 16 = 2 then p.lerrinj else p.lrxstat

/-- Bits [63:18] of a word: PLOOPHn (R305). -/
def highBits (v : Word) : Word := (v >>> 18) <<< 18

/-- The register that awaits a failed or stalled access is marked as such, and stays pending; a retried one is marked
as on its way again (R140, R327, R331). -/
def State.failReq (s : State) (w : Ticket) (failed : Bool) : State :=
  match s.holder w.origin with
  | some ag =>
    let c := s.ctxOf ag
    s.setCtxOf ag { c with pend := c.pend.map fun p => if p.id = w.rid then { p with failed := failed } else p }
  | none => s

/-- Retranslates the stalled request of a station that an XID names (R331): the request stands at its
station again, and what awaits it counts as on its way. -/
def State.retryXid (s : State) (b : BulkId) (xid : BitVec 16) : State × Bool :=
  let hit (p : Nat × Packet) : Bool :=
    p.2.dst / 4096 = b && (match p.2.place with | .stalled x _ => x = xid | _ => false)
  let whos := (s.packets.filter hit).flatMap fun p =>
    (match p.2.body.req? with | some r => r.who :: r.also | none => [])
  (whos.foldl (fun s w => s.failReq w false)
     { s with packets := s.packets.map fun p => if hit p then (p.1, { p.2 with place := .arrived, retried := true, ranges := none }) else p },
   s.packets.any hit)

/-- A write of XRETRY on the island of bulkhead `b` (R325, R331). -/
def State.writeXretry (s : State) (b : BulkId) (xid : BitVec 16) (st : BulkId) : State :=
  let r := s.retryXid st xid
  r.1.onIsland b fun x => { x with xretry := r.2 }

/-- A write of a range entry governs the requests that arrive later: one that stands at the station keeps the entries
that stood when it came (R311). -/
def State.keepRanges (s : State) (b : BulkId) : State :=
  let old := (s.station b).range
  { s with packets := s.packets.map fun p =>
      match p.2.place, p.2.body with
      | .arrived, .req r =>
        if p.2.dst / 4096 = b && bit r.addr 63 && p.2.ranges.isNone then (p.1, { p.2 with ranges := some old }) else p
      | _, _ => p }

/-- Writes a system register that level H may write. -/
def State.setSysReg (s : State) (b : BulkId) (c : BitVec 3) (i : Nat) (v : Word) : State :=
  let core (f : PCore → PCore) : State := s.onCore b c f
  let isle (f : Island → Island) : State := s.onIsland b f
  match i with
  | 0x003 => core fun x => { x with ppid := BitVec.ofNat 16 v.toNat }
  | 0x004 => core fun x => { x with hroot := v }
  | 0x010 => core fun x => { x with pcause := BitVec.ofNat 8 v.toNat }
  | 0x011 => core fun x => { x with pepc := v }
  | 0x012 => core fun x => { x with peval := v }
  | 0x013 => core fun x => { x with psaved := BitVec.ofNat 2 v.toNat }
  | 0x015 => core fun x => { x with hventry := v }
  | 0x018 => core fun x => { x with ctx := { x.ctx with loop0 := loopKept v } }
  | 0x019 => core fun x => { x with ctx := { x.ctx with loop1 := loopKept v } }
  | 0x01A => core fun x => { x with ctx := { x.ctx with loopH0 := highBits v } }
  | 0x01B => core fun x => { x with ctx := { x.ctx with loopH1 := highBits v } }
  | 0x100 => isle fun x => { x with tqbase := place 15 (field v 15 41) }
  | 0x101 => isle fun x => { x with tqhead := BitVec.ofNat 10 v.toNat }
  | 0x103 => isle fun x => { x with tqint := BitVec.ofNat 8 v.toNat }
  | 0x120 => s.writeXretry b (BitVec.ofNat 16 v.toNat) (field v 16 7)
  | 0x130 => if s.isAnchor b then isle fun x => { x with invctl := BitVec.ofNat 7 v.toNat } else s
  | 0x131 => if s.isAnchor b then isle fun x => { x with stalled := x.stalled && !bit v 0 } else s
  | 0x200 => isle fun x => { x with arbcfg := BitVec.ofNat 42 v.toNat }
  | 0x300 => s.onStation b fun x => { x with pidtab := v }
  | 0x301 => s.startInv b (BitVec.ofNat 2 v.toNat) (BitVec.ofNat 16 (field v 16 16))
  | 0x303 => s.onStation b fun x => { x with invVa := place 12 (field v 12 44) }
  | _ =>
    if 0x400 ≤ i && i < 0x500 then (s.keepRanges b).onStation b fun x => { x with range := x.range.put (i - 0x400) v }
    else if i % 16 = 1 then s.onPort b ((i - 0x500) / 16) (·.writeTest v)
    else s.onPort b ((i - 0x500) / 16) (·.writeInject v)

/-- The address of a state register in the tile state space (R326). -/
def regAddr (t : TileName) (i : Nat) : Word := tileId t + BitVec.ofNat 64 (0x800000 + 8 * i)

/-- A remote access of a migrated activation to a state register of its home tile (R185). -/
def State.regAccess (s : State) (i : Instr) (t : TileName) (imm : BitVec 12) (acc : Access) (dest : Option Reg) : State :=
  s.accessOut acc (regAddr t imm.toNat) (.state t (0x800000 + 8 * imm.toNat)) dest (s.await i)

/-- `MFS` (R41, R183, R185, R305). -/
def execMfs (c : Reg) (imm : BitVec 12) (s : State) : Result :=
  let i := imm.toNat
  .next (match s.homeSlot, s.cur with
    | some (t, k), _ =>
      if privReg i then s.privTrap
      else (match s.tileReg t k i with
        | none => s.illegal
        | some v => if s.onCoreNow then s.regAccess (.mfs c imm) t imm (.regRead k imm) (some c) else s.put c v)
    | none, .core b n =>
      (match sysClass b i with
       | none => s.illegal
       | some k => if !s.atH && !k.readG then s.privTrap else s.put c (s.sysReg b n i))
    | none, .slot _ _ => s.retire)

/-- `MTS` (R41, R183, R185, R305). On a proctor core a write of a home register is checked when it issues. -/
def execMts (c : Reg) (imm : BitVec 12) (s : State) : Result :=
  let i := imm.toNat
  let v := s.rd c
  .next (match s.homeSlot, s.cur with
    | some (t, k), _ =>
      if privReg i then s.privTrap
      else if (s.tileReg t k i).isNone then s.illegal
      else (match s.setTileReg t i v with
        | .ok s' => if s.onCoreNow then s.regAccess (.mts c imm) t imm (.regWrite imm v) none else s'.retire
        | .illegal => s.illegal
        | .wait => s.await (.mts c imm))
    | none, .core b n =>
      (match sysClass b i with
       | none => s.illegal
       | some k =>
         if k.writeH then (if s.atH then (s.setSysReg b n i v).retire else s.privTrap)
         else if s.atH || k.readG then s.illegal else s.privTrap)
    | none, .slot _ _ => s.retire)

/-! ## Proctor-only instructions (R184) -/

/-- A proctor-only instruction: `PRIV` on a tile (R103). -/
def State.onProctor (s : State) (act : BulkId → BitVec 3 → State) : State :=
  match s.cur with
  | .slot _ _ => s.privTrap
  | .core b c => act b c

/-- A proctor-only instruction that level G may not execute. -/
def State.onLevelH (s : State) (act : BulkId → BitVec 3 → State) : State :=
  s.onProctor fun b c => if s.atH then act b c else s.privTrap

/-- `ERET` (R184, R302). -/
def execEret (s : State) : Result :=
  .next (s.onLevelH fun b c => s.onCore b c fun x =>
    { x with h := bit x.psaved 0, ien := bit x.psaved 1,
             ctx := { x.ctx with pc := x.pepc &&& ~~~1#64, noEnd := false } })

/-- Whether a trap message is pending for a core (R184, R325). -/
def Island.interrupts (x : Island) (c : BitVec 3) : Bool := bit x.tqint c.toNat && x.tqhead != x.tqtail

/-- `WFI` (R184). -/
def execWfi (s : State) : Result :=
  .next (s.onProctor fun b c => if (s.island b).interrupts c then s.retire else s.await .wfi)

/-- `HVCALL` (R184, R305); of a migrated activation it is progress (R341). -/
def execHvcall (imm : BitVec 12) (s : State) : Result :=
  .next (s.onProctor fun b c =>
    if s.atH then s.illegal
    else
      let s1 := s.onCore b c fun x => { x.hypercall with hvimm := imm }
      if (s.core b c).home.isSome then s1.noteProgress (s.regionOf b) else s1)

/-- `ATINV`: the core's translations of the page that holds C, or all for c = `s0` (R184, R303). -/
def execAtinv (c : Reg) (s : State) : Result :=
  let va := field (s.rd c) 0 56
  .next (s.onLevelH fun b n => (s.onCore b n fun x =>
    { x with tlb := if c = 0 then [] else x.tlb.filter fun l => !(l.va ≤ va && va < l.va + 2 ^ l.log) }).retire)

/-- The line that an address names for a cache instruction. A translation that the core does not keep is asked of its
station first, and one that fails there stops the instruction with `XLATE` (R303, R312, R314). -/
def State.cacheLine (s : State) (a : Word) (need : Right) (act : Option Nat → State) : State :=
  if field a 63 1 != 1 then (if s.loc a 1 = .bad then s.trap .noname a else act none)
  else match s.ownXlat a need with
    | some x => act (some x.pa)
    | none => (s.askXlat a need).retry

/-- Discards a far-memory line of a core's data cache and of the island cache (R184). -/
def State.discardLine (s : State) (b : BulkId) (n : BitVec 3) (pa : Nat) : State :=
  ((s.islandClean b (pa / 64)).onIsland b fun x => { x with cache := x.cache.del (pa / 64) }).onCore b n fun x =>
    { x with dcache := x.dcache.del (pa / 64) }

/-- `DCWB` (R87, R184). -/
def execDcwb (c : Reg) (s : State) : Result :=
  .next (s.onProctor fun b n => s.cacheLine (s.rd c) .r fun pa =>
    match pa with
    | none => s.retire
    | some pa => (s.writeBack b n pa).retire)

/-- `DCINV` (R87, R184): legal at level G for lines that level G may write; for another line the spec names no outcome,
and the model takes `XLATE` (log entry 107). -/
def execDcinv (c : Reg) (s : State) : Result :=
  .next (s.onProctor fun b n => s.cacheLine (s.rd c) (if s.atH then .r else .w) fun pa =>
    match pa with
    | none => s.retire
    | some pa => (s.discardLine b n pa).retire)

/-- The memory key of the instruction-cache line that an address names (R303). -/
def State.icacheKey (s : State) (b : BulkId) (n : BitVec 3) (a : Word) : Option Nat :=
  match (if (s.core b n).h then none else (s.core b n).home) with
  | some (t, _, _) => if a.toNat < 0x28000 then some (scratchKey t a.toNat) else none
  | none =>
    match s.ownXlat a .x, s.peek a .x with
    | some x, _ => some (physKey x.pa)
    | none, some x => if bit a 63 then some (physKey x.pa) else none
    | none, none => none

/-- `ICINV` (R184): it asks no station for a translation. One that neither the core keeps nor the tables give names no
line, and the instruction then discards none, which is the model's choice (log entry 107). -/
def execIcinv (c : Reg) (s : State) : Result :=
  .next (s.onProctor fun b n =>
    match s.icacheKey b n (s.rd c) with
    | some k => (s.onCore b n fun x => { x with icache := x.icache.del (k / 64) }).retire
    | none => s.retire)

end Sys2Proof.Machine
end

