-- ==== Sys2Proof/Machine/TSS.lean ====
section
/-! DEFINITION. The tile state space: what a proctor core at level H reads and writes of a tile, resume and
kill, debugging, the pre-emption register, the save image, and the cancel word (R326 to R340). -/

namespace Sys2Proof.Machine

/-! ## Kill and resume (R329, R330) -/

/-- A packet without the parties that a test names, when it is a request that a station holds after `XLATE`; none when
no other party has merged into it (R95, R330). -/
def Packet.dropParty (k : Packet) (who : Origin → Bool) : Option Packet :=
  match k.place, k.body with
  | .stalled _ _, .req r =>
    (match (r.who :: r.also).filter fun w => !who w.origin with
     | [] => none
     | w :: ws => some { k with body := .req { r with who := w, also := ws } })
  | _, _ => some k

/-- The requests of the parties that a test names, which stations hold after `XLATE`. -/
def State.stalledIds (s : State) (who : Origin → Bool) : List Nat :=
  s.packets.flatMap fun p => match p.2.place, p.2.body with
    | .stalled _ _, .req r => ((r.who :: r.also).filter fun w => who w.origin).map (·.rid)
    | _, _ => []

/-- Drops the requests of an activation of a tile that stations hold after `XLATE`: they leave the tile's 16 (R129,
R330). -/
def State.dropStalled (s : State) (t : TileName) (who : Origin → Bool) : State :=
  let ids := s.stalledIds who
  { s with packets := s.packets.filterMap fun (p : Nat × Packet) => (p.2.dropParty who).map fun k => (p.1, k) }.onTile t
    fun x => { x with offTile := x.offTile.filter fun i => !ids.contains i }

/-- A stream command held after `XLATE`, on a kill: dropped with KILLED and SHORT (R268). The chunks of its stalled
requests go; its add, still made, waits for the writes that are on their way (R97). -/
def SCmd.kill (c : SCmd) (stalled : List Nat) : SCmd :=
  { c with chunks := c.chunks.filter (fun x => !stalled.contains x.id), pos := c.total, engine := c.engine ||| 0xA0 }

/-- What the activation of a slot waits for, wherever it executes (R38). -/
def State.slotWait (s : State) (t : TileName) (k : BitVec 2) : Wait :=
  (s.ctxOf (s.whereRuns t k (s.slot t k).act)).wait

/-- Whether an activation of a tile other than that of slot `k` waits for the row wire, or the column wire (R165). -/
def State.wireWaiter (s : State) (t : TileName) (k : BitVec 2) (row : Bool) : Bool :=
  allSlots.any fun j => j != k && (match s.slotWait t j with | .wire r c => (if row then r else c) | _ => false)

/-- Withdraws the roll-call arrivals of a slot on wires that no other activation of the tile waits on (R155). -/
def State.withdrawWires (s : State) (t : TileName) (k : BitVec 2) : State :=
  match s.slotWait t k with
  | .wire r c =>
    let keep (i : Nat) : Bool :=
      bit (s.tile t).arrived i && !((if i = 0 then r else c) && !s.wireWaiter t k (i = 0))
    s.onTile t fun x => { x with arrived := BitVec.ofNat 2 (num (keep 0) + 2 * num (keep 1)) }
  | _ => s

/-- Frees the watch that a waiting instruction has registered (R155). -/
def State.freeWatchOf (s : State) (c : Ctx) : State :=
  match c.wait with
  | .remote rid _ =>
    match s.watches.find? fun w => match w.kind with | .wake who => who.rid = rid | _ => false with
    | some w => s.freeWatch w.id
    | none => s
  | _ => s

/-- The vector commands of a slot's activation whose requests a station holds (R194). -/
def State.heldVec (s : State) (t : TileName) (k : BitVec 2) (act : Nat) : List Nat :=
  ((s.tile t).vq.filter fun c => c.slot = k && c.act = act && s.packets.any fun p =>
    (match p.2.place with | .stalled _ _ => true | _ => false)
      && (match p.2.body.req? with | some r => r.who.origin = .vec t k act c.id | none => false)).map (·.id)

/-- The stream commands of a slot's activation whose requests a station holds (R268). -/
def State.heldStream (s : State) (t : TileName) (k : BitVec 2) (act : Nat) : List Nat :=
  ((s.tile t).sq.filter fun c => c.slot = k && c.act = act && s.packets.any fun p =>
    (match p.2.place with | .stalled _ _ => true | _ => false)
      && (match p.2.body.req? with
          | some r => (match r.who.origin with | .stream t' c' _ => t' = t && c' = c.id | _ => false)
          | none => false)).map (·.id)

/-- The chunks of a tile's stream commands whose requests a station holds (R268). -/
def State.heldChunks (s : State) (t : TileName) : List Nat :=
  s.packets.filterMap fun p =>
    match p.2.place, p.2.body.req? with
    | .stalled _ _, some r => (match r.who.origin with | .stream u _ k => if u = t then some k else none | _ => none)
    | _, _ => none

/-- A kill of the activation in slot `k` (R330). -/
def State.killActivation (s : State) (t : TileName) (k : BitVec 2) : State :=
  let x := s.slot t k
  let epc := if x.ctx.wait = .none || x.ctx.wait = .retry then x.ctx.pc else x.ctx.ipc
  let heldV := s.heldVec t k x.act
  let heldS := s.heldStream t k x.act
  let chunks := s.heldChunks t
  let s := s.freeWatchOf x.ctx
  let s := s.dropStalled t fun o => match o with
    | .slot t' k' act => t' = t && k' = k && act = x.act
    | .core _ _ act => act = x.act
    | .vec t' k' act _ => t' = t && k' = k && act = x.act
    | .stream t' c _ => t' = t && heldS.contains c
    | _ => false
  ((s.withdrawWires t k).onTile t fun y =>
    { y with vq := y.vq.filter fun c => !heldV.contains c.id,
             sq := y.sq.map fun (c : SCmd) => if heldS.contains c.id then c.kill chunks else c,
             mat := { y.mat with arrivals := y.mat.arrivals.filter fun c => !(c.slot = k && c.act = x.act) } }.endSlot k 2
      epc s.serial []).settleZeros t

/-- A write of CTL (R327, R329, R330): its result is 1 done or 2 ignored. -/
def State.slotCtl (s : State) (t : TileName) (k : BitVec 2) (v : Word) : State :=
  let st := (s.slot t k).state
  let done (r : Word) (s : State) : State := s.onSlot t k fun x => { x with ctl := r }
  if v = 1 then
    if st = .parked then
      done 1 (s.onSlot t k fun x => { x with state := if x.ctx.wait = .none then .ready else .waiting })
    else done 2 s
  else if v = 2 then
    if st = .ready || st = .waiting || st = .parked then done 1 (s.killActivation t k) else done 2 s
  else s

/-! ## Regions, and FLAGS.DEBUGGED (R288, R349) -/

def State.region (s : State) (r : Nat) : Region := s.regions.get Region.reset r
def State.onRegion (s : State) (r : Nat) (f : Region → Region) : State :=
  { s with regions := s.regions.put r (f (s.region r)) }

/-- The Dean has written a slot's PC or registers, or set DBG_CTL.EN, in a LIVE region (R349). -/
def State.markDebugged (s : State) (t : TileName) : State :=
  if (s.bulk t.ret).st = .live then s.onRegion (s.regionOf t.ret) fun x => { x with debugged := true } else s

/-! ## Slot records (R327) -/

/-- The code of a slot state (R327). -/
def SlotState.code : SlotState → Nat
  | .free => 0 | .ready => 1 | .waiting => 2 | .parked => 3 | .migrated => 4 | .preempted => 5

/-- The slot state of a code. -/
def slotStateOf (n : Nat) : SlotState :=
  match n with | 1 => .ready | 2 => .waiting | 3 => .parked | 4 => .migrated | 5 => .preempted | _ => .free

/-- PENDMASK (R327). -/
def Ctx.pendMask (c : Ctx) : Word :=
  c.pend.foldl (fun m p => if p.failed then m ||| place p.reg.toNat 1 else m) 0

/-- A dword of a slot record. -/
def Slot.recRead (x : Slot) (o : Nat) : Word :=
  if o < 0x100 then x.ctx.get (BitVec.ofNat 5 (o / 8))
  else if o < 0x140 then x.ctx.eget (BitVec.ofNat 3 (o / 8))
  else match o with
    | 0x140 => x.ctx.pc
    | 0x148 => x.ctx.loop0
    | 0x150 => x.ctx.loop1
    | 0x158 => BitVec.ofNat 64 (x.state.code + 8 * num x.shared)
    | 0x160 => x.ctl
    | 0x168 => zext x.cause
    | 0x170 => x.epc
    | 0x178 => x.eval
    | 0x180 => x.ctx.pendMask
    | _ => 0

/-- A write to a dword of the record of a PARKED slot; a register write supplies a failed load's value (R327). -/
def Ctx.recWrite (c : Ctx) (o : Nat) (v : Word) : Ctx :=
  if o < 0x100 then
    let r : Reg := BitVec.ofNat 5 (o / 8)
    { c.set r v with pend := c.pend.filter fun p => !(p.reg = r && p.failed) }
  else if o < 0x140 then c.eset (BitVec.ofNat 3 (o / 8)) v
  else match o with
    | 0x140 => { c with pc := v &&& ~~~1#64 }
    | 0x148 => { c with loop0 := loopKept v }
    | 0x150 => { c with loop1 := loopKept v }
    | _ => c

/-- A write into a slot record (R327). -/
def State.slotWrite (s : State) (t : TileName) (k : BitVec 2) (o : Nat) (v : Word) : State :=
  if o = 0x160 then s.slotCtl t k v
  else if (s.slot t k).state = .parked && o < 0x158 then
    (s.onSlot t k fun x => { x with ctx := x.ctx.recWrite o v }).markDebugged t
  else s

/-! ## Accumulators, partial buffers, fabric (R326) -/

def Matrix.partialAt (m : Matrix) (i : Nat) : BitVec 16 := m.partials.get 0 i

/-- A dword of the area at 0x82_0000: rows, then partial entries. -/
def Tile.rowRead (x : Tile) (o : Nat) : Word :=
  if o < 0x1000 then BitVec.ofNat 64 (lane 64 (x.rows.get 0 (o / 64)) (o % 64 / 8))
  else if o < 0x1400 then
    let i := (o - 0x1000) / 2
    BitVec.ofNat 64 (ofLanes 16 ((upFrom i 4).map fun j => (x.mat.partialAt j).toNat))
  else 0

def Tile.rowWrite (x : Tile) (o : Nat) (v : Word) : Tile :=
  if o < 0x1000 then
    let ls := (lanesOf 64 8 (x.rows.get 0 (o / 64))).set (o % 64 / 8) v.toNat
    { x with rows := x.rows.put (o / 64) (rowOf 64 ls) }
  else if o < 0x1400 then
    let i := (o - 0x1000) / 2
    { x with mat := { x.mat with partials := (upFrom 0 4).foldl (fun m j => m.put (i + j) (BitVec.ofNat 16 (field v (16 * j) 16)))
                                   x.mat.partials } }
  else x

/-- A byte list with a dword replaced. -/
def putDword (bs : List Byte) (o : Nat) (v : Word) : List Byte := bs.take o ++ bytesOf v ++ bs.drop (o + 8)

/-- The 128 bytes of the map block and the pending injection, the latest one issued (R253, R326). -/
def Fabric.mapBytes (f : Fabric) : List Byte :=
  (upFrom 0 64).map f.mapByte ++ padTo 64 ((f.inj.getLast?.map (·.2)).getD [])

/-- A dword of the fabric areas at 0x83_0000. -/
def State.fabricRead (s : State) (t : TileName) (o : Nat) : Word :=
  let f := (s.tile t).fab.view
  if o < 0x900 then wordOf (((s.fabricImage t).drop o).take 8)
  else if 0x1000 ≤ o && o < 0x3000 then wordOf (((f.cell ((o - 0x1000) / 32)).patchBytes.drop (o % 32)).take 8)
  else if 0x3000 ≤ o && o < 0x3080 then wordOf ((f.mapBytes.drop (o - 0x3000)).take 8)
  else 0

/-- A write of a dword of the fabric areas (R246, R326): the state area takes it while HALTED. -/
def State.fabricWrite (s : State) (t : TileName) (o : Nat) (v : Word) : State :=
  let f := (s.tile t).fab.view
  if o < 0x900 then
    if f.state != 0 then s else s.onFabric t (·.restore (putDword (s.fabricImage t) o v))
  else if 0x1000 ≤ o && o < 0x3000 then
    let c := (o - 0x1000) / 32
    s.changeFabric t [.patch c (putDword (f.cell c).patchBytes (o % 32) v)]
  else if 0x3000 ≤ o && o < 0x3040 then s.changeFabric t [.map (putDword ((upFrom 0 64).map f.mapByte) (o - 0x3000) v)]
  else if 0x3040 ≤ o && o < 0x3080 then
    s.onFabric t fun g =>
      { g with inj := s.injTaken t ++ [(s.now t, putDword (f.mapBytes.drop 64) (o - 0x3040) v)] }
  else s

/-! ## The table area (R328) -/

def Tile.recAt (x : Tile) (k : Nat) : TRec := x.recs.get TRec.reset k
def Tile.bindingAt (x : Tile) (i : Nat) : Binding := x.bindings.toList.getD i Binding.none
def Tile.queueAt (x : Tile) (i : Nat) : Queue := x.queue (BitVec.ofNat 3 i)

def TRec.dword (r : TRec) (i : Nat) : Word := match i with | 0 => r.w0 | 1 => r.w1 | 2 => r.w2 | _ => r.w3
def TRec.setDword (r : TRec) (i : Nat) (v : Word) : TRec :=
  match i with | 0 => { r with w0 := v } | 1 => { r with w1 := v } | 2 => { r with w2 := v } | _ => { r with w3 := v }

/-- A record mark. -/
def TRec.mark (r : TRec) : Nat := r.gen.toNat + num r.valid * 2 ^ 31
def TRec.setMark (r : TRec) (v : Nat) : TRec := { r with gen := BitVec.ofNat 24 v, valid := v / 2 ^ 31 % 2 = 1 }

def Binding.dword (b : Binding) (i : Nat) : Word :=
  match i with
  | 0 => BitVec.ofNat 64 (b.share.toNat + b.tag.toNat * 2 ^ 32 + b.queue.toNat * 2 ^ 48 + num b.valid * 2 ^ 63)
  | 1 => b.entry
  | 2 => b.counter
  | _ => 0

def Binding.setDword (b : Binding) (i : Nat) (v : Word) : Binding :=
  match i with
  | 0 => { b with share := BitVec.ofNat 32 v.toNat, tag := BitVec.ofNat 16 (field v 32 16),
                  queue := BitVec.ofNat 3 (field v 48 3), valid := bit v 63 }
  | 1 => { b with entry := v }
  | 2 => { b with counter := v }
  | _ => b

def Queue.dword (q : Queue) (i : Nat) : Word :=
  match i with
  | 0 => BitVec.ofNat 64 (q.base.toNat + q.logn.toNat * 2 ^ 18 + q.esize.toNat * 2 ^ 22 + num q.valid * 2 ^ 31)
  | 1 => BitVec.ofNat 64 (q.oldest.toNat + q.read.toNat * 2 ^ 8 + q.write.toNat * 2 ^ 16 + q.nextSeq.toNat * 2 ^ 32)
  | _ => 0

/-- A write of a queue descriptor (R328). -/
def Queue.setDword (q : Queue) (i : Nat) (v : Word) : Queue :=
  match i with
  | 0 => { q with base := BitVec.ofNat 18 (v.toNat / 64 * 64), logn := BitVec.ofNat 4 (field v 18 4),
                  esize := BitVec.ofNat 2 (field v 22 2), valid := bit v 31 }
  | 1 => { q with oldest := BitVec.ofNat 8 v.toNat, read := BitVec.ofNat 8 (field v 8 8),
                  write := BitVec.ofNat 8 (field v 16 8), nextSeq := BitVec.ofNat 16 (field v 32 16) }
  | _ => q

/-- A mark of an entry, as three words of 32 bits. -/
def Entry.markWord (e : Entry) (i : Nat) : Nat :=
  match i with
  | 0 => e.tag.toNat + e.len.toNat * 2 ^ 16 + num e.here * 2 ^ 25 + num e.taken * 2 ^ 26 + num e.passed * 2 ^ 27
          + e.holder.toNat * 2 ^ 28 + num e.held * 2 ^ 30
  | 1 => e.seq.toNat
  | _ => e.sender.toNat + num e.ext * 2 ^ 18

def Entry.setMark (e : Entry) (i v : Nat) : Entry :=
  match i with
  | 0 => { e with tag := BitVec.ofNat 16 v, len := BitVec.ofNat 9 (v / 2 ^ 16), full := v / 2 ^ 25 % 2 = 1,
                  here := v / 2 ^ 25 % 2 = 1, taken := v / 2 ^ 26 % 2 = 1, passed := v / 2 ^ 27 % 2 = 1,
                  holder := BitVec.ofNat 2 (v / 2 ^ 28), held := v / 2 ^ 30 % 2 = 1 }
  | 1 => { e with seq := BitVec.ofNat 16 v }
  | _ => { e with sender := BitVec.ofNat 18 v, ext := v / 2 ^ 18 % 2 = 1 }

/-- The 32-bit word w of the entry marks: queue w / 768, entry and word of the mark. -/
def Tile.markWord (x : Tile) (w : Nat) : Nat := ((x.queueAt (w / 768)).entry (w % 768 / 3)).markWord (w % 3)

def Tile.setMarkWord (x : Tile) (w v : Nat) : Tile :=
  let qn : QNum := BitVec.ofNat 3 (w / 768)
  let q := x.queue qn
  x.setQueue qn (q.mark (w % 768 / 3) ((q.entry (w % 768 / 3)).setMark (w % 3) v))

/-- A draft's header (R328). -/
def draftHeader (d : Draft) (i : Nat) : Word :=
  if i = 0 then d.dest
  else BitVec.ofNat 64 (d.msg.tag.toNat + d.msg.q.toNat * 2 ^ 16 + d.msg.len * 2 ^ 19 + d.slot.toNat * 2 ^ 28
    + num d.msg.lc * 2 ^ 30 + 2 ^ 31 + d.order * 2 ^ 32)

/-- An empty draft of a tile. -/
def Draft.blank (t : TileName) : Draft :=
  { msg := { dest := t, q := 0, tag := 0, len := 0, payload := [], sender := tileId t, ext := false, lc := false,
             wake := false, who := none },
    dest := 0, slot := 0, order := 0 }

/-- A dword of a draft entry: header, then payload. -/
def Draft.dword (d : Draft) (o : Nat) : Word :=
  if o < 16 then draftHeader d (o / 8) else wordOf ((padTo 256 d.msg.payload).drop (o - 16) |>.take 8)

/-- A write into a held draft entry; payload bytes behind LENGTH are kept and not sent (R328). -/
def Draft.write (t : TileName) (y : Draft) (o : Nat) (v : Word) : Draft :=
  if o = 0 then { y with dest := v, msg := { y.msg with dest := if field v 60 4 = 1 then field v 24 19 else t } }
  else if o = 8 then
    { y with slot := BitVec.ofNat 2 (field v 28 2), order := field v 32 8,
             msg := { y.msg with tag := BitVec.ofNat 16 v.toNat, q := BitVec.ofNat 3 (field v 16 3),
                                 len := field v 19 9, lc := bit v 30 } }
  else { y with msg := { y.msg with payload := putDword (padTo 256 y.msg.payload) (o - 16) v } }

/-- The offsets 0, 8, … below n. -/
def dwords (n : Nat) : List Nat := (upFrom 0 (n / 8)).map (8 * ·)

/-- The draft whose dwords a function gives. -/
def Draft.ofDwords (t : TileName) (at' : Nat → Word) : Draft :=
  (dwords 272).foldl (fun d o => d.write t o (at' o)) (Draft.blank t)

/-- The bits that R328 names in the second dword of a draft header, V aside. -/
def draftNamed (v : Word) : Word := v &&& 0xFF7FFFFFFF#64

/-- The dwords of a draft entry once it is held no longer: they read on, with V 0. -/
def Draft.kept (d : Draft) (base : Nat) (v : Word) (rest : Sparse Word) : Sparse Word :=
  (dwords 272).foldl (fun m p => m.put (base + p) (if p = 8 then draftNamed v else d.dword p)) rest

/-- A write into a draft entry at offset `o` of the table area: V holds the entry, with what has been written of it, or
frees it; the other fields read as written either way, and bits that R328 does not name read 0. -/
def Tile.draftWrite (x : Tile) (t : TileName) (o : Nat) (v : Word) : Tile :=
  let n := (o - 0xF00) / 272
  let p := (o - 0xF00) % 272
  let base := o - p
  match x.drafts.toList.getD n none with
  | some d =>
    if p = 8 && !bit v 31 then { x with drafts := x.drafts.setIfInBounds n none, tableRest := d.kept base v x.tableRest }
    else { x with drafts := x.drafts.setIfInBounds n (some (d.write t p v)) }
  | none =>
    if p = 8 && bit v 31 then
      { x with drafts := x.drafts.setIfInBounds n
                 (some (Draft.ofDwords t fun i => if i = 8 then v else x.tableRest.get 0 (base + i))),
               tableRest := x.tableRest.filter fun e => e.1 < base || base + 272 ≤ e.1 }
    else { x with tableRest := x.tableRest.put o (if p = 8 then draftNamed v else v) }

/-- Offset of a mailbox's ring position j in the table area. -/
def boxOffset (d : BitVec 2) (j : Nat) : Nat := 0xE00 + 32 * d.toNat + 8 * j

/-- A mailbox's ring position j; one that holds no value reads as it was written. -/
def Tile.boxAt (x : Tile) (d : BitVec 2) (j : Nat) : Word :=
  let h := (x.mailHead[d.toNat]'d.isLt).toNat
  let n := (x.box d).length
  if (j + 4 - h) % 4 < n then (x.box d).getD ((j + 4 - h) % 4) 0 else x.tableRest.get 0 (boxOffset d j)

/-- A mailbox mark. -/
def Tile.boxMark (x : Tile) (d : BitVec 2) : Nat := (x.box d).length + (x.mailHead[d.toNat]'d.isLt).toNat * 8

/-- Sets a mailbox entry, and a mark: the ring's contents follow the new head and count. -/
def Tile.setBoxAt (x : Tile) (d : BitVec 2) (j : Nat) (v : Word) : Tile :=
  let h := (x.mailHead[d.toNat]'d.isLt).toNat
  if (j + 4 - h) % 4 < (x.box d).length then x.setBox d ((x.box d).set ((j + 4 - h) % 4) v)
  else { x with tableRest := x.tableRest.put (boxOffset d j) v }

def Tile.setBoxMark (x : Tile) (d : BitVec 2) (v : Nat) : Tile :=
  let h := v / 8 % 4
  let es := (upFrom h (min (v % 8) 4)).map fun j => x.boxAt d (j % 4)
  { x.setBox d es with mailHead := x.mailHead.set d.toNat (BitVec.ofNat 2 h) d.isLt }

def Desc.dword (d : Desc) (i : Nat) : Word :=
  match i with
  | 0 => BitVec.ofNat 64 (d.fmt.toNat + num d.block * 8 + d.acc.toNat * 16)
  | 1 => d.base
  | 2 => d.layout
  | _ => 0

/-- A write of a descriptor; the reserved bits of the layout word read 0 (R11, R216). -/
def Desc.setDword (d : Desc) (i : Nat) (v : Word) : Desc :=
  match i with
  | 0 => { d with fmt := BitVec.ofNat 3 v.toNat, block := bit v 3, acc := BitVec.ofNat 2 (field v 4 2) }
  | 1 => { d with base := v }
  | 2 => { d with layout := BitVec.ofNat 64 (field v 0 34) }
  | _ => d

/-- A dword of the table area (R328). -/
def Tile.tableRead (x : Tile) (o : Nat) : Word :=
  if o < 0x800 then (x.recAt (o / 32)).dword (o % 32 / 8)
  else if o < 0x900 then
    let k := (o - 0x800) / 4
    BitVec.ofNat 64 ((x.recAt k).mark + (x.recAt (k + 1)).mark * 2 ^ 32)
  else if o < 0xD00 then (x.bindingAt ((o - 0x900) / 32)).dword (o % 32 / 8)
  else if o < 0xE00 then (x.queueAt ((o - 0xD00) / 32)).dword (o % 32 / 8)
  else if o < 0xE80 then x.boxAt (BitVec.ofNat 2 ((o - 0xE00) / 32)) (o % 32 / 8)
  else if o < 0xE90 then
    let d := (o - 0xE80) / 4
    BitVec.ofNat 64 (x.boxMark (BitVec.ofNat 2 d) + x.boxMark (BitVec.ofNat 2 (d + 1)) * 2 ^ 32)
  else if o < 0xEB0 then x.mat.descA.dword ((o - 0xE90) / 8)
  else if o < 0xED0 then x.mat.descB.dword ((o - 0xEB0) / 8)
  else if o < 0xEE0 then (if o = 0xED0 then BitVec.ofNat 64 (x.mat.width.toNat + x.mat.pos.toNat * 4) else 0)
  else if o < 0xEF0 then wordOf ((x.groupIds.toList.drop (o - 0xEE0)).take 8)
  else if o < 0xF00 then (if o = 0xEF0 then zext x.groupMask else 0)
  else if o < 0x2000 then
    (match x.drafts.toList.getD ((o - 0xF00) / 272) none with
     | some d => d.dword ((o - 0xF00) % 272)
     | none => x.tableRest.get 0 o)
  else if o < 0x8000 then
    let w := (o - 0x2000) / 4
    BitVec.ofNat 64 (x.markWord w + x.markWord (w + 1) * 2 ^ 32)
  else 0

/-- The tile after a write of a dword of the table area. -/
def Tile.tableWrite (x : Tile) (t : TileName) (o : Nat) (v : Word) : Tile :=
  if o < 0x800 then { x with recs := x.recs.put (o / 32) ((x.recAt (o / 32)).setDword (o % 32 / 8) v) }
  else if o < 0x900 then
    let k := (o - 0x800) / 4
    { x with recs := (x.recs.put k ((x.recAt k).setMark (field v 0 32))).put (k + 1) ((x.recAt (k + 1)).setMark (field v 32 32)) }
  else if o < 0xD00 then x.setBinding ((o - 0x900) / 32) ((x.bindingAt ((o - 0x900) / 32)).setDword (o % 32 / 8) v)
  else if o < 0xE00 then
    let qn : QNum := BitVec.ofNat 3 ((o - 0xD00) / 32)
    x.setQueue qn ((x.queue qn).setDword (o % 32 / 8) v)
  else if o < 0xE80 then x.setBoxAt (BitVec.ofNat 2 ((o - 0xE00) / 32)) (o % 32 / 8) v
  else if o < 0xE90 then
    let d := (o - 0xE80) / 4
    (x.setBoxMark (BitVec.ofNat 2 d) (field v 0 32)).setBoxMark (BitVec.ofNat 2 (d + 1)) (field v 32 32)
  else if o < 0xEB0 then { x with mat := { x.mat with descA := x.mat.descA.setDword ((o - 0xE90) / 8) v } }
  else if o < 0xED0 then { x with mat := { x.mat with descB := x.mat.descB.setDword ((o - 0xEB0) / 8) v } }
  else if o < 0xEE0 then
    (if o = 0xED0 then { x with mat := { x.mat with width := BitVec.ofNat 2 v.toNat, pos := BitVec.ofNat 2 (field v 2 2) } } else x)
  else if o < 0xEF0 then
    let ids := putDword x.groupIds.toList (o - 0xEE0) v
    { x with groupIds := Vector.ofFn fun i : Fin 16 => ids.getD i.val 0 }
  else if o < 0xF00 then
    (if o = 0xEF0 then { x with groupMask := BitVec.ofNat 16 v.toNat } else x)
  else if o < 0x2000 then x.draftWrite t o v
  else if o < 0x8000 then
    let w := (o - 0x2000) / 4
    (x.setMarkWord w (field v 0 32)).setMarkWord (w + 1) (field v 32 32)
  else x

/-- Whether the table area accepts writes: every slot FREE or PARKED and the vector, matrix and stream
engines idle (R326). -/
def Tile.tableOpen (x : Tile) : Bool :=
  (allSlots.all fun k => (x.slot k).state = .free || (x.slot k).state = .parked)
    && x.vq.isEmpty && x.sq.isEmpty && x.mat.running.isNone && x.mat.waiting.isNone && x.mat.scRunning.isNone
    && x.mat.scWaiting.isNone && x.mat.zeros.isEmpty && x.mat.arrivals.isEmpty

/-! ## Router buffers (R326) -/

/-- The dword of a buffered flit: the flit's packet, index and last mark under a set bit 63. -/
def Flit.word (f : Flit) : Word := BitVec.ofNat 64 (f.pkt % 2 ^ 48 + f.idx % 2 ^ 8 * 2 ^ 48 + num f.last * 2 ^ 56 + 2 ^ 63)

/-- The flit of a buffer dword. -/
def flitOf (w : Word) : Option Flit :=
  if bit w 63 then some { pkt := field w 0 48, idx := field w 48 8, last := bit w 56 } else none

/-- A dword of the router's buffers: input p, VC v, flit f at 32·(32·p + 4·v + f). -/
def State.routerRead (s : State) (t : TileName) (o : Nat) : Word :=
  let b := (s.router (tileNode t)).ins.get InBuf.empty (o / 128)
  if o % 32 = 0 then (match b.flits[o % 128 / 32]? with | some f => f.word | none => 0) else 0

/-! ## Debug and pre-emption registers (R332 to R334) -/

/-- DBG_CTL with its reserved bits 0 (R332). -/
def dbgMask (v : Word) : BitVec 40 := BitVec.ofNat 40 v.toNat &&& ~~~0x20#40

/-- A write of DBG_CTL (R332). -/
def Tile.setDbgCtl (x : Tile) (v : Word) : Tile := { x with dbgCtl := dbgMask v }

/-- The slot that DBG_CTL addresses. -/
def Tile.dbgSlot (x : Tile) : BitVec 2 := BitVec.ofNat 2 (field x.dbgCtl 3 2)

/-- A write of DBG_STEP (R333). -/
def State.startStep (s : State) (t : TileName) (v : Word) : State :=
  let x := s.tile t
  let k := x.dbgSlot
  if !bit x.dbgCtl 0 || (x.slot k).state != .parked || field v 0 8 = 0 then s
  else (s.onSlot t k fun y => { y with state := if y.ctx.wait = .none then .ready else .waiting }).onTile t fun x =>
    { x with dbgCount := BitVec.ofNat 8 v.toNat, dbgActive := true, dbgOf := k, dbgFirst := true, dbgOwed := false }

/-- `STOP` (R334, R335): the tile fires and issues nothing more; a fabric that is ARMED in a domain whose start is
not taken halts at once. -/
def State.stopTile (s : State) (t : TileName) : State :=
  let x := s.tile t
  if x.pre != 0 then s
  else
    let taken := match (s.domain (s.domainOf t)).run with | some r => r.1.contains t | none => false
    let s := s.onTile t fun x => { x with pre := 1 }
    if x.fab.state = 1 && !taken then
      (s.onFabric t fun f => { f with state := 0, was := 1, armed := none }).dwaitDone t
    else s

/-- `RUN`, accepted in STOPPED and after a SAVE or LOAD (R334, R335). -/
def State.runTile (s : State) (t : TileName) : State :=
  let x := s.tile t
  if x.pre = 1 || x.pre = 3 then (s.onTile t fun x => { x with pre := 0 }).onFabric t fun f => { f with was := 0 } else s

/-- A write of PREEMPT (R334): clears DONE and ERR by ones, sets IMAGE, and runs CMD. -/
def State.writePreempt (s : State) (t : TileName) (v : Word) : State :=
  let s := s.onTile t fun x =>
    { x with preDone := x.preDone && !bit v 6, preErr := x.preErr && !bit v 7, image := BitVec.ofNat 52 (field v 12 52) }
  let x := s.tile t
  match field v 0 3 with
  | 1 => s.stopTile t
  | 2 => if x.pre = 1 then s.onTile t fun x => { x with pre := 2, preSave := true } else s
  | 3 => if x.pre = 1 then s.onTile t fun x => { x with pre := 2, preSave := false } else s
  | 4 => s.runTile t
  | _ => s

/-! ## The cancel word (R340) -/

/-- A write of the cancel word: the cancel acts and its result stands in bits [33:32]. -/
def Tile.writeCancel (x : Tile) (v : Word) : Tile :=
  let qn : QNum := BitVec.ofNat 3 v.toNat
  let q := x.queue qn
  let word (r : Nat) : Word := BitVec.ofNat 64 (field v 0 3 + field v 16 16 * 2 ^ 16 + r * 2 ^ 32)
  match q.inUse.find? fun i => (q.entry i).full && (q.entry i).here && (q.entry i).seq.toNat = field v 16 16 with
  | none => { x with cancel := word 3 }
  | some i =>
    if (q.entry i).taken || (q.entry i).fired then { x with cancel := word 2 }
    else { x.setQueue qn (q.freeEntry i) with cancel := word 1 }

/-! ## Reads and writes (R326) -/

/-- A dword of a tile's state space at a remote-tile offset (R326). -/
def State.tssRead (s : State) (t : TileName) (off : Nat) : Word :=
  let p := off - 0x800000
  let x := s.tile t
  if p < 0x8000 then (s.tileReg t x.dbgSlot (p / 8)).getD 0
  else if 0x10000 ≤ p && p < 0x10800 then (x.slot (BitVec.ofNat 2 (p / 0x200))).recRead (p % 0x200)
  else if 0x20000 ≤ p && p < 0x21400 then x.rowRead (p - 0x20000)
  else if 0x30000 ≤ p && p < 0x33080 then s.fabricRead t (p - 0x30000)
  else if 0x40000 ≤ p && p < 0x48000 then x.tableRead (p - 0x40000)
  else if p = 0x48000 then x.cancel
  else if 0x50000 ≤ p && p < 0x51400 then s.routerRead t (p - 0x50000)
  else 0

/-- A write to a state register through the index area (R326). A proctor's write of RC_MASK takes effect while a slot
waits in `BARW` (log entry 95). -/
def State.indexWrite (s : State) (t : TileName) (i : Nat) (v : Word) : State :=
  match i with
  | 0x003 => s.onTile t fun x => { x with pid := BitVec.ofNat 16 v.toNat }
  | 0x020 => (s.onTile t fun x => { x with rcMask := BitVec.ofNat 2 (field v 0 2) }).latchWires t
  | 0x050 => s.onTile t fun x => { x with fails := 0 }
  | 0x100 => let s := s.onTile t (·.setDbgCtl v); if bit v 0 then s.markDebugged t else s
  | 0x101 => s.startStep t v
  | 0x102 =>
    let k := (s.tile t).dbgSlot
    if (s.slot t k).state = .parked then
      (s.onSlot t k fun x => { x with ctx := { x.ctx with pc := v &&& ~~~1#64 } }).markDebugged t
    else s
  | 0x110 => s.writePreempt t v
  | _ => match s.setTileReg t i v with | .ok s' => s' | _ => s

/-- A write of a dword of a tile's state space (R326). -/
def State.tssWrite (s : State) (t : TileName) (off : Nat) (v : Word) : State :=
  let p := off - 0x800000
  if p < 0x8000 then s.indexWrite t (p / 8) v
  else if 0x10000 ≤ p && p < 0x10800 then s.slotWrite t (BitVec.ofNat 2 (p / 0x200)) (p % 0x200) v
  else if 0x20000 ≤ p && p < 0x21400 then s.onTile t (·.rowWrite (p - 0x20000) v)
  else if 0x30000 ≤ p && p < 0x33080 then s.fabricWrite t (p - 0x30000) v
  else if 0x40000 ≤ p && p < 0x48000 then
    if (s.tile t).tableOpen then s.onTile t (·.tableWrite t (p - 0x40000) v) else s
  else if p = 0x48000 then s.onTile t (·.writeCancel v)
  else s

/-- n bytes at an offset of the state space, within one dword. -/
def State.tssLoad (s : State) (t : TileName) (off n : Nat) : List Byte :=
  ((bytesOf (s.tssRead t (off / 8 * 8))).drop (off % 8)).take n

/-- What a store leaves in the bytes of a dword that it does not name: their values, but 0 in a field whose write is a
command or clears by ones, where it asks for nothing (R11, R245, R327, R333, R334). -/
def State.tssKept (s : State) (t : TileName) (off : Nat) : Word :=
  let p := off - 0x800000
  let v := s.tssRead t off
  if p = 8 * 0x110 then v &&& ~~~0xC0#64
  else if p = 8 * 0x031 || p = 8 * 0x101 || (0x10000 ≤ p && p < 0x10800 && p % 0x200 = 0x160) then 0
  else v

/-- A store of bytes at an offset of the state space, within one dword: the other bytes keep their values. -/
def State.tssStore (s : State) (t : TileName) (off : Nat) (bs : List Byte) : State :=
  let old := bytesOf (s.tssKept t (off / 8 * 8))
  s.tssWrite t (off / 8 * 8) (wordOf (old.take (off % 8) ++ bs ++ old.drop (off % 8 + bs.length)))

end Sys2Proof.Machine
end

