-- ==== Sys2Proof/Machine/Clock.lean ====
section
/-! DEFINITION. The passing of bulkhead cycles: TIMER, PTIMER and the invigilator's count; and what counts
as progress (R43, R305, R341). -/

namespace Sys2Proof.Machine

/-- Whether a tile holds work (R341). -/
def Tile.busy (x : Tile) : Bool :=
  (allSlots.any fun k => (x.slot k).state != .free)
    || (x.queues.toList.any fun q => q.inUse.any fun i => (q.entry i).waiting)
    || !x.vq.isEmpty || !x.sq.isEmpty || x.fab.state != 0
    || !x.mat.arrivals.isEmpty || x.mat.waiting.isSome || x.mat.running.isSome || x.mat.scWaiting.isSome
    || x.mat.scRunning.isSome || !x.mat.zeros.isEmpty

/-- Whether a packet is a request that a station holds. -/
def Packet.atStation (p : Packet) : Bool :=
  match p.place, p.body with
  | .walking _, _ | .stalled _ _, _ | .translated, _ | .atHome, _ => true
  | .arrived, .req _ | .arrived, .treq _ _ _ _ => true
  | _, _ => false

/-- WorkRemains() of R341. -/
def State.workRemains (s : State) (region : Nat) : Bool :=
  (s.tilesOf region).any (fun t => (s.tile t).busy)
    || s.packets.any fun p => p.2.atStation && s.regionOf (p.2.src / 4096) = region

/-- WinLog() of R341 and R342. -/
def Island.winLog (x : Island) : Nat := max 10 (min 30 (field x.invctl 1 5))

/-- A count of cycles without progress under a window: from `idle` in cycle `t0` to cycle `now`, where the anchor sees
progress in the cycles of a rising list. At the window the count stands. -/
def idleCount (window : Nat) : List Nat → Nat → Nat → Nat → Nat
  | [], idle, t0, now => min window (idle + (now - t0))
  | e :: rest, idle, t0, now =>
    if window ≤ idle + (e - 1 - t0) then window else idleCount window rest 0 e now

/-- The cycles after `t0` and up to `now` in which an anchor sees progress, which reaches it 16 cycles late (R341). -/
def seenBetween (events : List Word) (t0 now : Nat) : List Nat :=
  ((events.map fun p => p.toNat + 16).filter fun e => t0 < e && e ≤ now).reverse

/-- IDLE of an anchor after the cycles from `t0` to TIMER `now` (R341): it counts the cycles in which the region makes no
progress that the anchor sees, and stands at the window until the expiry is taken. -/
def State.idleAfter (s : State) (b : BulkId) (t0 now : Nat) : BitVec 32 :=
  let x := s.island b
  let r := s.regionOf b
  if !bit x.invctl 0 || s.suspended r || !s.workRemains r then 0
  else
    BitVec.ofNat 32 (if 2 ^ x.winLog ≤ x.idle.toNat then 2 ^ x.winLog
      else idleCount (2 ^ x.winLog) (seenBetween (s.progress.get [] r) t0 now) x.idle.toNat t0 now)

/-- The progress events that an anchor has seen by TIMER `now` are forgotten. -/
def State.forgetSeen (s : State) (b : BulkId) (now : Nat) : State :=
  if !s.isAnchor b then s
  else
    let r := s.regionOf b
    { s with progress := match s.progress.find? r with
        | some l => (match l.filter fun p => now < p.toNat + 16 with | [] => s.progress.del r | l' => s.progress.put r l')
        | none => s.progress }

/-- n nominal periods pass on a bulkhead: TIMER counts its cycles, CLKN to 64 periods, which stretch under a cap; PTIMER
counts proctor cycles, 60 to 17 periods, which do not (R8, R43, R305, R397). -/
def State.tickBulk (s : State) (n : Nat) (b : BulkId) : State :=
  if (s.bulk b).failed then s
  else
    let m := cyclesIn (s.powerOf b).clkn 64 s.time n
    let t0 := (s.bulk b).timer.toNat
    let s := s.onBulk b fun x => { x with timer := x.timer + BitVec.ofNat 64 m }
    (s.onIsland b fun x =>
      { x with ptimer := x.ptimer + BitVec.ofNat 64 (cyclesIn 60 17 s.time n),
               idle := if s.isAnchor b then s.idleAfter b t0 (t0 + m) else 0 }).forgetSeen b (t0 + m)

/-- n nominal periods pass on every bulkhead. -/
def State.tickAll (s : State) (n : Nat) : State :=
  let s := (upFrom 0 80).foldl (fun s b => s.tickBulk n b) s
  { s with time := s.time + n }

end Sys2Proof.Machine
end

