-- ==== Sys2Proof/Machine/Vector.lean ====
section
/-! DEFINITION. Vector instructions: their checks at issue and their entry into the vector command queue
(R190, R191, R196 to R210). -/

namespace Sys2Proof.Machine

/-! ## The queue (R190) -/

/-- Commands queued and not started. -/
def Tile.vecQueued (x : Tile) : Nat := (x.vq.filter fun c => !c.started).length

/-- Enqueues a vector command with its scalar operands, and the bytes of the queue entry that it has read; a scalar
result is pending from now on (R190). -/
def State.enqueueVec (s : State) (t : TileName) (k : BitVec 2) (i : Instr) (a m : Word) (dest : Option Reg)
    (data : Option (List Byte)) : State :=
  let c : VCmd := { id := s.serial, instr := i, slot := k, act := s.actNow, epc := s.pc, iw := s.iw, a := a, m := m,
                    started := false, sent := false, data := data, carry := none, forwarded := false }
  let s1 := s.bump.onCtx fun x =>
    { x with pend := match dest with
        | some d => if d = 0 then x.pend else x.pend ++ [{ reg := d, id := c.id, failed := false }]
        | none => x.pend }
  (s1.onTile t fun x => { x with vq := x.vq ++ [c] }).retire

/-- Issues a vector load or store. One whose home is off the tile is an access of the slot that is not yet
performed, from now until its reply (R191); it is not enqueued while the gates are at HOLD (R292). A `CADDF` on its way
holds it back (R89). -/
def State.vecMemIssue (s : State) (i : Instr) (ea m : Word) (l : Loc) (store : Bool) : State :=
  s.onTileOnly fun t k =>
    if 8 ≤ (s.tile t).vecQueued || s.acquiring || (s.gatesHeld && !s.ownScratch l) then s.retry
    else
      let id := s.serial
      let strong := s.isStrong ea l (if store then .w else .r)
      let s1 := if s.ownScratch l then s else s.onCtx fun c =>
        { c with out := c.out ++ [{ id := id, load := false, returns := !store, acquire := false, strong := strong }] }
      s1.enqueueVec t k i ea m none none

/-- Issues a vector command: on a tile, into a queue that has room (R103, R190). -/
def State.vecIssue (s : State) (i : Instr) (a m : Word) (dest : Option Reg) : State :=
  s.onTileOnly fun t k =>
    if 8 ≤ (s.tile t).vecQueued then s.retry else s.enqueueVec t k i a m dest none

/-- A release point of a vector instruction: it waits at issue for an empty queue, then makes the check of R99
(R202, R210). The queue is empty once every command issued before has completed, those that have started too, which is
the model's choice (log entry 146). -/
def State.vecRelease (s : State) (t : TileName) (act : State) : State :=
  if !(s.tile t).vq.isEmpty then s.retry else s.releasePoint s.retry act

/-! ## Row instructions -/

/-- `VADD` (R196). -/
def execVadd (ty : Ty) (vd va vb : VReg) (s : State) : Result := .next (s.vecIssue (.vadd ty vd va vb) 0 0 none)

/-- `VSUB` (R196). -/
def execVsub (ty : Ty) (vd va vb : VReg) (s : State) : Result := .next (s.vecIssue (.vsub ty vd va vb) 0 0 none)

/-- `VMUL` (R196). -/
def execVmul (ty : Ty) (vd va vb : VReg) (s : State) : Result := .next (s.vecIssue (.vmul ty vd va vb) 0 0 none)

/-- `VFMA` (R196). -/
def execVfma (ty : Ty) (vd va vb : VReg) (s : State) : Result := .next (s.vecIssue (.vfma ty vd va vb) 0 0 none)

/-- `VMIN` (R196). -/
def execVmin (ty : Ty) (vd va vb : VReg) (s : State) : Result := .next (s.vecIssue (.vmin ty vd va vb) 0 0 none)

/-- `VMAX` (R196). -/
def execVmax (ty : Ty) (vd va vb : VReg) (s : State) : Result := .next (s.vecIssue (.vmax ty vd va vb) 0 0 none)

/-- `VAND` (R196). -/
def execVand (ty : Ty) (vd va vb : VReg) (s : State) : Result := .next (s.vecIssue (.vand ty vd va vb) 0 0 none)

/-- `VOR` (R196). -/
def execVor (ty : Ty) (vd va vb : VReg) (s : State) : Result := .next (s.vecIssue (.vor ty vd va vb) 0 0 none)

/-- `VXOR` (R196). -/
def execVxor (ty : Ty) (vd va vb : VReg) (s : State) : Result := .next (s.vecIssue (.vxor ty vd va vb) 0 0 none)

/-- `VSHL` (R196). -/
def execVshl (ty : Ty) (vd va vb : VReg) (s : State) : Result := .next (s.vecIssue (.vshl ty vd va vb) 0 0 none)

/-- `VSHR` (R196). -/
def execVshr (ty : Ty) (vd va vb : VReg) (s : State) : Result := .next (s.vecIssue (.vshr ty vd va vb) 0 0 none)

/-- `VSHA` (R196). -/
def execVsha (ty : Ty) (vd va vb : VReg) (s : State) : Result := .next (s.vecIssue (.vsha ty vd va vb) 0 0 none)

/-- `VABS` (R196). -/
def execVabs (ty : Ty) (vd va : VReg) (s : State) : Result := .next (s.vecIssue (.vabs ty vd va) 0 0 none)

/-- `VNEG` (R196). -/
def execVneg (ty : Ty) (vd va : VReg) (s : State) : Result := .next (s.vecIssue (.vneg ty vd va) 0 0 none)

/-- `VREC` (R197). -/
def execVrec (ty : Ty) (vd va vb : VReg) (s : State) : Result := .next (s.vecIssue (.vrec ty vd va vb) 0 0 none)

/-- `VEXP2` (R198). -/
def execVexp2 (ty : Ty) (vd va : VReg) (s : State) : Result := .next (s.vecIssue (.vexp2 ty vd va) 0 0 none)

/-- `VLOG2` (R198). -/
def execVlog2 (ty : Ty) (vd va : VReg) (s : State) : Result := .next (s.vecIssue (.vlog2 ty vd va) 0 0 none)

/-- `VRCP` (R198). -/
def execVrcp (ty : Ty) (vd va : VReg) (s : State) : Result := .next (s.vecIssue (.vrcp ty vd va) 0 0 none)

/-- `VRSQ` (R198). -/
def execVrsq (ty : Ty) (vd va : VReg) (s : State) : Result := .next (s.vecIssue (.vrsq ty vd va) 0 0 none)

/-- `VSIG` (R198). -/
def execVsig (ty : Ty) (vd va : VReg) (s : State) : Result := .next (s.vecIssue (.vsig ty vd va) 0 0 none)

/-- `VCVT` (R199, R200). -/
def execVcvt (ty src : Ty) (mode : BitVec 2) (sat : Bool) (vd va : VReg) (s : State) : Result :=
  .next (s.vecIssue (.vcvt ty src mode sat vd va) 0 0 none)

/-- `VPERM` (R201). -/
def execVperm (ty : Ty) (vd va vb : VReg) (s : State) : Result := .next (s.vecIssue (.vperm ty vd va vb) 0 0 none)

/-- `VSHF` (R201). -/
def execVshf (ty : Ty) (vd va vb : VReg) (s : State) : Result := .next (s.vecIssue (.vshf ty vd va vb) 0 0 none)

/-- `VSCAN` (R208). -/
def execVscan (ty : Ty) (vd va : VReg) (op : BitVec 2) (s : State) : Result := .next (s.vecIssue (.vscan ty vd va op) 0 0 none)

/-- `VMOV` (R201). -/
def execVmov (ty : Ty) (vd va : VReg) (s : State) : Result := .next (s.vecIssue (.vmov ty vd va) 0 0 none)

/-- `VBCAST` (R205). -/
def execVbcast (ty : Ty) (v : VReg) (a : Reg) (s : State) : Result := .next (s.vecIssue (.vbcast ty v a) (s.rd a) 0 none)

/-- `VINS` (R205). -/
def execVins (ty : Ty) (v : VReg) (a : Reg) (lane : BitVec 6) (s : State) : Result := .next (s.vecIssue (.vins ty v a lane) (s.rd a) 0 none)

/-- `VSEL` (R206). -/
def execVsel (ty : Ty) (v : VReg) (a : Reg) (vx : VReg) (s : State) : Result := .next (s.vecIssue (.vsel ty v a vx) (s.rd a) 0 none)

/-- `VEXT` (R205). -/
def execVext (ty : Ty) (a : Reg) (v : VReg) (lane : BitVec 6) (s : State) : Result := .next (s.vecIssue (.vext ty a v lane) 0 0 (some a))

/-- `VCMPEQ` (R206). -/
def execVcmpeq (ty : Ty) (a : Reg) (v vx : VReg) (s : State) : Result := .next (s.vecIssue (.vcmpeq ty a v vx) 0 0 (some a))

/-- `VCMPLT` (R206). -/
def execVcmplt (ty : Ty) (a : Reg) (v vx : VReg) (s : State) : Result := .next (s.vecIssue (.vcmplt ty a v vx) 0 0 (some a))

/-- `VCMPLE` (R206). -/
def execVcmple (ty : Ty) (a : Reg) (v vx : VReg) (s : State) : Result := .next (s.vecIssue (.vcmple ty a v vx) 0 0 (some a))

/-- `VREDADD` (R207). -/
def execVredadd (ty : Ty) (a : Reg) (v : VReg) (s : State) : Result := .next (s.vecIssue (.vredadd ty a v) 0 0 (some a))

/-- `VREDMAX` (R207). -/
def execVredmax (ty : Ty) (a : Reg) (v : VReg) (s : State) : Result := .next (s.vecIssue (.vredmax ty a v) 0 0 (some a))

/-- `VREDMIN` (R207). -/
def execVredmin (ty : Ty) (a : Reg) (v : VReg) (s : State) : Result := .next (s.vecIssue (.vredmin ty a v) 0 0 (some a))

/-! ## Memory (R202 to R204) -/

/-- The checks of R137 on a 64-byte access (R202). -/
def State.rowChecks (s : State) (ea : Word) (store : Bool) (act : Loc → State) : State :=
  if ea.toNat % 64 != 0 then s.trap .misalign ea
  else
    let l := s.loc ea 64
    match l with
    | .bad => s.trap .noname ea
    | .state _ _ => s.privTrap
    | _ => if store && s.ownCode l 64 then s.privTrap else act l

/-- `VLD` (R202). -/
def execVld (v : VReg) (a : Reg) (off : BitVec 6) (s : State) : Result :=
  let ea := s.rd a + zext off * 64
  .next (s.onTileOnly fun _ _ => s.rowChecks ea false fun l => s.vecMemIssue (.vld v a off) ea 0 l false)

/-- A row store: its checks, and the release point of one whose home is off the tile (R202, R203). -/
def State.rowStore (s : State) (i : Instr) (ea m : Word) : State :=
  s.onTileOnly fun t _ => s.rowChecks ea true fun l =>
    if s.ownScratch l then s.vecMemIssue i ea m l true else s.vecRelease t (s.vecMemIssue i ea m l true)

/-- `VST` (R202). -/
def execVst (v : VReg) (a : Reg) (off : BitVec 6) (s : State) : Result :=
  .next (s.rowStore (.vst v a off) (s.rd a + zext off * 64) (BitVec.allOnes 64))

/-- `VSTM` (R203). -/
def execVstm (v : VReg) (a m : Reg) (s : State) : Result := .next (s.rowStore (.vstm v a m) (s.rd a) (s.rd m))

/-- `VLDQ` (R190, R204): takes the read entry as `LDQ` does, and reads its 64 bytes at issue. Without them, for an
uncorrectable error among them, the command completes with `ECC_UE` and leaves its row (R194). -/
def execVldq (v : VReg) (q : QNum) (off : BitVec 6) (s : State) : Result :=
  .next (s.onTileOnly fun t k => s.withQueue q fun _ _ x =>
    if x.bytes < 64 * off.toNat + 64 then s.queueErr q
    else match x.readEntry with
      | none => s.retry
      | some i =>
        let at' := x.offset i + 64 * off.toNat
        if (x.entry i).takenByOther k || 8 ≤ (s.tile t).vecQueued || s.ownBusy (BitVec.ofNat 64 at') t at' 64 then s.retry
        else
          let bad := s.eccBad (scratchKey t at') 64
          ((s.onQueue t q fun y => y.setEntry i ((y.entry i).take k)).foundEcc (scratchKey t at') 64).enqueueVec t k
            (.vldq v q off) (BitVec.ofNat 64 at') 0 none (if bad then none else some (s.mem.readN (scratchKey t at') 64)))

/-! ## Scans along a chain, and the fence (R193, R209, R210) -/

/-- The check that a direction has a tile (R76, R210). -/
def State.hasNeighbour (s : State) (t : TileName) (need : Bool) (dir : BitVec 2) (act : State) : State :=
  if !need then act
  else match s.neighbourTile t dir with
    | .error e => e.2.trap .noname e.1
    | .ok _ => act

/-- `XSCAN` (R209, R210). One that sends a carry is not issued while the gates are at HOLD; one that is queued by then
goes on, so that the queue can drain (R279, R292). -/
def execXscan (ty : Ty) (v : VReg) (dirIn dirOut op role : BitVec 2) (s : State) : Result :=
  let i : Instr := .xscan ty v dirIn dirOut op role
  .next (s.onTileOnly fun t _ =>
    s.hasNeighbour t (roleIn role) dirIn (s.hasNeighbour t (roleOut role) dirOut
      (if roleOut role then s.vecRelease t (if s.gatesHeld then s.retry else s.vecIssue i 0 0 none)
       else s.vecIssue i 0 0 none)))

/-- `VFENCE` (R193): waits for the vector commands issued before it. -/
def execVfence (s : State) : Result :=
  .next (s.onTileOnly fun t _ =>
    if (s.tile t).vq.isEmpty then s.retire else s.issueAndWait (.older .vec s.serial))

end Sys2Proof.Machine
end

