-- ==== Sys2Proof/Machine/VecEvents.lean ====
section
/-! DEFINITION. The vector unit at work: a command starts, and a command completes with its effect (R190 to
R194, R196 to R211). -/

namespace Sys2Proof.Machine

/-! ## Start (R190, R194) -/

/-- The own-scratch location of a command's 64 bytes, if that is where it acts. -/
def State.vecOwn (s : State) (t : TileName) (c : VCmd) : Option Nat :=
  match s.locate (some t) c.a 64 with
  | .scratch t' off => if t' = t then some off else none
  | _ => none

/-- Whether two commands act on overlapping rows of own scratch, one of them storing. -/
def State.scratchHazard (s : State) (t : TileName) (c e : VCmd) : Bool :=
  c.data.isNone && e.data.isNone && c.isMem && e.isMem && !(c.isLoad && e.isLoad)
    && (match s.vecOwn t c, s.vecOwn t e with
        | some a, some b => rangesMeet a 64 b 64
        | _, _ => false)

/-- The access that a memory command makes at its home; none for any other command (R202, R203). -/
def Tile.vecAccess (x : Tile) (c : VCmd) : Option Access :=
  match c.instr with
  | .vld _ _ _ => some (.load 64 false)
  | .vst v _ _ | .vstm v _ _ =>
    some (.store 64 ((indexed (toBytes 64 (x.rows.get 0 v.toNat).toNat)).filter fun b => bit c.m b.1))
  | _ => none

/-- The executing state seen from a command's slot. -/
def State.asSlot (s : State) (t : TileName) (k : BitVec 2) : State := { s with cur := .slot t k }

/-- The accesses of an activation, issued before number `id`, that a STRONG access waits for: those that have left, and
vector commands on own scratch (R83). -/
def State.strongBefore (s : State) (t : TileName) (k : BitVec 2) (act id : Nat) : Bool :=
  ((s.slot t k).act = act && (s.slot t k).ctx.out.any fun o => o.strong && o.id < id)
    || (s.tile t).vq.any fun e => e.slot = k && e.act = act && e.id < id && e.isMem && e.data.isNone && field e.a 60 4 = 0

/-- Whether a request of an activation, issued before number `id`, to some of n bytes of own scratch is not yet
performed (R82). -/
def State.requestBefore (s : State) (t : TileName) (k : BitVec 2) (act id off n : Nat) : Bool :=
  s.packets.any fun p => match p.2.body.req? with
    | some r => r.hasParty (.slot t k act) (· < id) && (match s.packetKey p.2 r with
        | some key => rangesMeet key r.acc.size (scratchKey t off) n
        | none => false)
    | none => false

/-- Whether a command's start must wait: for 16 requests, an earlier STRONG access, an earlier access of the slot to its
bytes, the metadata that an earlier `MMAS` has yet to read (R19, R82, R83, R141, R224). A queued command goes on under gates at HOLD (R292). -/
def State.vecMustWait (s : State) (t : TileName) (c : VCmd) (acc : Access) : Bool :=
  let v := s.asSlot t c.slot
  let l := s.locate (some t) c.a 64
  (!c.isLoad && (match s.vecOwn t c with | some off => s.metaBefore c.id t off 64 | none => false))
    || (v.isStrong c.a l acc.right && s.strongBefore t c.slot c.act c.id)
    || (match s.vecOwn t c with | some off => s.requestBefore t c.slot c.act c.id off 64 | none => false)
    || ((s.vecOwn t c).isNone && acc.isLimited && 16 ≤ (s.tile t).offTile.length)

/-- Sends the request of a memory command whose home is off the tile (R98, R141, R202). -/
def State.sendVec (s : State) (t : TileName) (c : VCmd) (acc : Access) : State :=
  let v := s.asSlot t c.slot
  let l := s.locate (some t) c.a 64
  let counted := v.countsLine c.a l acc
  let src := tileNode t
  let r : Req := { acc := acc, addr := c.a, who := { origin := .vec t c.slot c.act c.id, rid := c.id, epc := c.epc, iw := c.iw },
                   also := [], pid := (s.tile t).pid, hLevel := false, dest := none, counted := counted, lc := false }
  (s.onTile t fun x =>
    { x with offTile := if acc.isLimited then x.offTile ++ [c.id] else x.offTile,
             outst := if counted then x.outst + 1 else x.outst }).inject src (v.reqNode l src) 0 acc.flits
      (s.stampOf t.ret false) false (.req r)

/-- Changes the command with a number. -/
def Tile.onVec (x : Tile) (id : Nat) (f : VCmd → VCmd) : Tile :=
  { x with vq := x.vq.map fun c => if c.id = id then f c else c }

/-- An access of a slot's activation is performed: it leaves the slot's list (R163). -/
def State.performed (s : State) (t : TileName) (k : BitVec 2) (act id : Nat) : State :=
  if (s.slot t k).act = act then
    s.onSlot t k fun y => { y with ctx := { y.ctx with out := y.ctx.out.filter fun o => o.id != id } }
  else s

/-- A trap of a command without precision: to its slot while the activation holds it, else a record that
names no slot (R194, R267). -/
def State.cmdTrap (s : State) (t : TileName) (k : BitVec 2) (act : Nat) (cause : Cause) (epc eval : Word) : State :=
  match s.activation t k act with
  | some ag => s.lateFailure ag act cause epc eval id
  | none => s.noSlotRecord t cause epc eval

/-- The command leaves the unit. -/
def State.dropVec (s : State) (t : TileName) (id : Nat) : State :=
  s.onTile t fun x => { x with vq := x.vq.filter fun c => c.id != id }

/-- The first row that a command reads and that holds an uncorrectable error (R139, R345). -/
def State.badRow (s : State) (t : TileName) (c : VCmd) : Option Nat :=
  (rowsRead c.instr).find? fun r => s.eccBad (rowKey t r) 64

/-- A command that reads a row with an uncorrectable error leaves the unit without its effect, and traps (R345; log entry
37). -/
def State.rowFailed (s : State) (t : TileName) (c : VCmd) (r : Nat) : State :=
  (((s.dropVec t c.id).foundEcc (rowKey t r) 64).onSlot t c.slot fun y =>
    { y with ctx := { y.ctx with pend := y.ctx.pend.map fun p => if p.id = c.id then { p with failed := true } else p } }).cmdTrap
      t c.slot c.act .eccUe c.epc (BitVec.ofNat 64 (0x820000 + 64 * r))

/-- `VECTOR_COMMAND_START` (R190): the oldest command that has not started starts, unless the unit is held or
the command depends on one that has not completed. -/
def execVectorCommandStart (t : TileName) (s : State) : Result :=
  let x := s.tile t
  let going := x.vq.filter (·.started)
  .next (match x.vq.find? fun c => !c.started with
    | none => s
    | some c =>
      if s.unitHeld t || x.matrixHolds c || going.any (fun e => rowHazard c.instr e.instr || s.scratchHazard t c e)
          || going.any (fun e => match e.instr with | .xscan _ _ _ _ _ _ => true | _ => false) then s
      else
        let start (s : State) : State := s.onTile t (·.onVec c.id fun c => { c with started := true })
        match x.vecAccess c with
        | none => start s
        | some acc =>
          if s.vecMustWait t c acc then s
          else if (s.vecOwn t c).isSome then start s
          else match s.badRow t c with
          | some r => (s.rowFailed t c r).settleZeros t
          | none => ((start s).sendVec t c acc).onTile t (·.onVec c.id fun c => { c with sent := true }))

/-! ## Completion -/

/-- Writes rows of the accumulator file; a written row holds no error. -/
def State.writeRows (s : State) (t : TileName) : List (Nat × Row) → State
  | [] => s
  | (i, r) :: rest => State.writeRows ((s.onTile t fun x => { x with rows := x.rows.put i r }).eccClear (rowKey t i) 64) t rest

/-- The rows that a row command writes, from the rows it reads (R196 to R201, R205, R206, R208). -/
def Tile.rowResult (x : Tile) (c : VCmd) : List (Nat × Row) :=
  let row (v : VReg) : Row := x.rows.get 0 v.toNat
  match c.instr with
  | .vadd ty d a b => [(d.toNat, vadd ty (row a) (row b))]
  | .vsub ty d a b => [(d.toNat, vsub ty (row a) (row b))]
  | .vmul ty d a b => [(d.toNat, vmul ty (row a) (row b))]
  | .vfma ty d a b => [(d.toNat, vfma ty (row d) (row a) (row b))]
  | .vmin ty d a b => [(d.toNat, lanes2 ty (pickLane ty false) (row a) (row b))]
  | .vmax ty d a b => [(d.toNat, lanes2 ty (pickLane ty true) (row a) (row b))]
  | .vand _ d a b => [(d.toNat, row a &&& row b)]
  | .vor _ d a b => [(d.toNat, row a ||| row b)]
  | .vxor _ d a b => [(d.toNat, row a ^^^ row b)]
  | .vshl ty d a b => [(d.toNat, lanes2 ty (shiftLane ty 0) (row a) (row b))]
  | .vshr ty d a b => [(d.toNat, lanes2 ty (shiftLane ty 1) (row a) (row b))]
  | .vsha ty d a b => [(d.toNat, lanes2 ty (shiftLane ty 2) (row a) (row b))]
  | .vabs ty d a => [(d.toNat, lanes1 ty (signLane ty false) (row a))]
  | .vneg ty d a => [(d.toNat, lanes1 ty (signLane ty true) (row a))]
  | .vrec ty d a b => [(d.toNat, vrec ty (row d) (row a) (row b))]
  | .vexp2 ty d a => [(d.toNat, lanes1 ty (specialLane 0 ty) (row a))]
  | .vlog2 ty d a => [(d.toNat, lanes1 ty (specialLane 1 ty) (row a))]
  | .vrcp ty d a => [(d.toNat, lanes1 ty (specialLane 2 ty) (row a))]
  | .vrsq ty d a => [(d.toNat, lanes1 ty (specialLane 3 ty) (row a))]
  | .vsig ty d a => [(d.toNat, lanes1 ty (specialLane 4 ty) (row a))]
  | .vcvt ty src mode sat d a =>
    let out := vcvt ty src mode.toNat sat ((rowSpan a (cvtRowsIn ty src)).map fun i => x.rows.get 0 i)
    (rowSpan d (cvtRowsOut ty src)).zip out
  | .vperm ty d a b => [(d.toNat, vperm ty (row a) (row b))]
  | .vshf ty d a b => [(d.toNat, vshf ty (row a) (row b))]
  | .vscan ty d a op =>
    (rowSpan d 2).zip (scanOut op.toNat (koggeStone ty op.toNat (scanIn op.toNat (row a) (x.rows.get 0 (a.toNat + 1)))))
  | .vmov _ d a => [(d.toNat, row a)]
  | .vbcast ty v _ => [(v.toNat, ofTy ty (List.replicate ty.lanes (field c.a 0 ty.width)))]
  | .vins ty v _ i => [(v.toNat, insLane ty (row v) i.toNat c.a)]
  | .vsel ty v _ vx => [(v.toNat, vsel ty (row v) (row vx) c.a)]
  | _ => []

/-- The register and value that a command with a scalar result writes (R205 to R207). -/
def Tile.scalarResult (x : Tile) (c : VCmd) : Option (Reg × Word) :=
  let row (v : VReg) : Row := x.rows.get 0 v.toNat
  match c.instr with
  | .vext ty a v i => some (a, extLane ty (row v) i.toNat)
  | .vcmpeq ty a v vx => some (a, cmpMask ty 0 (row v) (row vx))
  | .vcmplt ty a v vx => some (a, cmpMask ty 1 (row v) (row vx))
  | .vcmple ty a v vx => some (a, cmpMask ty 2 (row v) (row vx))
  | .vredadd ty a v => some (a, redAdd ty (row v))
  | .vredmax ty a v => some (a, redPick ty true (row v))
  | .vredmin ty a v => some (a, redPick ty false (row v))
  | _ => none

/-- A result arrives at a register that awaits it: only the activation that awaits it takes it (R126, R370). -/
def Ctx.resolve (c : Ctx) (id : Nat) (v : Word) : Ctx :=
  match c.pend.find? (·.id = id) with
  | some p => { c.set p.reg v with pend := c.pend.filter (·.id != id) }
  | none => c

/-- Completes a command that reads no memory: rows or a scalar result (R196 to R208). -/
def State.completeRow (s : State) (t : TileName) (c : VCmd) : State :=
  let s1 := s.dropVec t c.id
  match (s.tile t).scalarResult c with
  | some (_, v) => s1.onSlot t c.slot fun y => { y with ctx := y.ctx.resolve c.id v }
  | none => s1.writeRows t ((s.tile t).rowResult c)

/-- A load whose bytes are known writes its row (R202, R204). -/
def State.completeLoad (s : State) (t : TileName) (c : VCmd) (v : VReg) (bs : List Byte) : State :=
  (s.dropVec t c.id).writeRows t [(v.toNat, BitVec.ofNat 512 (ofBytes bs))]

/-- Completes a load of 64 bytes from own scratch (R194, R202). -/
def State.completeOwnLoad (s : State) (t : TileName) (c : VCmd) (v : VReg) (off : Nat) : State :=
  let s1 := s.dropVec t c.id
  if s.eccBad (scratchKey t off) 64 then (s1.foundEcc (scratchKey t off) 64).cmdTrap t c.slot c.act .eccUe c.epc c.a
  else s.completeLoad t c v (s.mem.readN (scratchKey t off) 64)

/-- Completes a store to own scratch (R194, R202, R203). -/
def State.completeOwnStore (s : State) (t : TileName) (c : VCmd) (off : Nat) (bs : List (Nat × Byte)) : State :=
  let key := scratchKey t off
  let s1 := (s.dropVec t c.id).storeBytes key bs
  if (s.badWords key bs).isEmpty then s1 else (s1.foundWords (s.badWords key bs)).cmdTrap t c.slot c.act .eccUe c.epc c.a

/-- The state of an `XSCAN` that waits for its carry or for room in the next mailbox; the carry is popped as
soon as it has arrived, behind the pops of the mailbox that issued before (R19, R209, R211). -/
def State.completeScan (s : State) (t : TileName) (c : VCmd) (ty : Ty) (v : VReg) (dirIn dirOut op role : BitVec 2) : State :=
  let x := s.tile t
  let row (i : Nat) : Row := x.rows.get 0 (v.toNat + i)
  let found : Option Word := match c.carry with
    | some w => some w
    | none => if x.scanPops dirIn c.id || x.waitPops dirIn c.id then none else (x.box dirIn).head?
  let s := if roleIn role && c.carry.isNone && found.isSome then
    s.onTile t fun x => (x.popBox dirIn).onVec c.id fun c => { c with carry := found } else s
  if roleIn role && found.isNone then s
  else
    let loc := koggeStone ty op.toNat (scanIn op.toNat (row 0) (row 1))
    let with_ (l : Nat) : Nat := if roleIn role then combine ty op.toNat (found.getD 0).toNat l else l
    let done (s : State) : State :=
      (s.dropVec t c.id).writeRows t ((rowSpan v 2).zip (scanOut op.toNat (loc.map with_)))
    if !roleOut role then done s
    else match neighbour t dirOut with
      | none => done s
      | some n =>
        if 4 ≤ s.credits n (opposite dirOut) then s
        else done (s.startLane t n dirOut (BitVec.ofNat 64 (with_ (loc.getD 15 0)))
          { origin := .slot t c.slot c.act, rid := c.id, epc := c.epc, iw := c.iw })

/-- `VECTOR_COMMAND_COMPLETE` (R193 to R211): the command at position `i` of the unit, once started, has its
effect and leaves; one that reads a row with an uncorrectable error traps instead (R345). -/
def execVectorCommandComplete (t : TileName) (i : Nat) (s : State) : Result :=
  .next (State.settleZeros t (match (s.tile t).vq[i]? with
    | none => s
    | some c =>
      if !c.started then s
      else match (if c.sent then none else s.badRow t c) with
      | some r => s.rowFailed t c r
      | none => match c.instr with
        | .vld v _ _ =>
          (match c.data with
           | some bs => s.completeLoad t c v bs
           | none => if c.sent then s else s.completeOwnLoad t c v ((s.vecOwn t c).getD 0))
        | .vldq v _ _ =>
          (match c.data with
           | some bs => s.completeLoad t c v bs
           | none => (s.dropVec t c.id).cmdTrap t c.slot c.act .eccUe c.epc c.a)
        | .vst _ _ _ | .vstm _ _ _ =>
          if c.sent then (if s.accepted (tileNode t) c.id then s.dropVec t c.id else s)
          else (match (s.tile t).vecAccess c with
            | some (.store _ bs) => s.completeOwnStore t c ((s.vecOwn t c).getD 0) bs
            | _ => s)
        | .xscan ty v dirIn dirOut op role => s.completeScan t c ty v dirIn dirOut op role
        | _ => s.completeRow t c))

end Sys2Proof.Machine
end

