-- ==== Sys2Proof/Machine/Stream.lean ====
section
/-! DEFINITION. The stream engine: tensor records, the transfer commands, their chunks, and the counter adds
(R96, R97, R257 to R269). -/

namespace Sys2Proof.Machine

/-! ## Tensor records (R258 to R261) -/

def TRec.fmt (r : TRec) : Ty := BitVec.ofNat 3 (field r.w3 32 3)
/-- Extent of dimension i. -/
def TRec.extent (r : TRec) (i : Nat) : Nat := field r.w1 (16 * i) 16 + 1
/-- Byte distance of dimension i, 1 to 3. -/
def TRec.stride (r : TRec) (i : Nat) : Int :=
  Sys2Proof.Machine.signed 32 (match i with | 1 => field r.w2 0 32 | 2 => field r.w2 32 32 | _ => field r.w3 0 32)
def TRec.rowBits (r : TRec) : Nat := r.extent 0 * Ty.width r.fmt
def TRec.rowBytes (r : TRec) : Nat := r.rowBits / 8
/-- Bytes that a record covers. -/
def TRec.bytes (r : TRec) : Nat := r.rowBytes * r.extent 1 * r.extent 2 * r.extent 3

/-- Address of byte p of a record's order, and the bytes that follow it contiguously (R258). -/
def TRec.at (r : TRec) (p : Nat) : Word × Nat :=
  let row := p / r.rowBytes
  let i1 := row % r.extent 1
  let i2 := row / r.extent 1 % r.extent 2
  let i3 := row / (r.extent 1 * r.extent 2)
  (r.w0 + BitVec.ofInt 64 (i1 * r.stride 1 + i2 * r.stride 2 + i3 * r.stride 3 + (p % r.rowBytes : Nat)),
   r.rowBytes - p % r.rowBytes)

/-- The generation after one (R259): 0 is skipped. -/
def nextGen (g : BitVec 24) : BitVec 24 := if g = BitVec.allOnes 24 then 1 else g + 1

/-- A record's slot as `TREC` leaves it. -/
def TRec.form (g : BitVec 24) (e0 e1 e2 e3 : Word) : TRec := { w0 := e0, w1 := e1, w2 := e2, w3 := e3, gen := g, valid := true }

/-- The handle of a record in a slot (R260). -/
def TRec.handle (r : TRec) (k : Nat) : Word := BitVec.ofNat 64 (k + r.gen.toNat * 2 ^ 8)

/-- `TREC` (R259). -/
def execTrec (d a : Reg) (s : State) : Result :=
  let k := field (s.rd a) 0 6
  .next (s.onTileOnly fun t _ =>
    let r := TRec.form (nextGen ((s.tile t).recAt k).gen) (s.erd 0) (s.erd 1) (s.erd 2) (s.erd 3)
    if r.w0.toNat % 8 != 0 || r.stride 1 % 8 != 0 || r.stride 2 % 8 != 0 || r.stride 3 % 8 != 0 || r.rowBits % 64 != 0 then
      s.trap .misalign r.w0
    else if 2 ^ 32 ≤ r.bytes then s.illegal
    else (s.onTile t fun x => { x with recs := x.recs.put k r }).put d (r.handle k))

/-- `TRINV` (R261). -/
def execTrinv (a : Reg) (s : State) : Result :=
  let k := field (s.rd a) 0 6
  .next (s.onTileOnly fun t _ =>
    let r := (s.tile t).recAt k
    (s.onTile t fun x => { x with recs := x.recs.put k { r with gen := nextGen r.gen, valid := false } }).retire)

/-- The record that a handle names: none with GEN 0 (R260). -/
def Tile.handle (x : Tile) (h : Nat) : Option TRec :=
  let r := x.recAt (h % 64)
  if h / 64 % 4 = 0 && r.valid && r.gen != 0 && h / 256 % 2 ^ 24 = r.gen.toNat then some r else none

/-! ## The sides of a transfer (R262, R263) -/

/-- Where the bytes of one side lie: contiguous, in a record's order, or as listed elements. -/
inductive Side where
  | flat (base : Word)
  | record (r : TRec)
  | listed (base : Word) (esize : Nat)
  deriving DecidableEq, Repr

/-- Whether a side must lie in own tile scratch. -/
def srcOwn : Instr → Bool
  | .put _ _ _ _ _ _ _ | .mcast _ _ _ _ _ _ _ | .scatter _ _ _ _ _ _ _ => true
  | _ => false
def dstOwn : Instr → Bool
  | .fetch _ _ _ _ _ _ _ | .mcast _ _ _ _ _ _ _ | .gather _ _ _ _ _ _ _ => true
  | _ => false

def isGather : Instr → Bool | .gather _ _ _ _ _ _ _ => true | _ => false
def isScatter : Instr → Bool | .scatter _ _ _ _ _ _ _ => true | _ => false
def isMcast : Instr → Bool | .mcast _ _ _ _ _ _ _ => true | _ => false
def isListed (i : Instr) : Bool := isGather i || isScatter i

/-- The lc flag of a transfer command. -/
def streamLc : Instr → Bool
  | .fetch _ _ _ lc _ _ _ | .put _ _ _ lc _ _ _ | .copy _ _ _ lc _ _ _ | .mcast _ _ _ lc _ _ _
  | .gather _ _ _ lc _ _ _ | .scatter _ _ _ lc _ _ _ => lc
  | _ => false

def SCmd.mode (c : SCmd) : Nat := field c.e1 0 2
def SCmd.esize (c : SCmd) : Nat := field c.e0 0 32
def SCmd.listOff (c : SCmd) : Nat := field c.e2 0 18
def SCmd.count (c : SCmd) : Nat := field c.e2 32 16

def SCmd.src (c : SCmd) : Side :=
  if isGather c.instr then .listed c.a c.esize
  else match c.recSrc with | some r => .record r | none => .flat c.a

def SCmd.dst (c : SCmd) : Side :=
  if isScatter c.instr then .listed c.d c.esize
  else match c.recDst with | some r => .record r | none => .flat c.d

/-- Bytes that a command moves. -/
def SCmd.size (c : SCmd) : Nat :=
  if isListed c.instr then c.count * c.esize
  else match c.recSrc, c.recDst with
    | some r, _ => r.bytes
    | none, some r => r.bytes
    | none, none => field c.e0 0 32

/-- The list entry of an element, as the engine has read it. -/
def SCmd.entry (c : SCmd) (i : Nat) : Option Word := (c.entries[i]?).join

/-- Address of byte p of a side and the bytes that follow it contiguously. -/
def SCmd.sideAt (c : SCmd) (x : Side) (p : Nat) : Word × Nat :=
  match x with
  | .flat base => (base + BitVec.ofNat 64 p, 2 ^ 32)
  | .record r => r.at p
  | .listed base esize => (base + (c.entry (p / esize)).getD 0 + BitVec.ofNat 64 (p % esize), esize - p % esize)

/-- Puts a number behind those whose key is not above its own. -/
def insertBy (key : Nat → Nat) (x : Nat) : List Nat → List Nat
  | [] => [x]
  | y :: rest => if key x < key y then x :: y :: rest else y :: insertBy key x rest

/-- Bytes of one piece of a command's destination: a row, an element, or all of it. -/
def SCmd.piece (c : SCmd) : Nat :=
  match c.dst with
  | .flat _ => c.total
  | .record r => r.rowBytes
  | .listed _ esize => esize

/-- The pieces of a destination in ascending address order, those of one address in their own order (R96); a contiguous
destination needs none. -/
def SCmd.plan (c : SCmd) : List Nat :=
  match c.dst with
  | .flat _ => []
  | _ => (upFrom 0 (c.total / c.piece)).foldl (fun l i => insertBy (fun j => (c.sideAt c.dst (j * c.piece)).1.toNat) i l) []

/-- The byte of the command that stands at position p of the order in which it is moved. -/
def SCmd.byteAt (c : SCmd) (p : Nat) : Nat :=
  match c.order[p / c.piece]? with
  | some i => i * c.piece + p % c.piece
  | none => p

/-- The engine starts a command: it reads the list and puts the pieces of the destination in order (R96, R263). -/
def State.startCmd (s : State) (t : TileName) (c : SCmd) : SCmd :=
  let read (i : Nat) : Option Word :=
    let key := scratchKey t (c.listOff + 8 * i)
    if s.eccBad key 8 then none else some (s.mem.word key)
  let c := { c with started := true, entries := if isListed c.instr then (upFrom 0 c.count).map read else [] }
  { c with order := c.plan }

/-! ## Checks at issue (R264) -/

/-- Check 1: the counter. -/
def State.streamCounter (s : State) (t : TileName) (i : Instr) (B : Word) (act : State) : State :=
  if isMcast i then
    if B.toNat % 16 != 0 then s.trap .misalign B
    else if 0x28000 < B.toNat + 16 then s.trap .noname B
    else match s.locate (some t) B 16 with
      | .bad => s.trap .noname B
      | _ => act
  else s.counterAddr B fun _ => act

/-- The handles that the mode of a command names, source before destination. -/
def SCmd.handles (c : SCmd) : List Nat :=
  if isListed c.instr then []
  else match c.mode with
    | 0 => []
    | 3 => [field c.e0 0 32, field c.e0 32 32]
    | _ => [field c.e0 0 32]

/-- The command with copies of the records that its handles name (R261). -/
def SCmd.withRecords (c : SCmd) (x : Tile) : SCmd :=
  let h (n : Nat) : Option TRec := (c.handles[n]?).bind x.handle
  if isListed c.instr then c
  else match c.mode with
    | 1 => { c with recSrc := h 0 }
    | 2 => { c with recDst := h 0 }
    | 3 => { c with recSrc := h 0, recDst := h 1 }
    | _ => c

/-- Check 3: modes and sizes that are not allowed. -/
def SCmd.badMode (c : SCmd) : Bool :=
  (isMcast c.instr && 2 ≤ c.mode)
    || (isListed c.instr && (c.mode != 0 || c.esize % 8 != 0 || c.esize < 8 || 4096 < c.esize))
    || (!isListed c.instr && c.mode = 3 &&
          (match c.recSrc, c.recDst with | some r, some r' => r.bytes != r'.bytes | _, _ => false))

/-- The direct sides: address, bytes, whether it must lie in own tile scratch, whether it is the destination. -/
def SCmd.direct (c : SCmd) : List (Word × Nat × Bool × Bool) :=
  (if isGather c.instr || c.recSrc.isSome then [] else [(c.a, c.size, srcOwn c.instr || isScatter c.instr, false)])
    ++ (if isScatter c.instr || c.recDst.isSome then [] else [(c.d, c.size, dstOwn c.instr, true)])
    ++ (if isListed c.instr then [(BitVec.ofNat 64 c.listOff, 8 * c.count, true, false)] else [])

/-- Addresses that check 4 requires to be 8-byte aligned. -/
def SCmd.aligned (c : SCmd) : List Word :=
  (if isGather c.instr then [c.a] else []) ++ (if isScatter c.instr then [c.d] else []) ++ c.direct.map (·.1)

/-- Whether a direct side takes `NONAME`. A side of 0 bytes, which lies nowhere, takes none, wherever its address points:
the model's choice (log entry 128). -/
def State.sideBad (s : State) (t : TileName) (x : Word × Nat × Bool × Bool) : Bool :=
  if x.2.1 = 0 then false
  else match s.locate (some t) x.1 x.2.1 with
    | .bad => true
    | .scratch u _ => x.2.2.1 && u != t
    | _ => x.2.2.1

/-- Whether a direct side takes `PRIV`. -/
def State.sidePriv (s : State) (t : TileName) (x : Word × Nat × Bool × Bool) : Bool :=
  match s.locate (some t) x.1 x.2.1 with
  | .state _ _ => true
  | .scratch u off => x.2.2.2 && u = t && x.2.1 != 0 && s.codeLocked t off x.2.1
  | _ => false

/-- Check 4: the direct sides. -/
def State.streamSides (s : State) (t : TileName) (c : SCmd) (act : State) : State :=
  match c.aligned.find? fun a => a.toNat % 8 != 0 with
  | some a => s.trap .misalign a
  | none =>
    if !isListed c.instr && c.mode = 0 && c.size % 8 != 0 then s.trap .misalign c.a
    else match c.direct.find? fun x => s.sideBad t x with
      | some x => s.trap .noname x.1
      | none => if c.direct.any fun x => s.sidePriv t x then s.privTrap else act

/-- A command as its instruction names it. -/
def State.formCmd (s : State) (k : BitVec 2) (i : Instr) (acq : Bool) (D A B : Word) : SCmd :=
  { id := s.serial, instr := i, slot := k, act := s.actNow, epc := s.pc, iw := s.iw, d := D, a := A, b := B,
    e0 := s.erd 0, e1 := s.erd 1, e2 := s.erd 2, recSrc := none, recDst := none, after := if acq then s.outIds else [],
    started := false, pos := 0, total := 0, chunks := [], entries := [], order := [], members := none, engine := 0, engineOf := [], checks := 0,
    addsLeft := none }

/-- Issues a transfer command (R264, R265). -/
def State.streamIssue (s : State) (i : Instr) (acq : Bool) (D A B : Word) : State :=
  s.onTileOnly fun t k =>
    let c0 := s.formCmd k i acq D A B
    let c1 := c0.withRecords (s.tile t)
    let c := { c1 with total := c1.size }
    s.streamCounter t i B
      (match c0.handles.find? fun h => ((s.tile t).handle h).isNone with
       | some h => s.trap .trecGen (BitVec.ofNat 64 h)
       | none =>
         if c.badMode then s.illegal
         else s.streamSides t c (s.releasePoint s.retry
           (if s.gatesHeld || 16 ≤ (s.tile t).sq.length then s.retry
            else (s.bump.onTile t fun x => { x with sq := x.sq ++ [c] }).retire)))

/-- `FETCH` (R262). -/
def execFetch (acq rel : Bool) (scope : BitVec 3) (lc : Bool) (d a b : Reg) (s : State) : Result :=
  .next (s.streamIssue (.fetch acq rel scope lc d a b) acq (s.rd d) (s.rd a) (s.rd b))

/-- `PUT` (R262). -/
def execPut (acq rel : Bool) (scope : BitVec 3) (lc : Bool) (d a b : Reg) (s : State) : Result :=
  .next (s.streamIssue (.put acq rel scope lc d a b) acq (s.rd d) (s.rd a) (s.rd b))

/-- `COPY` (R262). -/
def execCopy (acq rel : Bool) (scope : BitVec 3) (lc : Bool) (d a b : Reg) (s : State) : Result :=
  .next (s.streamIssue (.copy acq rel scope lc d a b) acq (s.rd d) (s.rd a) (s.rd b))

/-- `MCAST` (R262). -/
def execMcast (acq rel : Bool) (scope : BitVec 3) (lc : Bool) (d a b : Reg) (s : State) : Result :=
  .next (s.streamIssue (.mcast acq rel scope lc d a b) acq (s.rd d) (s.rd a) (s.rd b))

/-- `GATHER` (R263). -/
def execGather (acq rel : Bool) (scope : BitVec 3) (lc : Bool) (d a b : Reg) (s : State) : Result :=
  .next (s.streamIssue (.gather acq rel scope lc d a b) acq (s.rd d) (s.rd a) (s.rd b))

/-- `SCATTER` (R263). -/
def execScatter (acq rel : Bool) (scope : BitVec 3) (lc : Bool) (d a b : Reg) (s : State) : Result :=
  .next (s.streamIssue (.scatter acq rel scope lc d a b) acq (s.rd d) (s.rd a) (s.rd b))

/-- `SFENCE` (R269). -/
def execSfence (s : State) : Result :=
  .next (s.onTileOnly fun t _ =>
    if (s.tile t).sq.isEmpty then s.retire else s.issueAndWait (.older .stream s.serial))

/-! ## The engine at work (R96, R265 to R268) -/

/-- Changes the command with a number. -/
def State.onStream (s : State) (t : TileName) (id : Nat) (f : SCmd → SCmd) : State :=
  s.onTile t fun x => { x with sq := x.sq.map fun c => if c.id = id then f c else c }

def State.streamCmd (s : State) (t : TileName) (id : Nat) : Option SCmd := (s.tile t).sq.find? (·.id = id)

/-- Whether an access is not yet performed: its request or its reply is on its way, or its vector command is
not complete. -/
def State.accessOpen (s : State) (t : TileName) (id : Nat) : Bool :=
  (s.tile t).vq.any (·.id = id)
    || s.packets.any fun p => match p.2.body with
        | .req r | .treq r _ _ _ => r.who.rid = id || r.also.any (·.rid = id)
        | .reply r _ => r.who.rid = id
        | _ => false

/-- A request of the command stands at a station after `XLATE`: the command is held (R268). -/
def State.streamHeld (s : State) (t : TileName) (id : Nat) : Bool :=
  s.packets.any fun p =>
    (match p.2.place with | .stalled _ _ => true | _ => false)
      && (match p.2.body.req? with
          | some r => (match r.who.origin with | .stream u c _ => u = t && c = id | _ => false)
          | none => false)

/-- A store into own tile scratch that a slot issued before command `id` and that is not yet performed (R96). -/
def State.storeAhead (s : State) (t : TileName) (id : Nat) : Bool :=
  (s.tile t).vq.any (fun c => c.id < id && c.isMem && !c.isLoad)
    || s.packets.any fun p => match p.2.body with
        | .req r => r.who.rid < id && r.who.origin.tile = some t && p.2.dst = tileNode t
            && (match r.acc with | .store _ _ => true | _ => false)
        | _ => false

/-- The trap of a command, and the ENGINE bits it sets (R267). -/
def State.streamTrap (s : State) (t : TileName) (c : SCmd) (bits : BitVec 8) (cause : Cause) (eval : Word) : State :=
  (s.onStream t c.id fun y => { y with engine := y.engine ||| bits }).cmdTrap t c.slot c.act cause c.epc eval

/-- The command stops before its last byte: SHORT is set, and no further chunk is formed (R267). -/
def State.streamStop (s : State) (t : TileName) (c : SCmd) (bits : BitVec 8) (cause : Cause) (eval : Word) : State :=
  (s.onStream t c.id fun y => { y with pos := y.total }).streamTrap t c (bits ||| 0x80) cause eval

/-- Edge lines that a range touches. -/
def linesOf (a : Word) (n : Nat) : Nat := (field a 0 6 + n + 63) / 64

/-- Where a request of a chunk goes: to the home or its station, and for the data of an `MCAST` to the group directory,
which replicates it (R266). -/
def State.chunkNode (s : State) (t : TileName) (c : SCmd) (l : Loc) : Nat :=
  let src := tileNode t
  if isMcast c.instr then s.islandNode (s.anchor (s.regionOf t.ret)) src else (s.asSlot t c.slot).reqNode l src

/-- Sends a request of a chunk on VC3, or on VC4 for a command with lc set (R266, R278). -/
def State.sendChunk (s : State) (t : TileName) (c : SCmd) (id : Nat) (acc : Access) (a : Word) (l : Loc) : State :=
  let v := s.asSlot t c.slot
  let counted := v.countsLine a l acc
  let lines := match acc with | .sread n => if counted then linesOf a n else 0 | _ => 0
  let lc := streamLc c.instr
  let src := tileNode t
  let r : Req := { acc := acc, addr := a, who := { origin := .stream t c.id id, rid := id, epc := c.epc, iw := c.iw },
                   also := [], pid := (s.tile t).pid, hLevel := false, dest := none, counted := counted, lc := lc }
  ((s.onTile t fun x => { x with outst := x.outst + BitVec.ofNat 16 lines }).onStream t c.id fun y =>
    { y with checks := y.checks + lines }).inject src (s.chunkNode t c l) (if lc then 4 else 3) acc.flits
      (s.stampOf t.ret false) false (.req r)

/-- Puts a chunk among those of its command. -/
def State.addChunk (s : State) (t : TileName) (c : SCmd) (k : Chunk) : State :=
  s.bump.onStream t c.id fun y => { y with chunks := y.chunks ++ [k] }

/-- The parts of n bytes, at most 256, that a 256-byte boundary of an address separates: offset and length (R278). -/
def chunkParts (a : Word) (n : Nat) : List (Nat × Nat) :=
  let m := 256 - field a 0 8
  if n ≤ m then [(0, n)] else [(0, m), (m, n - m)]

/-- Whether n bytes at an address of a command's destination lie in a STRONG page (R81, R96). -/
def State.strongTo (s : State) (t : TileName) (c : SCmd) (a : Word) (n : Nat) : Bool :=
  !isMcast c.instr && (s.asSlot t c.slot).isStrong a (s.locate (some t) a n) .w

/-- Sends the bytes of a chunk in write packets, each between 256-byte boundaries of the destination (R278). A packet
for a STRONG page waits for the chunk's packet for one before it (R96). -/
def State.sendParts (s : State) (t : TileName) (c : SCmd) (k : Chunk) (bs : List (Nat × Byte)) : State :=
  let s := s.onStream t c.id fun y => { y with chunks := y.chunks.filter (·.id != k.id) }
  ((chunkParts k.dst k.len).foldl (fun (a : State × Option Nat) x =>
    let s := a.1
    let dst := k.dst + BitVec.ofNat 64 x.1
    let part := (bs.filter fun b => x.1 ≤ b.1 && b.1 < x.1 + x.2).map fun b => (b.1 - x.1, b.2)
    let before := if s.strongTo t c dst x.2 then a.2 else none
    let k' : Chunk := { k with id := s.serial, dst := dst, len := x.2, held := before.map fun i => (i, part) }
    let s := s.addChunk t c k'
    (if before.isSome then s else s.sendChunk t c k'.id (.swrite x.2 part) dst (s.locate (some t) dst x.2),
     if s.strongTo t c dst x.2 then some k'.id else none)) (s, none)).1

/-- Sends the writes of a command that waited for one that is now performed; those of a command that has stopped go
(R96, R267). -/
def State.sendHeld (s : State) (t : TileName) (c : SCmd) : State :=
  c.chunks.foldl (fun s k => match k.held with
    | none => s
    | some (before, part) =>
      if c.chunks.any (·.id = before) then s
      else
        let s := s.onStream t c.id fun y => { y with chunks := y.chunks.filter (·.id != k.id) }
        if bit c.engine 7 then s
        else
          let k' : Chunk := { k with id := s.serial, held := none }
          (s.addChunk t c k').sendChunk t c k'.id (.swrite k.len part) k.dst (s.locate (some t) k.dst k.len)) s

/-- Writes the bytes of a chunk: at once in own tile scratch, by requests elsewhere. -/
def State.writeChunk (s : State) (t : TileName) (c : SCmd) (k : Chunk) (bs : List (Nat × Byte)) : State :=
  let done (s : State) : State := s.onStream t c.id fun y => { y with chunks := y.chunks.filter (·.id != k.id) }
  let l := s.locate (some t) k.dst k.len
  match l with
  | .scratch u off =>
    if u = t then
      let key := scratchKey t off
      let s1 := (done s).storeBytes key bs
      if (s.badWords key bs).isEmpty then s1 else (s1.foundWords (s.badWords key bs)).streamTrap t c 0 .eccUe k.dst
    else s.sendParts t c k bs
  | _ => s.sendParts t c k bs

/-- The address at a member of an `MCAST` of an own-scratch address (R262). -/
def memberAddr (m : TileName) (a : Word) : Word := tileId m + BitVec.ofNat 64 (field a 0 24)

/-- Whether an `MCAST` has stopped at a member (R267). -/
def SCmd.stoppedAt (c : SCmd) (m : TileName) : Bool := bit (c.engineOf.get 0 m) 7

/-- The bytes of a range of own tile scratch, without the words that hold an uncorrectable error (R267). -/
def State.ownBytes (s : State) (t : TileName) (off n : Nat) : List (Nat × Byte) :=
  let bad := s.eccWords (scratchKey t off) n
  (indexed (s.mem.readN (scratchKey t off) n)).filter fun b => !bad.contains ((scratchKey t off + b.1) / 8)

/-- Whether a formed address fails (R73, R262, R267). -/
def formedBad (l : Loc) (t : TileName) (own : Bool) : Bool :=
  match l with
  | .bad | .state _ _ => true
  | .scratch u _ => own && u != t
  | _ => own

/-- Reads a chunk in own tile scratch and writes it at its destination; the data of an `MCAST` leave once, for the
directory, under the own-scratch address of each member (R262, R266). -/
def State.moveOwn (s : State) (t : TileName) (c : SCmd) (src dst : Word) (off n : Nat) : State :=
  let bs := s.ownBytes t off n
  let s := if s.eccBad (scratchKey t off) n then (s.foundEcc (scratchKey t off) n).streamTrap t c 0x08 .eccUe src else s
  let k : Chunk := { id := s.serial, src := src, dst := dst, len := n, member := none, held := none }
  let s := s.addChunk t c k
  if isMcast c.instr then s.sendChunk t c k.id (.swrite n bs) (BitVec.ofNat 64 (field dst 0 24)) (.scratch t (field dst 0 24))
  else s.writeChunk t c k bs

/-- Bytes of the chunk from one address to another, of n that lie contiguously on both sides (R278): those that reach
the next 256-byte boundary of the source, which a packet reads; or of the destination, which a packet writes, when the
source is own tile scratch and is read with no packet. That a packet ends where the bytes of either side cease to be
contiguous, at the end of a row or an element, is the model's choice (log entry 127). -/
def chunkLen (own : Bool) (src dst : Word) (n : Nat) : Nat := min n (256 - field (if own then dst else src) 0 8)

/-- Forms the next chunk of a running command (R76, R262, R263, R278); one with bytes bound for a STRONG page waits for
those before it (R86, R96). A formed address is checked with its whole chunk, of at most 256 bytes: one that begins in a
memory and ends outside stops the command at its start, moves none of its bytes, and gives its start in EVAL, which is
the model's choice (log entry 143). -/
def State.formChunk (s : State) (t : TileName) (c : SCmd) : State :=
  let p := c.byteAt c.pos
  let src := c.sideAt c.src p
  let dst := c.sideAt c.dst p
  let element := p / c.esize
  let entry := c.listOff + 8 * element
  let own := match s.locate (some t) src.1 1 with | .scratch u _ => u = t | _ => false
  let n := chunkLen own src.1 dst.1 (min (c.total - c.pos) (min src.2 dst.2))
  let strong := (chunkParts dst.1 n).any fun x => s.strongTo t c (dst.1 + BitVec.ofNat 64 x.1) x.2
  let ls := s.locate (some t) src.1 n
  let ld := s.locate (some t) dst.1 n
  let moved (s : State) : State := s.onStream t c.id fun y => { y with pos := y.pos + n }
  if isListed c.instr && (c.entry element).isNone then
    ((s.foundEcc (scratchKey t entry) 8).onStream t c.id fun y =>
        { y with pos := y.pos + (y.esize - p % y.esize) }).streamTrap t c 0x08 .eccUe (BitVec.ofNat 64 entry)
  else if formedBad ls t (srcOwn c.instr) then s.streamStop t c 0x01 .noname src.1
  else if formedBad ld t (dstOwn c.instr) then s.streamStop t c 0x02 .noname dst.1
  else if (match ld with | .scratch u off => u = t && s.codeLocked t off n | _ => false) then
    s.streamStop t c 0x02 .priv (zext (BitVec.ofNat 32 c.iw.toNat))
  else if !c.chunks.isEmpty && strong then s
  else match ls with
    | .scratch u off =>
      if u = t then (moved s).moveOwn t c src.1 dst.1 off n
      else
        let k : Chunk := { id := s.serial, src := src.1, dst := dst.1, len := n, member := none, held := none }
        ((moved s).addChunk t c k).sendChunk t c k.id (.sread n) src.1 ls
    | _ =>
      let k : Chunk := { id := s.serial, src := src.1, dst := dst.1, len := n, member := none, held := none }
      ((moved s).addChunk t c k).sendChunk t c k.id (.sread n) src.1 ls

/-- Forms chunks of a command while it is running, has bytes left and fewer than eight under way. -/
def State.formChunks (s : State) (t : TileName) (id : Nat) : Nat → State
  | 0 => s
  | f + 1 =>
    match s.streamCmd t id with
    | none => s
    | some c =>
      if !c.started || c.total ≤ c.pos || 8 ≤ c.chunks.length || s.streamHeld t id then s
      else State.formChunks (s.formChunk t c) t id f

/-- The engine serves its running commands in turn (R265). -/
def State.pumpStream (s : State) (t : TileName) : State :=
  (s.tile t).sq.foldl (fun s c => (s.sendHeld t c).formChunks t c.id 8) s

/-- The members of an `MCAST`: those that the directory took with its first packet, or takes now (R35, R266). -/
def State.membersFor (s : State) (t : TileName) (c : SCmd) : List TileName :=
  if isMcast c.instr then c.members.getD (s.groups.get [] (256 * s.regionOf t.ret + field c.e1 8 8)) else []

/-- `STREAM_COMMAND_START` (R96, R265): the oldest command that is not in service starts when fewer than four
run and its acquire is met; the engine then serves the running commands. -/
def execStreamCommandStart (t : TileName) (s : State) : Result :=
  let x := s.tile t
  .next ((match x.sq.find? fun (c : SCmd) => !c.started with
    | none => s
    | some c =>
      if 4 ≤ (x.sq.filter fun (c : SCmd) => c.started).length || c.after.any (s.accessOpen t) || s.storeAhead t c.id then s
      else s.onStream t c.id (s.startCmd t)).pumpStream t)

/-! ## The counter add (R97, R266 to R268) -/

/-- Whether every byte of a command is performed and every check on its lines has returned. -/
def SCmd.finished (c : SCmd) : Bool := c.started && c.total ≤ c.pos && c.chunks.isEmpty && c.checks = 0

/-- The counters that a command signals, with the ENGINE bits of each. -/
def SCmd.adds (c : SCmd) : List (Word × BitVec 8) :=
  if isMcast c.instr then (c.members.getD []).map fun m => (memberAddr m c.b, c.engine ||| c.engineOf.get 0 m)
  else [(c.b, c.engine)]

/-- The entry of a command frees (R265). -/
def State.freeStream (s : State) (t : TileName) (id : Nat) : State :=
  s.onTile t fun x => { x with sq := x.sq.filter fun c => c.id != id }

/-- One add of a command that is performed or acknowledged; the entry frees with the last (R265). -/
def State.addAcked (s : State) (t : TileName) (id : Nat) : State :=
  let s := s.onStream t id fun y => { y with addsLeft := y.addsLeft.map (· - 1) }
  match s.streamCmd t id with
  | some c => if c.addsLeft = some 0 then s.freeStream t id else s
  | none => s

/-- Sends the counter add of a command on VC0, where no router merges it (R266). -/
def State.sendStreamAdd (s : State) (t : TileName) (c : SCmd) (a : Word) (l : Loc) (n st : Word) : State :=
  let src := tileNode t
  let r : Req := { acc := .cadd n st, addr := a,
                   who := { origin := .streamAdd t c.id, rid := s.serial, epc := c.epc, iw := c.iw }, also := [],
                   pid := (s.tile t).pid, hLevel := false, dest := none, counted := false, lc := false }
  s.bump.inject src ((s.asSlot t c.slot).reqNode l src) 0 1 (s.stampOf t.ret false) false (.req r)

/-- Makes one counter add of a command: at once on own tile scratch, by a request elsewhere. -/
def State.streamAdd (s : State) (t : TileName) (c : SCmd) (a : Word) (bits : BitVec 8) : State :=
  let n := BitVec.ofNat 64 c.total
  let st := place 8 bits.toNat
  let l := s.locate (some t) a 16
  if l = .scratch t (field a 0 24) then
    let key := scratchKey t (field a 0 24)
    (if s.eccBad key 16 then (s.foundEcc key 16).cmdTrap t c.slot c.act .eccUe c.epc a else s.addAt t key n st).addAcked t c.id
  else s.sendStreamAdd t c a l n st

/-- `STREAM_COUNTER_ADD` (R97): the oldest command of the engine, once finished, raises its counters by its byte
count. -/
def execStreamCounterAdd (t : TileName) (s : State) : Result :=
  .next (match (s.tile t).sq.head? with
    | none => s
    | some c =>
      let c := { c with members := some (s.membersFor t c) }
      if c.addsLeft = some 0 then s.freeStream t c.id
      else if !c.finished || c.addsLeft.isSome || s.streamHeld t c.id then s
      else if c.adds.isEmpty then s.freeStream t c.id
      else
        c.adds.foldl (fun s x => s.streamAdd t c x.1 x.2)
          (s.onStream t c.id fun y => { y with addsLeft := some c.adds.length }))

end Sys2Proof.Machine
end

