-- ==== Sys2Proof/Machine/Home.lean ====
section
/-! DEFINITION. Requests performed at their home: in a scratch level, in a tile's state space, in edge and far
memory under seals, with the answers and the check results that return (R78, R82, R87, R92 to R98, R136 to
R139, R157 to R162, R266, R316 to R321, R400). -/

namespace Sys2Proof.Machine

/-! ## Answers (R278, R293) -/

/-- Flits of an answer to an access: the data of a stream read, or of 64 bytes, follow a header (R278). -/
def Reply.flits (a : Reply) (acc : Access) : Nat :=
  match a with
  | .data bs =>
    (match acc with
     | .sread _ => 1 + ceilDiv bs.length 32
     | _ => if bs.length ≤ 8 then 1 else 1 + ceilDiv bs.length 32)
  | .eccData bs _ => 1 + ceilDiv bs.length 32
  | _ => 1

/-- Changes the packet with a number. -/
def State.onPacket (s : State) (p : Nat) (f : Packet → Packet) : State :=
  match s.packets.find? p with
  | some k => { s with packets := s.packets.put p (f k) }
  | none => s

def State.dropPacket (s : State) (p : Nat) : State := { s with packets := s.packets.del p }

/-- Answers a request, and every request that a router merged into it, from the node where it was performed:
on VC1, with the request's stamp, marked when the request travelled on VC4 (R278, R293). -/
def State.respond (s : State) (p : Packet) (r : Req) (a : Reply) : State :=
  (r.who :: r.also).foldl (fun s w =>
    let id := s.serial
    (s.inject p.dst w.origin.node 1 (a.flits r.acc) p.stamp r.lc (.reply { r with who := w, also := [] } a)).onPacket id fun k =>
      { k with windowed := p.windowed }) s

/-- Sends the check result of an edge line after its data (R98). -/
def State.sendMac (s : State) (p : Packet) (who : Origin) (ok : Bool) : State :=
  s.inject p.dst who.node 1 1 p.stamp false (.mac who ok)

/-! ## In scratch and in the tile state space -/

/-- A read or write of a tile's state space (R326), or of a state register by an activation that has migrated, whose
write waits where `MTS` would (R164, R185); none while it waits. A row or fabric cell with an uncorrectable error is
read and written as scratch is (R139, R345). -/
def State.performState (s : State) (t : TileName) (off : Nat) (a : Word) (acc : Access) : Option (Reply × State) :=
  let key := scratchKey t off
  match acc with
  | .load n _ => some (if s.eccBad key n then .ecc a else .data (s.tssLoad t off n), s)
  | .store n bs =>
    if (s.badWords key bs).isEmpty then some (.done, (s.tssStore t off (bs.map (·.2))).eccClear key n)
    else some (.ecc a, s)
  | .regRead k i => some (.value ((s.tileReg t k i.toNat).getD 0), s)
  | .regWrite i v =>
    (match s.setTileReg t i.toNat v with
     | .ok s' => some (.done, s')
     | .illegal => some (.done, s)
     | .wait => none)
  | _ => some (.done, s)

/-- Whether a location lies in the latency matrix in the hall scratch of bulkhead 0, which only level H writes (R357).
-/
def latencyRefused (h : Bool) (l : Loc) (w : Nat) : Bool :=
  match l with
  | .hall r off => !h && r = 0 && 0x2000000 < off + w
  | _ => false

/-- Whether a home refuses a store: into a locked code region (R138), or into the latency matrix (R357). -/
def State.storeRefused (s : State) (h : Bool) (l : Loc) (w : Nat) : Bool :=
  match l with
  | .scratch t off => s.codeLocked t off w
  | _ => latencyRefused h l w

/-- A store at a scratch home, by level H or not: some are refused (R138, R357); words with an uncorrectable error
that it does not replace whole are not written (R139). -/
def State.performStore (s : State) (h : Bool) (l : Loc) (a : Word) (w : Nat) (bs : List (Nat × Byte)) : Reply × State :=
  if s.storeRefused h l w then (.codeRefused, s)
  else if (s.badWords l.key bs).isEmpty then (.done, s.storeBytes l.key bs)
  else (.ecc a, s.storeBytes l.key bs)

/-- Whether an instruction still waits for the answer to its request (R155). -/
def State.awaitsReply (s : State) (w : Ticket) : Bool :=
  match s.holder w.origin with
  | some ag => (match (s.ctxOf ag).wait with | .remote rid _ => rid = w.rid | _ => false)
  | none => false

/-- A wait at its home: a watch, unless the instruction has been given up meanwhile (R94, R155, R158). -/
def State.waitAt (s : State) (home key : Nat) (r : Req) (target v : Word) : State :=
  if s.awaitsReply r.who then s.registerWatch home key r.addr target (.wake r.who) v else s

/-- A request at a scratch home. A wait that registers a watch has no answer but its wake. Counter adds and reductions
write, and are refused where level H alone writes (R357). -/
def State.performScratch (s : State) (l : Loc) (r : Req) : Option Reply × State :=
  let key := l.key
  let old := s.mem.word key
  let read (n : Nat) (act : Option Reply × State) : Option Reply × State :=
    if s.eccBad key n then (some (.ecc r.addr), s) else act
  let update (n : Nat) (act : Option Reply × State) : Option Reply × State :=
    if latencyRefused r.hLevel l n then (some .codeRefused, s) else read n act
  match r.acc with
  | .load n _ => read n (some (.data (s.mem.readN key n)), s)
  | .store w bs => let x := s.performStore r.hLevel l r.addr w bs; (some x.1, x.2)
  | .swrite n bs => let x := s.performStore r.hLevel l r.addr n bs; (some x.1, x.2)
  | .cadd n st => update 16 (some .done, s.addAt l.home key n st)
  | .caddf n => update 16 (some (.value old), s.addAt l.home key n 0)
  | .cread => read 16 (some (.value old), s)
  | .ctest target => read 16 (some (.value (flag (target.toNat ≤ old.toNat))), s)
  | .cwait target => read 16 (none, s.waitAt l.home key r target old)
  | .cwatch target t q tag => read 16 (some .done, s.registerWatch l.home key r.addr target (.msg t q tag) old)
  | .regRead _ _ | .regWrite _ _ | .probe _ => (some .done, s)
  | .red op m b =>
    let n := redWidth op m
    update n (some .done, { s with mem := s.mem.reduce key op m b })
  | .sread n =>
    let bad := s.eccWords key n
    (some (if bad.isEmpty then .data (s.mem.readN key n) else .eccData (s.mem.readN key n) (bad.map fun w => 8 * w - key)), s)

/-! ## In edge memory (R98, R316 to R319, R400) -/

/-- What performing a request at a station gives: an answer, the state, the check results that follow; a wait
for a page's re-encryption; or the refusal of a write whose MAJOR is at its end. -/
inductive EdgeResult where
  | done (a : Option Reply) (s : State) (checks : List Bool)
  | wait
  | ctrMax
  deriving Repr

/-- The lines of a physical range: address and bytes within each. -/
def lineParts (pa : Nat) : Nat → Nat → List (Nat × Nat)
  | 0, _ => []
  | f + 1, n => if n = 0 then [] else
      let k := min n (64 - pa % 64)
      (pa, k) :: lineParts (pa + k) f (n - k)

/-- Reads the lines of a range: bytes, and each line's check. -/
def State.edgeRead (s : State) (token : Nat) : List (Nat × Nat) → List Byte × List Bool × State
  | [] => ([], [], s)
  | x :: rest =>
    let a := s.edgeLine x.1 x.2 token
    let b := State.edgeRead a.2.2 token rest
    (a.1 ++ b.1, a.2.1 :: b.2.1, b.2.2)

/-- Whether an uncorrectable error lies in one of the lines of a range: a load needs them whole (R139). -/
def State.linesBad (s : State) (parts : List (Nat × Nat)) : Bool :=
  parts.any fun x => s.eccBad (physKey (x.1 / 64 * 64)) 64

/-- Writes the lines of a range: a part that does not cover its line needs that line's check to pass (R318).
The number of parts that were not performed is counted. -/
def State.edgeStore (s : State) (token base : Nat) (bs : List (Nat × Byte)) : List (Nat × Nat) → Nat × State
  | [] => (0, s)
  | x :: rest =>
    let part := (bs.filter fun b => x.1 ≤ base + b.1 && base + b.1 < x.1 + x.2).map fun b => (base + b.1 - x.1, b.2)
    if part.isEmpty then State.edgeStore s token base bs rest
    else if wholeLine x.1 part || s.lineOk x.1 token then
      let keep := part.filter fun b => !(s.badWords (physKey x.1) part).contains ((physKey x.1 + b.1) / 8)
      State.edgeStore ((s.edgeWrite x.1 token keep).eccClear (physKey x.1) x.2) token base bs rest
    else
      let r := State.edgeStore s token base bs rest
      (r.1 + 1, r.2)

/-- Whether an access writes at its home. -/
def Access.writes : Access → Bool
  | .store _ _ | .swrite _ _ | .cadd _ _ | .caddf _ | .red _ _ _ => true
  | _ => false

/-- The line is written again under its key, its MINOR one higher (R318). -/
def State.reseal (s : State) (pa token : Nat) : State :=
  { s with seals := s.seals.put (pa / 64) { token := token, ok := true, minor := (s.seal pa).minor + 1 } }

/-- A counter add or reduction in an edge line, with its answer: a partial write, so its line's check must pass
(R318). -/
def State.edgeUpdate (s : State) (pa token : Nat) (n : Nat) (a : Word) (ret : Bool) (act : State → State) : Reply × State :=
  let line := s.edgeLine pa 8 token
  let old := (wordOf line.1, line.2.2)
  if s.eccBad (physKey pa) n then (.ecc a, s)
  else if !s.lineOk pa token then (.checkFailed old.1, old.2)
  else (if ret then .value old.1 else .done, act (s.reseal pa token))

/-- A request performed at its home station (R78, R316 to R319). A counter that is read, tested or waited on is read
with its line, whose check follows; `CWATCH` learns of a failed check at once (R98, R400; log entry 113). -/
def State.performEdge (s : State) (b : BulkId) (r : Req) (pa key : Nat) : EdgeResult :=
  let token := s.token key
  let n := r.acc.size
  let parts := lineParts pa 6 n
  let k := physKey pa
  let home := stationHome b
  let value (act : Word → State → Option Reply × State) : EdgeResult :=
    let x := s.edgeRead token [(pa, 8)]
    if s.eccBad k 16 then .done (some (.ecc r.addr)) s x.2.1
    else let y := act (wordOf x.1) x.2.2; .done y.1 y.2 x.2.1
  if r.acc.writes && parts.any (fun x => s.minorFull x.1 && s.majorMax x.1) then .ctrMax
  else if r.acc.writes && parts.any (fun x => s.minorFull x.1) then .wait
  else match r.acc with
    | .load _ _ =>
      let x := s.edgeRead token parts
      if s.linesBad parts then .done (some (.ecc r.addr)) s x.2.1 else .done (some (.data x.1)) x.2.2 x.2.1
    | .sread _ =>
      let x := s.edgeRead token parts
      let bad := s.eccWords k n
      .done (some (if bad.isEmpty then .data x.1 else .eccData x.1 (bad.map fun w => 8 * w - k))) x.2.2 x.2.1
    | .store _ bs =>
      let bad := (s.badWords k bs).isEmpty
      let x := s.edgeStore token pa bs parts
      .done (some (if x.1 != 0 then .checkFailed 1 else if bad then .done else .ecc r.addr)) x.2 []
    | .swrite _ bs =>
      let x := s.edgeStore token pa bs parts
      .done (some (if x.1 != 0 then .checkFailed (BitVec.ofNat 64 x.1) else .done)) x.2 []
    | .cadd m st => let x := s.edgeUpdate pa token 16 r.addr false fun s => s.addAt home k m st; .done (some x.1) x.2 []
    | .caddf m => let x := s.edgeUpdate pa token 16 r.addr true fun s => s.addAt home k m 0; .done (some x.1) x.2 []
    | .red op m v =>
      let x := s.edgeUpdate pa token n r.addr false fun s => { s with mem := s.mem.reduce k op m v }
      .done (some x.1) x.2 []
    | .cread => value fun v s => (some (.value v), s)
    | .ctest target => value fun v s => (some (.value (flag (target.toNat ≤ v.toNat))), s)
    | .cwait target => value fun v s => (none, s.waitAt home k r target v)
    | .cwatch target t q tag =>
      let x := s.edgeRead token [(pa, 8)]
      let ok := x.2.1.all id
      if s.eccBad k 16 then .done (some (.ecc r.addr)) s []
      else .done (some (if ok then .done else .checkFailed 1))
        (x.2.2.registerWatch home k r.addr target (.msg t q tag) (wordOf x.1)) []
    | .regRead _ _ | .regWrite _ _ | .probe _ => .done (some .done) s []

/-- A request performed in far memory, which passes the station unsealed (R321); a core's load or store is performed
through the caches of that core (R87, R302). -/
def State.performFar (s : State) (r : Req) (pa : Nat) : Reply × State :=
  match r.who.origin, r.acc with
  | .core b c _, .load n _ =>
    if s.coreBad b c pa then (.ecc r.addr, s.foundEcc (islandKey b (pa / 64)) 64)
    else let x := s.readFar b c pa n; (.data x.1, x.2)
  | .core b c _, .store _ bs =>
    if s.coreBad b c pa then (.ecc r.addr, s.foundEcc (islandKey b (pa / 64)) 64) else (.done, s.writeFar b c pa bs)
  | _, .load n _ | _, .sread n => (.data (s.mem.readN (physKey pa) n), s)
  | _, .store _ bs | _, .swrite _ bs => (.done, s.poke (physKey pa) bs)
  | _, _ => (.done, s)

/-! ## The request of a packet, performed -/

/-- The proctor core whose fetch, or whose cache instruction, still waits for a translation that a request asks for. -/
def State.probing (s : State) (r : Req) : Option (BulkId × BitVec 3) :=
  match r.acc, r.who.origin with
  | .probe _, .core b c _ =>
    let x := s.core b c
    if x.running && x.h = r.hLevel && x.ctx.wait = .retry && x.ctx.pc = r.who.epc then some (b, c) else none
  | _, _ => none

/-- `XLATE` of a fetch or a cache instruction, which has had no effect: it is precise, and at HVENTRY itself it halts the
core when it is the fetch's (R302, R303). -/
def State.probeTrap (s : State) (b : BulkId) (c : BitVec 3) (r : Req) (more : TrapRec → TrapRec) : State :=
  let x := s.core b c
  if r.acc = .probe .x && x.h && x.ctx.pc = x.hventry &&& ~~~1#64 then
    s.onCore b c fun y => { y with pcause := Cause.xlate.code, pepc := r.who.epc, peval := r.addr, running := false }
  else s.coreTrap b c (more (slotRecord 0 0 Cause.xlate.code r.who.epc r.addr true))

/-- `XLATE` at the issuer of a stalled request (R46, R194, R268, R324). -/
def State.xlateTrap (s : State) (r : Req) (xid : BitVec 16) (reason : XReason) (b : BulkId) : State :=
  let more (x : TrapRec) : TrapRec := { x with xreason := reason.code, xid := xid, station := BitVec.ofNat 7 b }
  match s.probing r with
  | some (p, c) => s.probeTrap p c r more
  | none =>
  match s.holder r.who.origin, r.who.origin.tile with
  | some ag, _ => s.lateFailure ag (s.actOf r.who.origin) .xlate r.who.epc r.addr more
  | none, some t =>
    s.sendRecord (tileNode t) { more (slotRecord t 0 Cause.xlate.code r.who.epc r.addr false) with noSlot := true }
  | none, none => s

/-- Edge lines that a request counts in INTEG.OUTST (R98). -/
def Req.lines (r : Req) : Nat :=
  if !r.counted then 0 else match r.acc with | .sread n => linesOf r.addr n | _ => 1

/-- Takes the edge lines of a request out of the counts of its tile and stream command, as when its data will
not come. -/
def State.uncount (s : State) (r : Req) : State :=
  let s := match r.who.origin.tile with
    | some t => s.onTile t fun x => { x with outst := x.outst - BitVec.ofNat 16 r.lines }
    | none => s
  match r.who.origin with
  | .stream t c _ => s.onStream t c fun y => { y with checks := y.checks - r.lines }
  | _ => s

/-- Counts the edge lines of a request again, as when it is retried. -/
def State.recount (s : State) (r : Req) : State :=
  let s := match r.who.origin.tile with
    | some t => s.onTile t fun x => { x with outst := x.outst + BitVec.ofNat 16 r.lines }
    | none => s
  match r.who.origin with
  | .stream t c _ => s.onStream t c fun y => { y with checks := y.checks + r.lines }
  | _ => s

/-- The numbers that the requests stalled at a station hold. -/
def State.xidsAt (s : State) (b : BulkId) : List (BitVec 16) :=
  s.packets.filterMap fun p =>
    if p.2.dst / 4096 = b then (match p.2.place with | .stalled x _ => some x | _ => none) else none

/-- The next number of a station from x upward, without 0 and the numbers in use (R331). -/
def freshXid (used : List (BitVec 16)) (x : BitVec 16) : Nat → BitVec 16
  | 0 => x
  | n + 1 => if x = 0 || used.contains x then freshXid used (x + 1) n else x

/-- Parks a request at a station: it stalls with an XID and a reason, and `XLATE` goes to its issuer (R314, R331). Its
edge lines leave the counts until it is retried. The counter add of a stream command is not made, and does not stall
(R267). A translation that its core no longer waits for goes. -/
def State.stallAt (s : State) (p : Nat) (b : BulkId) (reason : XReason) : State :=
  match (s.packets.find? p).bind fun k => k.body.req?.map fun r => (k, r) with
  | none => s
  | some (k, r) =>
    if (match r.acc with | .probe _ => !k.retried && (s.probing r).isNone | _ => false) then s.dropPacket p else
    let xid := freshXid (s.xidsAt b) (s.station b).nextXid (s.packets.length + 1)
    let s1 := s.onStation b fun x => { x with nextXid := xid + 1 }
    match r.who.origin with
    | .streamAdd t cmd => ((s1.dropPacket p).xlateTrap r xid reason b).addAcked t cmd
    | _ =>
    let s2 := s1.onPacket p fun k => { k with body := .req { r with counted := false }, place := .stalled xid reason.code }
    (r.who :: r.also).foldl (fun s w => (s.failReq w true).xlateTrap { r with who := w } xid reason b) (s2.uncount r)

/-- Answers a performed request, when it has an answer. -/
def State.respondIf (s : State) (k : Packet) (r : Req) (a : Option Reply) : State :=
  match a with | some a => s.respond k r a | none => s

/-- Data of an `MCAST` at the group directory: with the command's first packet it takes the membership, and the packet
goes on to every member at which the command has not stopped (R266, R267). -/
def State.replicate (s : State) (p : Nat) (k : Packet) (r : Req) (t : TileName) (cmd id : Nat) : State :=
  match s.streamCmd t cmd with
  | none => s.dropPacket p
  | some c =>
    let ms := s.membersFor t c
    let s := (s.dropPacket p).onStream t cmd fun y =>
      { y with members := some ms, chunks := y.chunks.filter fun x => x.id != id }
    ((ms.filter fun m => !c.stoppedAt m).foldl (fun s m =>
      let n := s.serial
      let a := memberAddr m r.addr
      (s.addChunk t c { id := n, src := 0, dst := a, len := r.acc.size, member := some m, held := none }).inject k.dst (tileNode m) k.vc
        k.flits k.stamp false (.req { r with addr := a, who := { r.who with origin := .stream t cmd n, rid := n } })) s).pumpStream t

/-- The watch or the wake of a request that passed through a window carries that mark on (R297). -/
def State.carryWindow (s : State) (who : Ticket) (w : Option Nat) : State :=
  if w.isNone then s
  else
    { s with
      watches := s.watches.map fun x => if x.kind = .wake who then { x with windowed := w } else x,
      packets := s.packets.map fun p => match p.2.body with
        | .wake who' _ => if who' = who then (p.1, { p.2 with windowed := w }) else p
        | _ => p }

/-- Performs the request of a packet that stands at its home and answers it; the packet is consumed. One that waits for
its page, or behind an earlier request of its party to the same bytes, stays (R82, R319). -/
def State.performAt (s : State) (p : Nat) : State :=
  match s.packets.find? p with
  | none => s
  | some k =>
    match k.body, k.place with
    | .req r, .arrived =>
      if s.behindOwn p k r then s
      else (match r.who.origin, field r.addr 60 4 with
       | .stream t cmd id, 0 => s.replicate p k r t cmd id
       | _, _ =>
         (match s.locate (some (tileOfNode k.dst)) r.addr r.acc.size with
          | .state t off =>
            (match s.performState t off r.addr r.acc with
             | some x => (x.2.dropPacket p).respond k r x.1
             | none => s)
          | .bad | .translated => s
          | l => let x := s.performScratch l r; ((x.2.dropPacket p).respondIf k r x.1).carryWindow r.who k.windowed))
    | .treq r pa _ key, .atHome =>
      if s.behindOwn p k r then s
      else if paFar pa then let x := s.performFar r pa; (x.2.dropPacket p).respond k r x.1
      else
        let b := k.dst / 4096
        (match s.performEdge b r pa key with
         | .wait => s
         | .ctrMax => s.stallAt p b .ctrMax
         | .done a s1 checks =>
           let s2 := (s1.dropPacket p).respondIf k r a
           if r.counted then checks.foldl (fun s ok => s.sendMac k r.who.origin ok) s2 else s2)
    | _, _ => s

/-- Performs a packet's request when its access is of a kind. -/
def State.performKind (s : State) (p : Nat) (kind : Access → Bool) : State :=
  match (s.packets.find? p).bind fun k => k.body.req? with
  | some r => if kind r.acc then s.performAt p else s
  | none => s

/-- `REMOTE_ACCESS_AT_HOME` (R82): a load, a store, a row access, a stream read, or an access of a state register by a
migrated activation (R185). -/
def execRemoteAccessAtHome (p : Nat) (s : State) : Result :=
  .next (s.performKind p fun a =>
    match a with | .load _ _ | .store _ _ | .sread _ | .regRead _ _ | .regWrite _ _ => true | _ => false)

/-- `COUNTER_REQUEST_AT_HOME` (R157 to R160). -/
def execCounterRequestAtHome (p : Nat) (s : State) : Result :=
  .next (s.performKind p fun a =>
    match a with | .cadd _ _ | .caddf _ | .cread | .ctest _ | .cwait _ | .cwatch _ _ _ _ => true | _ => false)

/-- `REDUCTION_AT_HOME` (R162). -/
def execReductionAtHome (p : Nat) (s : State) : Result :=
  .next (s.performKind p fun a => match a with | .red _ _ _ => true | _ => false)

/-- `STREAM_WRITE_AT_HOME` (R96, R266). -/
def execStreamWriteAtHome (p : Nat) (s : State) : Result :=
  .next (s.performKind p fun a => match a with | .swrite _ _ => true | _ => false)

end Sys2Proof.Machine
end

