-- ==== Sys2Proof/Machine/Net.lean ====
section
/-! DEFINITION. The corridor network: gates, routes, routers, promotion and merging (R25, R95, R277 to R284,
R290, R292 to R296). -/

namespace Sys2Proof.Machine

/-! ## Gates (R292 to R296) -/

/-- What a gate does with a packet. -/
inductive GateAnswer where
  | pass
  /-- through an entry of its windows -/
  | windowed (i : Nat)
  | refuse
  deriving DecidableEq, Repr

/-- The right of a window that an access needs, as its bit in dword 0 (R294 step 6); none for a packet that no
window carries. -/
def windowBit : Access → Option Nat
  | .load _ _ | .cread => some 16
  | .store _ _ => some 17
  | .cadd _ _ | .caddf _ | .ctest _ | .cwait _ | .cwatch _ _ _ _ | .red _ _ _ => some 18
  | .regRead _ _ | .regWrite _ _ | .sread _ | .swrite _ _ | .probe _ => none

/-- Whether entry i of gate `dir` of bulkhead `x` passes a request into bulkhead `y` (R294 step 6). -/
def State.windowPasses (s : State) (x y : BulkId) (dir i : Nat) (stamp : Nat) (r : Req) : Bool :=
  let w (d : Nat) : Word := (s.bulk x).windows.get 0 (32 * dir + 4 * i + d)
  bit (w 0) 31 && field (w 0) 0 6 = stamp && field (w 0) 8 6 = s.regionOf y
    && field (w 3) 0 8 = (s.bulk x).epoch.toNat && field (w 3) 8 8 = (s.bulk y).epoch.toNat
    && (w 1).toNat ≤ r.addr.toNat && r.addr.toNat + r.acc.size ≤ (w 2).toNat + 1
    && (match windowBit r.acc with | some n => bit (w 0) n | none => false)

/-- The checks of R294 on a header that is about to cross from bulkhead `x` into `y`, its neighbour in direction
`dir`; a CLOSED gate on either side refuses (R292). -/
def State.gateCheck (s : State) (x y : BulkId) (dir : Nat) (p : Packet) : GateAnswer :=
  if p.stamp = 63 then .pass
  else if (s.bulk x).gate = 0 || (s.bulk y).gate = 0 || s.regionOf y = 0 then .refuse
  else if p.stamp = s.regionOf y then .pass
  else match p.body with
    | .req r | .treq r _ _ _ =>
      (match (upFrom 0 8).find? fun i => s.windowPasses x y dir i p.stamp r with
       | some i => .windowed i
       | none => .refuse)
    | _ => .refuse

/-- Whether a gate passes a value of a forwarding lane (R279). -/
def State.lanePasses (s : State) (l : Lane) : Bool :=
  let x := l.src.ret
  let y := l.dst.ret
  x = y || ((s.bulk x).gate != 0 && (s.bulk y).gate != 0 && s.regionOf y != 0 && s.regionOf x = s.regionOf y)

/-- The destination address that a refusal reports (R295): 0 for a packet that has none, as `JOIN` and `LEAVE`, which is the
model's choice (log entry 133). -/
def Body.dest : Body → Word
  | .req r | .treq r _ _ _ => r.addr
  | .msg m => tileId m.dest
  | .level _ t _ => tileId t
  | .migrateBack m => tileId m.tile
  | _ => 0

/-- A buffer without the flits of a packet; the packet that then stands at its head starts at age 0 (R283). -/
def InBuf.without (b : InBuf) (p : Nat) : InBuf :=
  let b' := { b with flits := b.flits.filter (·.pkt != p), behind := b.behind.filter (·.pkt != p) }.fill
  if (b.flits.head?.map (·.pkt)) = some p then { b' with age := 0, promoted := false, served := false } else b'

/-- Removes a packet and its flits from every router, as where a gate cuts it (R292) or its bulkhead is lost. -/
def State.purgePacket (s : State) (p : Nat) : State :=
  let clean (b : InBuf) : InBuf := if (b.flits ++ b.behind).any (·.pkt = p) then b.without p else b
  let open' (o : OutPort) : OutPort := { o with hold := o.hold.map fun h => if h = some p then none else h }
  { s with routers := s.routers.map fun r =>
             (r.1, { ins := r.2.ins.map fun b => (b.1, clean b.2), outs := r.2.outs.map fun o => (o.1, open' o.2) }),
           packets := s.packets.del p }

/-- Who takes the refusal of a packet that is no request: the issuer that it names, or the activation that waits for the
group directory (R174, R295). -/
def State.refusedTicket (s : State) (b : Body) : Option Ticket :=
  match b with
  | .group _ _ _ ag act =>
    some { origin := (match ag with | .slot t k => .slot t k act | .core b c => .core b c act), rid := 0,
           epc := (s.ctxOf ag).ipc, iw := 0 }
  | _ => b.ticket?

/-- Answers a packet that is refused with `GATE` from a node: on VC1, to every request it carries, or to the
source of another packet (R295). -/
def State.answerRefused (s : State) (node : Nat) (k : Packet) : State :=
  match k.body with
  | .req r | .treq r _ _ _ => s.respond { k with dst := node, windowed := none } r (.gate r.addr)
  | .reply _ _ | .wake _ _ | .mac _ _ | .groupAck _ _ _ _ _ | .msgRefused _ _ | .refused _ _ => s
  | b => s.inject node k.src 1 1 k.stamp false (.refused (s.refusedTicket b) b.dest)

/-- A gate of bulkhead `b` logs a refusal (R295). -/
def State.logRefusal (s : State) (b : BulkId) (a : Word) : State :=
  s.onIsland b fun x => { x with gateLog := x.gateLog + 1, gateAddr := a }

/-- A gate of bulkhead `b` refuses a packet by its header: logged and answered. The flits behind the header go on to the
gateway, where they are discarded (R295, R368). -/
def State.refuseAt (s : State) (b : BulkId) (node p : Nat) (k : Packet) : State :=
  ((if k.flits ≤ 1 then s.dropPacket p else s.onPacket p fun k => { k with body := .dropped }).logRefusal b
    k.body.dest).answerRefused node k

/-! ## Delivery at the local port (R25, R156, R167, R271, R325) -/

/-- A flit of a message reaches its tile: the header is assigned the next entry of the queue, and a body flit's 32 bytes
are written into the entry; those of the tail follow as the message arrives (R156). -/
def State.deliverMsg (s : State) (m : Msg) (entry : Option Nat) (f : Flit) : State × Option Nat :=
  let q := (s.tile m.dest).queue m.q
  if f.idx = 0 then
    if s.badMessage m then (s, none)
    else (s.onQueue m.dest m.q fun q => q.assign m.tag m.len m.sender m.ext, some q.write.toNat)
  else match entry with
    | some i =>
      if f.last then (s, entry)
      else
        let o := 32 * (f.idx - 1)
        ({ s with mem := s.mem.writeN (scratchKey m.dest (q.offset i + o)) ((m.payload.drop o).take 32) }, entry)
    | none => (s, entry)

/-- A payload of the mesh reaches its port: it waits there for a frame, or a DOWN port refuses it (R363). -/
def State.linkTake (s : State) (port len : Nat) (payload : List Byte) (k : Packet) : State :=
  if (s.port (port / 8) (port % 8)).st = 0 then s.answerRefused k.dst k
  else s.onPort (port / 8) (port % 8) fun x =>
    { x with txq := x.txq ++ [{ chan := BitVec.ofNat 8 k.vc, len := len, payload := payload, origin := some k }] }

/-- A payload that came over a link reaches the registrar (R362, R367). -/
def State.linkGive (s : State) (port len : Nat) (payload : List Byte) (k : Packet) : State :=
  s.onPort (port / 8) (port % 8) fun x => { x with out := x.out ++ [(BitVec.ofNat 8 k.vc, len, payload)] }

/-- A flit is delivered; with its tail, the packet has arrived. -/
def State.deliver (s : State) (p : Nat) (f : Flit) : State :=
  match s.packets.find? p with
  | none => s
  | some k =>
    let x := match k.body with | .msg m => s.deliverMsg m k.entry f | _ => (s, k.entry)
    if f.last then
      match k.body with
      | .linkOut q n bs => (s.dropPacket p).linkTake q n bs k
      | .linkIn q n bs => (s.dropPacket p).linkGive q n bs k
      | _ => x.1.bump.onPacket p fun k => { k with got := f.idx + 1, entry := x.2, place := .arrived, order := s.serial }
    else x.1.onPacket p fun k => { k with got := f.idx + 1, entry := x.2 }

/-! ## Forwarding (R281 to R284) -/

/-- An output port after a flit of a VC from an input has passed. -/
def OutPort.pass (o : OutPort) (vc i : Nat) (f : Flit) (spend : Bool) : OutPort :=
  { o with hold := o.hold.setIfInBounds vc (if f.last then none else some f.pkt),
           lastIn := if f.idx = 0 then o.lastIn.setIfInBounds vc i else o.lastIn,
           budget := if spend then o.budget.setIfInBounds vc (o.budgetAt vc - 1) else o.budget,
           ptr := if spend then vc else o.ptr }

/-- A buffer after cycles in which its head packet had an eligible flit, one of which may have been forwarded in the
first of them (R283). -/
def InBuf.aged (b : InBuf) (limit cycles : Nat) : InBuf :=
  let age := min 1023 (b.age + (cycles - num b.served))
  { b with age := age, promoted := b.promoted || (limit != 0 && b.age ≤ limit && limit ≤ age), served := false }

/-- Whether the head flit of a buffer is eligible at some port (R281). -/
def State.headWaits (s : State) (node i vc : Nat) : Bool :=
  (upFrom 0 5).any fun port => (s.headFor node port i vc).isSome

/-- Arithmetic cycles pass on a bulkhead: every packet with an eligible flit that is not forwarded ages (R283). -/
def State.ageBulk (s : State) (b : BulkId) (cycles : Nat) : State :=
  let limit := (s.island b).ageLimit
  if cycles = 0 then s
  else
    { s with routers := s.routers.map fun r =>
               if r.1 / 4096 != b then r
               else (r.1, { r.2 with ins := r.2.ins.map fun x =>
                      (x.1, if s.headWaits r.1 (x.1 / 8) (x.1 % 8) then x.2.aged limit cycles else { x.2 with served := false }) }) }

/-- Nominal periods pass: the packets that wait in the routers age by the cycles of their bulkhead (R8, R283). -/
def State.ageAll (s : State) (n : Nat) : State :=
  (upFrom 0 80).foldl (fun s b => s.ageBulk b (cyclesIn (s.powerOf b).clkn 64 s.time n)) s

/-- Takes the head flit of an input buffer; the next packet starts at age 0, and a flit that the sender holds moves
up. -/
def InBuf.pop (b : InBuf) (f : Flit) : InBuf :=
  { b with flits := b.flits.drop 1, age := if f.last then 0 else b.age, promoted := b.promoted && !f.last,
           served := !f.last }.fill

/-- Moves a flit through a port: across a seam its header meets the gate, and at a CLOSED gate a packet whose header has
passed is cut and discarded (R292). The flits behind a refused header go no further (R368). -/
def State.moveFlit (s : State) (node port i vc : Nat) (f : Flit) (k : Packet) (o : OutPort) : State :=
  let r := s.router node
  let taken := s.setRouter node { (r.setBuf i vc ((r.buf i vc).pop f)) with outs := r.outs.put port o }
  match s.nextNode node port k.dst with
  | none => taken.deliver f.pkt f
  | some n =>
    let put (s : State) : State :=
      let q := s.router n.1
      let b := q.buf n.2 vc
      s.setRouter n.1 (q.setBuf n.2 vc { b with flits := b.flits ++ [f] })
    let shut := k.stamp != 63 && ((s.bulk (node / 4096)).gate = 0 || (s.bulk (n.1 / 4096)).gate = 0)
    if isGateway node && port = 0 then
      if k.body = .dropped then (if f.last then taken.dropPacket f.pkt else taken)
      else if f.idx != 0 then (if shut then taken.purgePacket f.pkt else put taken)
      else match s.gateCheck (node / 4096) (n.1 / 4096) (gatewayEdge node) k with
      | .pass => put taken
      | .windowed i =>
        put (taken.onPacket f.pkt fun k => { k with windowed := some (32 * (node / 4096) + 8 * gatewayEdge node + i) })
      | .refuse => taken.refuseAt (node / 4096) node f.pkt k
    else put taken

/-! ## Merging (R67, R95) -/

/-- The code of R79 for the scope of a request: the smallest that holds its issuer and its home (R80). Tag 0x0, in the
request of a migrated activation, names its home tile (R39). -/
def State.scopeOf (s : State) (k : Packet) (r : Req) : Nat :=
  let from' := r.who.origin.node / 4096
  let to' := if field r.addr 60 4 = 0 then k.dst / 4096 else field r.addr 36 7
  if bit r.addr 63 then (match k.body with | .treq _ pa _ _ => if paFar pa then 4 else 3 | _ => 3)
  else if k.windowed.isSome || s.regionOf to' != s.regionOf from' then 4
  else if to' != from' then 3
  else match r.who.origin.tile with
    | none => 2
    | some t =>
      if field r.addr 60 4 = 1 && field r.addr 24 19 = t then 0
      else if (field r.addr 60 4 = 1 || field r.addr 60 4 = 2) && field r.addr 28 7 = t.blk then 1
      else 2

/-- The request that two requests of one scope merge into (R95): a counter add or reduction of one kind to one address
that expects no return. -/
def mergeReq (q p : Req) : Option Req :=
  let same := q.addr = p.addr && q.pid = p.pid && q.hLevel = p.hLevel
    && (match q.who.origin, p.who.origin with | .streamAdd _ _, _ => false | _, .streamAdd _ _ => false | _, _ => true)
  if !same then none
  else match q.acc, p.acc with
    | .cadd n st, .cadd m st' =>
      some { q with acc := .cadd (satAdd n m) (st ||| st' ||| addStatus n m 0), also := q.also ++ p.who :: p.also }
    | .red op m b, .red op' m' b' =>
      if op = op' && m = m' then
        some { q with acc := .red op m (BitVec.ofNat 64 (redValue op m (b.toNat % 2 ^ (8 * redWidth op m))
                                                        (b'.toNat % 2 ^ (8 * redWidth op m)))),
                      also := q.also ++ p.who :: p.also }
      else none
    | _, _ => none

/-- The requests of one flit that wait on VC0 in a router, on their way to a station or from it to their home (R77,
R280), with input and position. -/
def State.waitingAt (s : State) (node : Nat) : List (Nat × Nat × Nat × Packet × Req) :=
  ((upFrom 0 5).map fun i =>
    let fs := ((s.router node).buf i 0).flits
    ((upFrom 0 fs.length).zip fs).filterMap fun f =>
      match s.packets.find? f.2.pkt with
      | some k => k.body.req?.map fun r => (i, f.1, f.2.pkt, k, r)
      | none => none).flatten

/-- The nodes that issued the requests which one request carries (R95). -/
def Req.sources (r : Req) : List Nat := (r.who :: r.also).map (·.origin.node)

/-- Whether a request of one of some nodes waits in VC0 of an input, among the positions from `lo` up to `hi` (R95). -/
def State.requestBetween (s : State) (node input : Nat) (srcs : List Nat) (lo hi : Nat) : Bool :=
  let fs := ((s.router node).buf input 0).flits
  ((upFrom 0 fs.length).zip fs).any fun f => lo ≤ f.1 && f.1 < hi
    && (match (s.packets.find? f.2.pkt).bind (·.body.req?) with
        | some r => r.sources.any srcs.contains
        | none => false)

/-- Merges the first later request of a router into an earlier waiting one, when no other request of the later one's
source waits between them (R95); a translated request merges with one translated to the same location. Equal addresses
of tag 0x0 are one address at one home tile only (R39). -/
def State.mergeAt (s : State) (node port : Nat) : State :=
  let ws := (s.waitingAt node).filter fun w => s.portFor node w.2.2.2.1.dst = port
  let ok (q p : Nat × Nat × Nat × Packet × Req) : Bool :=
    q.2.2.1 != p.2.2.1 && q.2.2.1 < p.2.2.1 && q.2.2.2.1.stamp = p.2.2.2.1.stamp
      && (field p.2.2.2.2.addr 60 4 != 0 || q.2.2.2.1.dst = p.2.2.2.1.dst)
      && q.2.2.2.1.body.samePlace p.2.2.2.1.body
      && q.2.2.2.1.windowed.isNone && p.2.2.2.1.windowed.isNone && (mergeReq q.2.2.2.2 p.2.2.2.2).isSome
      && s.scopeOf q.2.2.2.1 q.2.2.2.2 = s.scopeOf p.2.2.2.1 p.2.2.2.2 && s.scopeOf p.2.2.2.1 p.2.2.2.2 != 4
      && (q.1 != p.1 || q.2.1 < p.2.1)
      && !s.requestBetween node p.1 p.2.2.2.2.sources (if q.1 = p.1 then q.2.1 + 1 else 0) p.2.1
  match ws.findSome? fun p => (ws.find? fun q => ok q p).map fun q => (q, p) with
  | some (q, p) =>
    match mergeReq q.2.2.2.2 p.2.2.2.2 with
    | some r => (s.purgePacket p.2.2.1).onPacket q.2.2.1 fun k => { k with body := k.body.withReq r }
    | none => s
  | none => s

/-! ## Events -/

/-- Forwards the flit that a port serves (R281 to R283). -/
def State.forward (s : State) (node port : Nat) : State :=
  let r := s.router node
  let serve (i vc : Nat) (o : OutPort) (spend : Bool) : State :=
    match s.eligible node port i vc with
    | none => s
    | some x => (s.moveFlit node port i vc x.1 x.2 (o.pass vc i x.1 spend)).noteProgress
                  (s.regionOf (node / 4096))
  match oldestOf (s.promotedAt node port) with
  | some x => serve x.1 x.2 (r.out port) false
  | none =>
    let vcs := (upFrom 0 8).filter fun v => (s.inputFor node port v).isSome
    let c := (r.out port).choose (s.island (node / 4096)).weight vcs
    match c.1 with
    | none => s
    | some v => match s.inputFor node port v with
      | some i => serve i v c.2 true
      | none => s

/-- `FLIT_FORWARD` (R95, R281, R282, R294): an output port forwards one flit; with `merge`, its router first merges
two requests bound for that port. -/
def execFlitForward (node port : Nat) (merge : Bool) (s : State) : Result :=
  .next (if (s.bulk (node / 4096)).failed then s
    else (if merge then s.mergeAt node port else s).forward node port)

/-- `PACKET_PROMOTION` (R283): the packet at the head of an input buffer is promoted when its age equals AGE_LIMIT. -/
def execPacketPromotion (node port vc : Nat) (s : State) : Result :=
  let r := s.router node
  let b := r.buf port vc
  let limit := (s.island (node / 4096)).ageLimit
  .next (if b.flits.isEmpty || limit = 0 || b.age != limit then s
    else s.setRouter node (r.setBuf port vc { b with promoted := true }))

end Sys2Proof.Machine
end

