-- ==== Sys2Proof/Machine/Arrivals.lean ====
section
/-! DEFINITION. What arrives at a tile or a proctor core: answers, refusals, wakes, check results, messages,
forwarded values; and the firing of activations (R21, R25 to R31, R94, R97, R98, R126, R138 to R141, R156 to
R160, R167, R169, R194, R267, R295, R354, R370). -/

namespace Sys2Proof.Machine

/-! ## Completions of host queues (R354) -/

/-- Memory key of a byte of host memory. -/
def hostKey (a : Word) : Nat := 2 ^ 67 + a.toNat

def State.hostQueue (s : State) (q : Nat) : HostQueue := s.hostQueues.get HostQueue.reset q
def State.onHostQueue (s : State) (q : Nat) (f : HostQueue → HostQueue) : State :=
  { s with hostQueues := s.hostQueues.put q (f (s.hostQueue q)) }

/-- Entries of both rings; 0 for a disabled queue. -/
def HostQueue.size (x : HostQueue) : Nat := if 4 ≤ x.sqsize.toNat && x.sqsize.toNat ≤ 12 then 2 ^ x.sqsize.toNat else 0

/-- Whether the completion ring has no free entry. -/
def HostQueue.full (x : HostQueue) : Bool := (x.cqtail.toNat + 1) % x.size = x.cqhead.toNat % x.size

/-- Posts a completion: ID, STATUS, and the phase bit, which toggles on each pass of the ring (R354). -/
def State.complete (s : State) (q id status : Nat) : State :=
  let x := s.hostQueue q
  let at' := x.cqbase + BitVec.ofNat 64 (16 * x.cqtail.toNat)
  let next := (x.cqtail.toNat + 1) % x.size
  let bs := toBytes 4 id ++ toBytes 2 status ++ [BitVec.ofNat 8 (num !x.phase)] ++ toBytes 9 0
  { s with mem := s.mem.writeN (hostKey at') bs }.onHostQueue q fun x =>
    { x with cqtail := BitVec.ofNat 16 next, phase := if next = 0 then !x.phase else x.phase }

/-! ## Requests at their issuer -/

/-- Whether an answer is for an activation on its way between its slot and a core: it waits until the activation stands
(R38, R182). -/
def State.forTransit (s : State) (b : Body) : Bool :=
  match b with
  | .reply r _ => s.inTransit r.who.origin.act
  | .wake w _ | .msgRefused w _ | .refused (some w) _ => s.inTransit w.origin.act
  | _ => false

/-- A packet that has arrived whole at its destination. -/
def State.arrived (s : State) (p : Nat) : Option Packet :=
  match s.packets.find? p with
  | some k => if k.place = .arrived && !s.forTransit k.body then some k else none
  | none => none

/-- An access leaves the list of an agent's outstanding ones. -/
def State.closeOut (s : State) (ag : Agent) (rid : Nat) : State :=
  s.setCtxOf ag (let c := s.ctxOf ag; { c with out := c.out.filter fun o => o.id != rid })

/-- A request is performed, as its issuer learns: it leaves the tile's 16 and the list of its activation, on the core
and on the home tile of one that has migrated (R141, R163). -/
def State.closeReq (s : State) (w : Ticket) : State :=
  let s := match w.origin.tile with
    | some t => s.onTile t fun x => { x with offTile := x.offTile.filter (· != w.rid) }
    | none => s
  match s.holder w.origin with
  | some ag =>
    let s := s.closeOut ag w.rid
    (match ag with
     | .core b c => (match (s.core b c).home with | some h => s.closeOut (.slot h.1 h.2.1) w.rid | none => s)
     | .slot _ _ => s)
  | none => s

/-- A result arrives for the register that awaits it, if the activation still holds its slot (R126, R173, R370). -/
def State.resolveReq (s : State) (w : Ticket) (v : Word) : State :=
  match s.holder w.origin with
  | some ag => s.setCtxOf ag ((s.ctxOf ag).resolve w.rid v)
  | none => s

/-- Ends the wait of an instruction for the answer to its request; a wake tells a `CWAITT` whether it came in time
(R94, R158). -/
def State.endWait (s : State) (w : Ticket) (wake : Bool) : State :=
  match s.holder w.origin with
  | none => s
  | some ag =>
    match (s.ctxOf ag).wait with
    | .remote rid flag' =>
      if rid != w.rid then s
      else if wake then (s.setCtxOf ag ((s.ctxOf ag).met flag' (s.bulk (agentBulk ag)).timer)).endsWait ag
      else s.endsWait ag
    | _ => s

/-- Cuts short the wait of an instruction for the answer to a request that has failed: it does not retire (R140, R341). -/
def State.cutWait (s : State) (w : Ticket) : State :=
  match s.holder w.origin with
  | some ag => if (match (s.ctxOf ag).wait with | .remote rid _ => rid == w.rid | _ => false) then s.wakeUp ag else s
  | none => s

/-- A `JOIN` or `LEAVE` whose request a gate refused waits no longer (R174, R295). -/
def State.endGroupWait (s : State) (w : Ticket) : State :=
  match s.holder w.origin with
  | some ag => if (s.ctxOf ag).wait = .group then s.wakeUp ag else s
  | none => s

/-- A trap of an earlier instruction at its issuer: the activation, or, once that has gone, a record that names no
slot (R140, R194, R267, R295). -/
def State.issuerTrap (s : State) (w : Ticket) (cause : Cause) (eval : Word) : State :=
  match s.holder w.origin, w.origin.tile with
  | some ag, _ => s.lateFailure ag (s.actOf w.origin) cause w.epc eval id
  | none, some t => s.noSlotRecord t cause w.epc eval
  | none, none => s

/-- Failed checks add to INTEG.FAILS, which saturates (R98, R100, R318). -/
def State.addFails (s : State) (w : Origin) (n : Nat) : State :=
  match w.tile with
  | some t => s.onTile t fun x => { x with fails := BitVec.ofNat 16 (min 0xFFFF (x.fails.toNat + n)) }
  | none => s

/-- A vector command fails: it leaves the unit without effect (R194). -/
def State.dropFailedVec (s : State) (w : Ticket) : State :=
  match w.origin with
  | .vec t _ _ cmd => State.settleZeros t (s.dropVec t cmd)
  | _ => s

/-- A chunk of a stream command is done with. -/
def State.dropChunk (s : State) (t : TileName) (cmd id : Nat) : State :=
  s.onStream t cmd fun y => { y with chunks := y.chunks.filter fun k => k.id != id }

/-- A chunk fails: the command stops, or stops at the `MCAST` member that the chunk was bound for (R267). -/
def State.failChunk (s : State) (t : TileName) (cmd id : Nat) (bits : BitVec 8) (cause : Cause) (eval : Word) : State :=
  match s.streamCmd t cmd with
  | none => s
  | some c =>
    let s := s.dropChunk t cmd id
    match (c.chunks.find? (·.id = id)).bind (·.member) with
    | some u =>
      (s.onStream t cmd fun y => { y with engineOf := y.engineOf.put u (y.engineOf.get 0 u ||| bits ||| 0x80) }).cmdTrap
        t c.slot c.act cause c.epc eval
    | none => s.streamStop t c bits cause eval

/-- The errors that an access met at a scratch location are found (R325, R393). -/
def State.foundAt (s : State) (r : Req) : State :=
  match s.locate r.who.origin.tile r.addr r.acc.size with
  | .scratch _ _ | .state _ _ | .block _ _ _ | .hall _ _ =>
    s.foundEcc (s.locate r.who.origin.tile r.addr r.acc.size).key r.acc.size
  | _ => s

/-- A request fails at its issuer: the effect on a pending register, a wait, a vector command, a stream command, then
the trap (R138 to R140, R194, R267, R295). -/
def State.failAccess (s : State) (w : Ticket) (bits : BitVec 8) (cause : Cause) (eval : Word) : State :=
  match w.origin with
  | .stream t cmd id => (s.failChunk t cmd id bits cause eval).pumpStream t
  | .streamAdd t cmd =>
    (match s.streamCmd t cmd with
     | some c => s.cmdTrap t c.slot c.act cause c.epc eval
     | none => s).addAcked t cmd
  | _ => ((((s.failReq w true).cutWait w).dropFailedVec w).issuerTrap w cause eval).closeReq w

/-! ## Answers -/

/-- `LOAD_RESPONSE` (R126, R139, R185, R370): data, an old counter value, the result of one comparison or a state
register arrive, or `ECC_UE` is taken. -/
def execLoadResponse (p : Nat) (s : State) : Result :=
  .next (match s.arrived p with
    | some { body := .reply r a, .. } =>
      let s1 := s.dropPacket p
      (match r.acc with
       | .load n sg =>
         (match a with
          | .data bs =>
            (match r.who.origin with
             | .vec t _ _ cmd => (s1.onTile t (·.onVec cmd fun c => { c with data := some bs })).closeReq r.who
             | _ => (s1.resolveReq r.who (loadValue n sg bs)).closeReq r.who)
          | .ecc e => (s1.foundAt r).failAccess r.who 0 .eccUe e
          | _ => s)
       | .caddf _ | .cread | .ctest _ | .cwait _ | .regRead _ _ =>
         (match a with
          | .value v => ((s1.resolveReq r.who v).endWait r.who false).closeReq r.who
          | .checkFailed v => ((s1.resolveReq r.who v).addFails r.who.origin 1).closeReq r.who
          | .ecc e => (s1.foundAt r).failAccess r.who 0 .eccUe e
          | _ => s)
       | _ => s)
    | _ => s)

/-- `OFF_TILE_ACK` (R141): a store, a counter add, a watch or a reduction is acknowledged; so are a stream write and
a stream command's counter add. -/
def execOffTileAck (p : Nat) (s : State) : Result :=
  .next (match s.arrived p with
    | some { body := .reply r a, .. } =>
      let s1 := s.dropPacket p
      let fails (n : Nat) (s : State) : State := s.addFails r.who.origin n
      let ack (s : State) : State := match r.who.origin with
        | .stream t cmd id => (s.dropChunk t cmd id).pumpStream t
        | .streamAdd t cmd => s.addAcked t cmd
        | _ => s.closeReq r.who
      (match r.acc with
       | .store _ _ | .swrite _ _ | .cadd _ _ | .cwatch _ _ _ _ | .red _ _ _ | .regWrite _ _ =>
         (match a with
          | .done => ack s1
          | .checkFailed v => ack (fails (max 1 v.toNat) s1)
          | .ecc e =>
            (match r.who.origin with
             | .streamAdd _ _ => (s1.foundAt r).failAccess r.who 0 .eccUe e
             | .stream t cmd _ =>
               ack (match s1.streamCmd t cmd with | some c => (s1.foundAt r).streamTrap t c 0 .eccUe e | none => s1.foundAt r)
             | _ => ((s1.foundAt r).issuerTrap r.who .eccUe e).closeReq r.who)
          | _ => s)
       | _ => s)
    | _ => s)

/-- `STREAM_READ_RESPONSE` (R265, R267): the bytes of a chunk arrive and are written; words with an uncorrectable
error are not. -/
def execStreamReadResponse (p : Nat) (s : State) : Result :=
  .next (match s.arrived p with
    | some { body := .reply r a, .. } =>
      (match r.acc, r.who.origin with
       | .sread _, .stream t cmd id =>
         let s1 := s.dropPacket p
         (match (s1.streamCmd t cmd).bind fun c => (c.chunks.find? (·.id = id)).map fun k => (c, k), a with
          | some (c, k), .data bs => (s1.writeChunk t c k (indexed bs)).pumpStream t
          | some (c, k), .eccData bs bad =>
            (((s1.foundAt r).streamTrap t c 0x08 .eccUe r.addr).writeChunk t c k
              ((indexed bs).filter fun b => !(bad.any fun o => o ≤ b.1 && b.1 < o + 8))).pumpStream t
          | none, .data _ | none, .eccData _ _ => s1
          | _, _ => s)
       | _, _ => s)
    | _ => s)

/-- `GATE_REFUSAL` (R167, R174, R295): a gate's refusal arrives at the source, which takes `GATE`; for an entry of a
work list, which no activation sent, the record names no slot. -/
def execGateRefusal (p : Nat) (s : State) : Result :=
  .next (match s.arrived p with
    | some { body := .reply r (.gate e), .. } => ((s.dropPacket p).uncount r).failAccess r.who 0x10 .gate e
    | some { body := .refused who e, .. } =>
      let node := ((s.packets.find? p).map (·.dst)).getD 0
      (match who with
       | some w => ((s.dropPacket p).endGroupWait w).issuerTrap w .gate e
       | none => (s.dropPacket p).noSlotRecord (tileOfNode node) .gate 0 e)
    | _ => s)

/-- `CODE_STORE_REFUSAL` (R138): the refusal of a store to a locked code region arrives; the storing slot takes
`PRIV`. -/
def execCodeStoreRefusal (p : Nat) (s : State) : Result :=
  .next (match s.arrived p with
    | some { body := .reply r .codeRefused, .. } =>
      (match r.who.origin with
       | .vec _ _ _ _ => (((s.dropPacket p).issuerTrap r.who .priv r.who.iw).closeReq r.who)
       | _ => (s.dropPacket p).failAccess r.who 0x02 .priv r.who.iw)
    | _ => s)

/-- `WAKE_ARRIVAL` (R94, R158): completes the wait that registered the watch, or is discarded. -/
def execWakeArrival (p : Nat) (s : State) : Result :=
  .next (match s.arrived p with
    | some { body := .wake who _, .. } => ((s.dropPacket p).endWait who true).closeReq who
    | _ => s)

/-- `CWAITT_TIMEOUT` (R158, R274): a `CWAITT` whose timeout has expired, and whose wake did not come in that cycle,
completes with flag 0, though it be one that has not yet been able to compare. -/
def execCwaittTimeout (ag : Agent) (s : State) : Result :=
  let c := s.ctxOf ag
  let now := (s.bulk (agentBulk ag)).timer
  .next (match c.wait with
    | .counter _ _ (some (d, due)) => if now.toNat ≤ due.toNat then s else (s.setCtxOf ag (c.set d 0)).endsWait ag
    | .issued (.cwaitt d _ _) _ _ eregs =>
      let timeout := field eregs[0] 0 32
      if timeout = 0 || (now - c.issuedAt.getD now).toNat ≤ timeout then s else (s.setCtxOf ag (c.set d 0)).endsWait ag
    | .remote rid (some (d, due)) =>
      if now.toNat ≤ due.toNat then s
      else (s.setCtxOf ag ({ c with out := c.out.filter fun o => o.id != rid }.set d 0)).endsWait ag
    | _ => s)

/-- `MAC_RESULT_ARRIVAL` (R98): a check result lowers OUTST, and a failed one adds to FAILS; for a line of a stream
command it sets INTEG in that command's status (R267). -/
def execMacResultArrival (p : Nat) (s : State) : Result :=
  .next (match s.arrived p with
    | some { body := .mac who ok, .. } =>
      let s1 := s.dropPacket p
      let s2 := match who.tile with
        | some t => s1.onTile t fun x => { x with outst := x.outst - 1 }
        | none => s1
      let s3 := if ok then s2 else s2.addFails who 1
      (match who with
       | .stream t cmd _ => s3.onStream t cmd fun y =>
           { y with checks := y.checks - 1, engine := if ok then y.engine else y.engine ||| 0x04 }
       | _ => s3)
    | _ => s)

/-! ## Messages and forwarded values -/

/-- `MESSAGE_ARRIVAL` (R156, R160, R167): the bytes of a message's tail are written into its entry, and it has
arrived; one that its queue cannot hold is discarded, and a refusal returns to its sender on VC5. -/
def execMessageArrival (p : Nat) (s : State) : Result :=
  .next (match s.arrived p with
    | some k =>
      (match k.body with
       | .msg m =>
         let s1 := s.dropPacket p
         (match k.entry with
          | some i => s1.arriveEntry m.dest m.q i (32 * (ceilDiv m.len 32 - 1)) m.payload
          | none =>
            if m.wake then s1.noSlotRecord m.dest .queueErr 0 (zext m.q)
            else match m.who with
              | some w => s1.inject k.dst k.src 5 1 k.stamp false (.msgRefused w m.q)
              | none => s1)
       | _ => s)
    | none => s)

/-- `MESSAGE_REFUSAL` (R167, R354): the sender takes `QUEUE_ERR`; a host queue gets a completion of status 4. -/
def execMessageRefusal (p : Nat) (s : State) : Result :=
  .next (match s.arrived p with
    | some { body := .msgRefused w q, .. } =>
      (match w.origin with
       | .host hq id => if (s.hostQueue hq).full then s else (s.dropPacket p).complete hq id 4
       | _ => (s.dropPacket p).issuerTrap w .queueErr (zext q))
    | _ => s)

/-- The queues of a tile whose head message is firable (R27): queue, entry index, binding index. -/
def Tile.firable (x : Tile) : List (QNum × Nat × Nat) :=
  (upFrom 0 8).filterMap fun n =>
    let qn : QNum := BitVec.ofNat 3 n
    let q := x.queue qn
    if !q.valid then none
    else match q.readEntry with
      | none => none
      | some i =>
        if (q.entry i).taken then none
        else (x.bindingOf qn (q.entry i).tag).map fun b => (qn, i, b)

/-- The firable message that arrived earliest, the lower queue on a tie (R27). -/
def Tile.fires (x : Tile) : Option (QNum × Nat × Nat) :=
  x.firable.foldl (fun best f =>
    match best with
    | none => some f
    | some g => if ((x.queue f.1).entry f.2.1).order < ((x.queue g.1).entry g.2.1).order then some f else some g) none

/-- The slot at the first instruction of an activation (R28, R44). -/
def Slot.fire (act : Nat) (q : Queue) (qn : QNum) (i b : Nat) (x : Binding) : Slot :=
  let e := q.entry i
  let c := ((((Ctx.reset.set 2 (BitVec.ofNat 64 (q.offset i))).set 3 (zext e.tag)).set 4 (zext e.len)).set 5 (senderId e))
  { Slot.reset with ctx := { c with pc := x.entry &&& ~~~1#64 }, state := .ready, queue := qn, binding := BitVec.ofNat 5 b, tag := e.tag,
                    share := x.share, counter := x.counter, act := act }

/-- `ACTIVATION_FIRING` (R21, R27, R28, R45): the earliest firable message fires into the lowest FREE
slot, the model's choice among them (log entry 136). -/
def execActivationFiring (t : TileName) (s : State) : Result :=
  let x := s.tile t
  .next (if x.pre != 0 || (s.bulk t.ret).failed
      || (bit x.trapctl 1 && allSlots.any fun k => (x.slot k).state = .parked) then s
    else match allSlots.find? fun k => (x.slot k).state = .free, x.fires with
      | some k, some f =>
        let q := x.queue f.1
        let slot := Slot.fire s.serial q f.1 f.2.1 f.2.2 (x.bindingAt f.2.2)
        (s.bump.onTile t fun x =>
          (x.setQueue f.1 (q.setEntry f.2.1
            { q.entry f.2.1 with taken := true, passed := true, fired := true, held := true, holder := k })).setSlot k
            { slot with ctl := (x.slot k).ctl }).noteProgress (s.regionOf t.ret)
      | _, _ => s)

/-- Whether an older value of the same lane is still on its way (R169). -/
def State.laneBehind (s : State) (p : Nat) (l : Lane) : Bool :=
  s.lanes.any fun x => x.1 < p && x.2.src = l.src && x.2.dir = l.dir

/-- `FWD_VALUE_ARRIVAL` (R169, R279): a value that its gate passes, if it crosses a seam, enters the mailbox, in the
order sent. -/
def execFwdValueArrival (p : Nat) (s : State) : Result :=
  .next (match s.lanes.find? p with
    | none => s
    | some l =>
      if !s.lanePasses l || s.laneBehind p l then s
      else { s with lanes := s.lanes.del p }.onTile l.dst fun x =>
        x.setBox (opposite l.dir) (x.box (opposite l.dir) ++ [l.value]))

/-- `LANE_GATE_REFUSAL` (R210, R279, R295): the seam gate of the sender's bulkhead refuses a value and logs it; the
value returns, and its sender takes `GATE`. -/
def execLaneGateRefusal (p : Nat) (s : State) : Result :=
  .next (match s.lanes.find? p with
    | none => s
    | some l =>
      if s.lanePasses l || s.laneBehind p l then s
      else ({ s with lanes := s.lanes.del p }.logRefusal l.src.ret (tileId l.dst)).issuerTrap l.who .gate (tileId l.dst))

end Sys2Proof.Machine
end

