-- ==== Sys2Proof/Machine/TileEvents.lean ====
section
/-! DEFINITION. Further events of tiles and islands: share adds, roll-call wires, the group directory, migrated
activations, system calls, load levelling (R32 to R35, R38 to R40, R164, R165, R173, R174, R181, R182, R270
to R272, R275). -/

namespace Sys2Proof.Machine

/-- Whether a share add to own tile scratch must wait for what issued on the tile before its `END`: vector loads and stores
of its bytes, and the metadata of a join (R19, R191, R224). -/
def State.shareBehind (s : State) (t : TileName) (a : ShareAdd) : Bool :=
  match s.locate (some t) a.counter 16 with
  | .scratch u off =>
    u = t && ((s.tile t).vq.any (fun c => c.id < a.no && s.rowMeets t c off 16) || s.metaBefore a.no t off 16)
  | _ => false

/-- `SHARE_ADD_DEPARTURE` (R31, R32, R173): a queued share add leaves once every access that its release covers is
performed; on own tile scratch it is performed at once, behind what issued earlier on the tile (R19). A counter that is
in no memory takes the trap of its address, with a record that names no slot (R46, R74). -/
def execShareAddDeparture (t : TileName) (i : Nat) (s : State) : Result :=
  let x := s.tile t
  .next (match x.shareAdds[i]? with
    | none => s
    | some a =>
      if a.after.any (s.accessOpen t) || s.shareBehind t a || 16 ≤ x.offTile.length then s
      else
        let s1 := s.onTile t fun x => { x with shareAdds := x.shareAdds.eraseIdx i }
        let l := s.locate (some t) a.counter 16
        let src := tileNode t
        let r : Req := { acc := .cadd (zext a.share) a.status, addr := a.counter,
                         who := { origin := .share t, rid := s.serial, epc := a.epc, iw := 0 }, also := [],
                         pid := x.pid, hLevel := false, dest := none, counted := false, lc := false }
        let sent := (s1.bump.onTile t fun x => { x with offTile := x.offTile ++ [s.serial] }).inject src
          ((s.asSlot t 0).reqNode l src) 0 1 (s.stampOf t.ret false) false (.req r)
        match l with
        | .bad => s1.noSlotRecord t .noname a.epc a.counter
        | .state _ _ => s1.noSlotRecord t .priv a.epc 0
        | .scratch u _ =>
          if u != t then sent
          else if s.eccBad l.key 16 then (s1.foundEcc l.key 16).noSlotRecord t .eccUe a.epc a.counter
          else s1.addAt l.home l.key (zext a.share) a.status
        | _ => sent)

/-! ## Roll-call wires (R164, R165, R275) -/

/-- Releases an agent that waits for a wire: its row, or its column. -/
def State.releaseWire (s : State) (col : Bool) (ag : Agent) : State :=
  match (s.ctxOf ag).wait with
  | .wire r c =>
    let w : Wait := .wire (r && col) (c && !col)
    if w = .wire false false then s.endsWait ag else s.setCtxOf ag { s.ctxOf ag with wait := w }
  | _ => s

/-- Releases the waiting activations of one tile, those that have migrated among them, from a wire (R165, R185). -/
def State.releaseTile (s : State) (col : Bool) (t : TileName) : State :=
  let s := s.onTile t fun x => { x with arrived := x.arrived &&& (if col then 1 else 2) }
  allSlots.foldl (fun s k => s.releaseWire col (s.whereRuns t k (s.slot t k).act)) s

/-- `WIRE_RELEASE` (R165, R275): a wire on which every member had arrived releases those members, whatever RC_MASK has
become since. -/
def execWireRelease (b : BulkId) (col : Bool) (i : Nat) (s : State) : Result :=
  .next (match s.wires.find? (wireKey b col i) with
    | none => s
    | some ms =>
      (ms.foldl (fun (s' : State) t => s'.releaseTile col t) { s with wires := s.wires.del (wireKey b col i) }).latchWire b col i)

/-! ## Groups (R34, R35, R174) -/

/-- `GROUP_DIRECTORY_REQUEST` (R34, R174): the directory adds or removes a member and acknowledges. -/
def execGroupDirectoryRequest (p : Nat) (s : State) : Result :=
  .next (match s.arrived p with
    | some k =>
      (match k.body with
       | .group t g join ag act =>
         let key := 256 * s.regionOf t.ret + g.toNat
         let ms := s.groups.get [] key
         let ms' := if join then (if ms.contains t then ms else ms ++ [t]) else ms.filter (· != t)
         { s with groups := if ms'.isEmpty then s.groups.del key else s.groups.put key ms' }.dropPacket p |>.inject
           k.dst (agentNode ag) 1 1 k.stamp false (.groupAck t g join ag act)
       | _ => s)
    | none => s)

/-- `GROUP_ACK_ARRIVAL` (R35): the membership is the tile's, and the waiting `JOIN` or `LEAVE` completes. -/
def execGroupAckArrival (p : Nat) (s : State) : Result :=
  .next (match s.arrived p with
    | some k =>
      (match k.body with
       | .groupAck t g join ag act =>
         let s1 := (s.dropPacket p).onTile t fun x => if join then x.joinGroup g else x.leaveGroup g
         let current := match ag with
           | .slot u n => (s.slot u n).act = act
           | .core b c => match (s.core b c).home with | some h => h.2.2 == act | none => false
         if current && (s1.ctxOf ag).wait = .group then s1.endsWait ag else s1
       | _ => s)
    | none => s)

/-! ## Migrated activations and system calls (R38 to R40, R181, R182) -/

/-- Whether a core can take a migrated activation: it hosts none, and is idle or waits in `WFI` at level G. A core that
stands at level H, that the fetch trap at HVENTRY has halted, or that was never started, takes none (R302, R355). -/
def PCore.idle (x : PCore) : Bool :=
  x.home.isNone && !x.h && (!x.running || (match x.ctx.wait with | .issued .wfi _ _ _ => true | _ => false))

/-- The core with a migrated activation placed on it, at level G (R38, R39, R151). -/
def PCore.host (x : PCore) (m : MigImage) : PCore :=
  { x with h := false, running := true, home := some (m.tile, m.slot, m.act),
           ctx := { Ctx.reset with regs := m.regs, eregs := m.eregs, pc := m.pc, loop0 := m.loop0, loop1 := m.loop1,
                                   noEnd := m.noEnd, pend := m.pend } }

/-- `MIGRATED_ACTIVATION_PLACEMENT` (R38, R182): an activation that has reached its island goes to core `c`, when that
core is free; else it waits in the island. -/
def execMigratedActivationPlacement (p : Nat) (c : BitVec 3) (s : State) : Result :=
  .next (match s.arrived p with
    | some k =>
      (match k.body with
       | .migrate m =>
         let b := k.dst / 4096
         if (s.core b c).idle then (s.dropPacket p).onCore b c (·.host m) else s
       | _ => s)
    | none => s)

/-- The slot to which a migrated activation returns (R38, R182). -/
def Slot.takeBack (x : Slot) (m : MigImage) : Slot :=
  { x with state := .ready,
           ctx := { x.ctx with regs := m.regs, eregs := m.eregs, pc := m.pc, loop0 := m.loop0, loop1 := m.loop1,
                               wait := .none, noEnd := m.noEnd, pend := m.pend } }

/-- `MIGRATE_RETURN_ARRIVAL` (R182): the home slot becomes READY. -/
def execMigrateReturnArrival (p : Nat) (s : State) : Result :=
  .next (match s.arrived p with
    | some k =>
      (match k.body with
       | .migrateBack m =>
         let s1 := s.dropPacket p
         if (s.slot m.tile m.slot).state = .migrated && (s.slot m.tile m.slot).act = m.act then
           s1.onSlot m.tile m.slot (·.takeBack m)
         else s1
       | _ => s)
    | none => s)

/-- `SYSCALL_REQUEST_ARRIVAL` (R40, R181): the request waits in the island for the tenant image to accept it. -/
def execSyscallRequestArrival (p : Nat) (s : State) : Result :=
  .next (match s.arrived p with
    | some k =>
      (match k.body with
       | .syscall t block token counter =>
         (s.dropPacket p).onIsland (k.dst / 4096) fun x => { x with calls := x.calls ++ [(t, block, token, counter)] }
       | _ => s)
    | none => s)

/-! ## Load levelling (R270 to R272) -/

def Level.interval (l : Level) : Nat := 2 ^ max 8 (min 20 (field l.ctl 10 5))
def Level.maxShip (l : Level) : Nat := max 1 (field l.ctl 36 8)

/-- Whether a tile is eligible in an interval (R271). -/
def Tile.balances (x : Tile) : Bool := bit x.lvl.ctl 0 && x.groups.contains (BitVec.ofNat 8 (field x.lvl.ctl 2 8))

/-- The DEPTH of a neighbour that a tile reads at its boundary: that of the same boundary, or, in another bulkhead,
of the neighbour's own latest boundary. -/
def State.depthSeen (s : State) (t u : TileName) : Nat :=
  let l := (s.tile u).lvl
  if u.ret != t.ret || l.edge = s.now t then l.edgeDepth else l.depth

/-- The eligible neighbours of a tile, in the order N, E, S, W. -/
def State.levelNeighbours (s : State) (t : TileName) : List TileName :=
  let x := s.tile t
  (allSlots.filterMap fun d => neighbour t d).filter fun u =>
    s.tileExists u && s.regionOf u.ret = s.regionOf t.ret && (s.tile u).balances
      && field (s.tile u).lvl.ctl 2 8 = field x.lvl.ctl 2 8

/-- The neighbour with the least depth, the first on a tie. -/
def State.leastLoaded (s : State) (t : TileName) : List TileName → Option TileName → Option TileName
  | [], best => best
  | u :: rest, best =>
    State.leastLoaded s t rest (match best with
      | none => some u
      | some v => if s.depthSeen t u < s.depthSeen t v then some u else some v)

/-- Ships the k newest entries of a tile's list to a neighbour, the newest last. -/
def State.shipEntries (s : State) (t u : TileName) (k : Nat) : State :=
  let l := (s.tile t).lvl
  let idx := (upFrom (l.head + l.depth - k) k).map (· % l.size)
  let s := s.onTile t fun x => { x with lvl := { x.lvl with depth := l.depth - k, shipped := l.shipped + BitVec.ofNat 16 k } }
  idx.foldl (fun s i =>
    s.inject (tileNode t) (tileNode u) 3 1 (s.stampOf t.ret false) false
      (.level t u (s.mem.readN (scratchKey t (l.base + 32 * i)) 32))) s

/-- `LEVELLING_BOUNDARY` (R271, R272): at a boundary of its interval an eligible tile ships entries to its least-loaded
eligible neighbour. -/
def execLevellingBoundary (t : TileName) (s : State) : Result :=
  let x := s.tile t
  let now := s.now t
  .next (if now.toNat % x.lvl.interval != 0 || x.lvl.edge = now then s
    else
      let s1 := s.onTile t fun x => { x with lvl := { x.lvl with edge := now, edgeDepth := x.lvl.depth } }
      if !x.balances || x.outst != 0 || x.fails != 0 || (s.bulk t.ret).gate = 2 then s1
      else match s.leastLoaded t (s.levelNeighbours t) none with
        | none => s1
        | some u =>
          let d := x.lvl.depth
          let m := s.depthSeen t u
          if d < m + 2 then s1
          else s1.shipEntries t u (min (min ((d - m) / 2) x.lvl.maxShip) (((s.tile u).lvl.size - m) / 4)))

/-- `LEVELLING_ENTRY_ARRIVAL` (R271): an entry is appended to the receiver's list. -/
def execLevellingEntryArrival (p : Nat) (s : State) : Result :=
  .next (match s.arrived p with
    | some k =>
      (match k.body with
       | .level _ t bs =>
         if (s.tile t).listFull then s
         else ((s.dropPacket p).appendEntry t bs).onTile t fun x =>
           { x with lvl := { x.lvl with received := x.lvl.received + 1 } }
       | _ => s)
    | none => s)

end Sys2Proof.Machine
end

