-- ==== Sys2Proof/Machine/Stations.lean ====
section
/-! DEFINITION. Translation stations: translation, walks, forwarding, re-encryption of pages, invalidation, retry
(R77, R303, R307 to R315, R319, R331). -/

namespace Sys2Proof.Machine

/-- Root of the Dean's tables for a request: HROOT of the core that made it (R303). -/
def State.rootOf (s : State) (r : Req) : Word :=
  match r.who.origin with
  | .core b c _ => (s.core b c).hroot
  | _ => 0

/-- The leaf that the requesting core keeps for an address (R303). -/
def State.coreLeaf (s : State) (r : Req) : Option Leaf :=
  match r.who.origin with
  | .core b c _ => if field r.addr 56 7 != 0 then none else leafHit (s.core b c).tlb r.hLevel r.pid (field r.addr 0 56)
  | _ => none

/-- Translates a request at station `b` without a walk (R312); a core's own translation, if it keeps one, comes before
the station's, but not when the request is retried (R303, R331). The range entries are those that stood when the request
arrived (R311). -/
def State.lookup (s : State) (b : BulkId) (k : Packet) (r : Req) : Except XReason (Option Xlat) :=
  match (if k.retried then none else s.coreLeaf r) with
  | some l => (s.finish r.hLevel (s.regionOf b) l.pte (l.pa (field r.addr 0 56)) r.acc.right r.acc.isCounter l).map some
  | none =>
    (match k.ranges with
     | some m => s.onStation b fun x => { x with range := m }
     | none => s).translate b r.hLevel (s.rootOf r) r.pid r.addr r.acc.right r.acc.isCounter false

/-- Whether a request's edge lines count in its tile's INTEG (R98, R321). -/
def Req.counts (r : Req) (pa : Nat) : Bool :=
  r.who.origin.tile.isSome && !paFar pa
    && (match r.acc with | .load _ _ | .cread | .ctest _ | .cwait _ | .sread _ => true | _ => false)

/-- Keeps a translation: the leaf that a walk gave, in the station's cache, and what the station answered, in the
translations of the core that asked (R303, R312). -/
def State.keepLeaf (s : State) (b : BulkId) (r : Req) (x : Xlat) (walked : Bool) : State :=
  let s := if walked then s.cacheLeaf b x.leaf else s
  match r.who.origin with
  | .core c n _ => s.onCore c n fun y => if y.tlb.contains x.leaf then y else { y with tlb := y.tlb ++ [x.leaf] }
  | _ => s

/-- A request is translated, by a walk or without one: it goes on to the home station of its line, from the position
nearest to its way out, or is home already (R77, R280, R312). A request for a translation ends here: the core keeps it
(R303). -/
def State.translated (s : State) (p : Nat) (k : Packet) (b : BulkId) (r : Req) (x : Xlat) (walked : Bool) : State :=
  let s := s.keepLeaf b r x walked
  let r' := { r with counted := r.counts x.pa }
  let s := if r'.counted && !r.counted then s.recount r' else if r.counted && !r'.counted then s.uncount r else s
  let body : Body := .treq r' x.pa x.ord x.key
  if (match r.acc with | .probe _ => true | _ => false) then s.dropPacket p
  else if paFar x.pa || paBulk x.pa = b then s.onPacket p fun k => { k with body := body, place := .atHome, span := some x.span }
  else
    let id := s.serial
    let src := s.stationExit b (paBulk x.pa)
    ((s.dropPacket p).inject src (s.islandNode (paBulk x.pa) src) 0 r.acc.flits k.stamp false body).onPacket id fun y =>
      { y with windowed := k.windowed, span := some x.span }

/-- What follows a step of a walk. -/
def State.walkOn (s : State) (p : Nat) (k : Packet) (b : BulkId) (r : Req) : WalkStep → State
  | .next w => s.onPacket p fun k => { k with place := .walking w }
  | .fault e => s.stallAt p b e
  | .leaf l =>
    match s.finish r.hLevel (s.regionOf b) l.pte (l.pa (field r.addr 0 56)) r.acc.right r.acc.isCounter l with
    | .error e => s.stallAt p b e
    | .ok x => s.translated p k b r x true

/-- Whether a packet is a request that stands at a station and misses its translations (R312). -/
def State.missing (s : State) (b : BulkId) (q : Packet) : Bool :=
  q.place = .arrived && q.dst / 4096 = b && (match q.body with
    | .req r => bit r.addr 63 && (match s.lookup b q r with | .ok none => true | _ => false)
    | _ => false)

/-- Whether a request that misses came to a station before another, so that its walk begins first (R312). -/
def State.missAhead (s : State) (b : BulkId) (k : Packet) : Bool :=
  s.packets.any fun q => q.2.order < k.order && s.missing b q.2

/-- Whether an access that comes to a station now must wait for its walk: 128 walks run, or a request that misses is
before it (R312). -/
def State.walkWaits (s : State) (b : BulkId) : Bool := 128 ≤ s.walksAt b || s.packets.any fun q => s.missing b q.2

/-- `STATION_TRANSLATE` (R77, R312 to R314): a request that has reached its station is translated, faults, or
begins a walk, in the order of arrival. -/
def execStationTranslate (p : Nat) (s : State) : Result :=
  .next (match s.arrived p with
    | some k =>
      (match k.body with
       | .req r =>
         let b := k.dst / 4096
         if !bit r.addr 63 || !s.hasStation b then s
         else match s.lookup b k r with
           | .error e => s.stallAt p b e
           | .ok (some x) => s.translated p k b r x false
           | .ok none =>
             if 128 ≤ s.walksAt b || s.missAhead b k then s
             else s.walkOn p k b r (s.walkStart b r.hLevel (s.rootOf r) r.pid (field r.addr 0 56))
       | _ => s)
    | none => s)

/-- `WALK_READ` (R312, R315): a sealed read of a walk returns; a walk that met an invalidation starts again from
PIDTAB. -/
def execWalkRead (p : Nat) (s : State) : Result :=
  .next (match s.packets.find? p with
    | some k =>
      (match k.place, k.body with
       | .walking w, .req r =>
         let b := k.dst / 4096
         let va := field r.addr 0 56
         (if w.restart then s.walkOn p k b r (s.walkStart b r.hLevel (s.rootOf r) r.pid va)
          else match s.readSealed w.entry with
            | .error e => s.stallAt p b e
            | .ok x => s.walkOn p k b r (walkEntry r.hLevel r.pid va w.level x)).noteProgress (s.regionOf b)
       | _, _ => s)
    | none => s)

/-- `STATION_FORWARDED_REQUEST` (R77, R280): a request from another station is performed at its home station. -/
def execStationForwardedRequest (p : Nat) (s : State) : Result :=
  .next (match s.packets.find? p with
    | some k =>
      (match k.body, k.place with
       | .treq _ _ _ _, .arrived => (s.onPacket p fun k => { k with place := .atHome }).performAt p
       | _, _ => s)
    | none => s)

/-- `PAGE_REENCRYPTION` (R319): MAJOR rises, every MINOR becomes 0, and lines that failed their check still fail. -/
def execPageReencryption (page : Nat) (s : State) : Result :=
  let mine (l : Nat) : Bool := l / 64 = page
  .next (if !(s.seals.any fun e => mine e.1 && e.2.minor = 127) || s.majors.get 0 page = 2 ^ 64 - 1 then s
    else { s with majors := s.majors.put page (s.majors.get 0 page + 1),
                  seals := s.seals.map fun e => if mine e.1 then (e.1, { e.2 with minor := 0 }) else e })

/-- `ST_INV_REGION` (R315): the Dean writes ST_INV with mode 1. -/
def execStInvRegion (b : BulkId) (s : State) : Result := .next (s.startInv b 1 0)

/-- `ST_INV_PID` (R315): mode 2. -/
def execStInvPid (b : BulkId) (pid : BitVec 16) (s : State) : Result := .next (s.startInv b 2 pid)

/-- `ST_INV_PAGE` (R315): mode 3, with the page in ST_INVVA. -/
def execStInvPage (b : BulkId) (pid : BitVec 16) (s : State) : Result := .next (s.startInv b 3 pid)

/-- `ST_INV_COMPLETE` (R315): BUSY clears once no matching leaf, walk or request remains. -/
def execStInvComplete (b : BulkId) (s : State) : Result :=
  .next (if s.invPending b then s else s.onStation b fun x => { x with invBusy := false, invWaits := [] })

/-- `XLATE_RETRY` (R331): the Dean writes XRETRY with a number and a station. -/
def execXlateRetry (b : BulkId) (xid : Nat) (s : State) : Result := .next (s.writeXretry b (BitVec.ofNat 16 xid) b)

end Sys2Proof.Machine
end

