-- ==== Sys2Proof/Machine/TrapEvents.lean ====
section
/-! DEFINITION. Trap records and their ring, the invigilator, the background scrubber, and what the Dean writes to a
tile: resume, kill, debugging, pre-emption, cancels, fabric and other state (R322 to R345, R393). -/

namespace Sys2Proof.Machine

/-! ## The trap ring (R323, R325) -/

/-- The 32 bytes of a trap record (R323). -/
def TrapRec.bytes (r : TrapRec) : List Byte :=
  bytesOf r.tile ++ bytesOf r.epc ++ bytesOf r.eval
    ++ toBytes 8 (r.cause.toNat + r.slot.toNat * 2 ^ 8 + num r.noSlot * 2 ^ 10 + num r.precise * 2 ^ 11
        + num r.late * 2 ^ 12 + num r.step * 2 ^ 13 + num r.away * 2 ^ 14 + r.xreason.toNat * 2 ^ 16
        + r.xid.toNat * 2 ^ 32 + r.station.toNat * 2 ^ 48)

/-- What an H-stamped store through the Dean's tables gives: a new state, a failure, or a wait for a page's
re-encryption (R303, R318, R319). -/
inductive HWrite where
  | ok (s : State)
  | failed (s : State)
  | wait
  deriving Repr

/-- The Dean's translation of an address for the island of a bulkhead: its station, and HROOT of its core 0. -/
def State.hXlat (s : State) (b : BulkId) (a : Word) (need : Right) : Option Xlat :=
  match s.translate (s.coreStation b true) true (s.core b 0).hroot 0 a need false true with
  | .ok (some x) => if bit a 63 then some x else none
  | _ => none

/-- The walks of an island's own accesses are steps of its station, which the invigilator sees (R312, R341). -/
def State.noteWalk (s : State) (b : BulkId) : State := s.noteProgress (s.regionOf (s.coreStation b true))

/-- An H-stamped store of bytes within one line, as an island makes it (R303, R325, R337). It waits for its turn to walk;
the walk and the store are then one step, within the event that makes them (R312; log entry 151). -/
def State.hStore (s : State) (b : BulkId) (a : Word) (bs : List Byte) : HWrite :=
  if s.walkWaits (s.coreStation b true) then .wait
  else match s.hXlat b a .w with
  | none => .failed s
  | some x =>
    if paFar x.pa then .ok (s.poke (physKey x.pa) (indexed bs))
    else match s.performEdge (paBulk x.pa)
        { acc := .store bs.length (indexed bs), addr := a, who := { origin := .core b 0 0, rid := 0, epc := 0, iw := 0 },
          also := [], pid := 0, hLevel := true, dest := none, counted := false, lc := false } x.pa x.key with
      | .done (some .done) s' _ => .ok s'
      | .done _ s' _ => .failed s'
      | .wait => .wait
      | .ctrMax => .failed s

/-- Address of the next record of an island's ring, at the virtual page TQBASE of the Dean's tables (R325). -/
def Island.recordAt (x : Island) : Word := place 63 1 + x.tqbase + zext x.tqtail * 32

/-- `TRAP_RECORD_ARRIVAL` (R322, R325): a record that has reached its island is written at TQTAIL, which advances; a
full ring keeps it waiting, and so does a place that it cannot be written to (log entry 63). -/
def execTrapRecordArrival (p : Nat) (s : State) : Result :=
  .next (match s.arrived p with
    | some k =>
      (match k.body with
       | .trapRec r =>
         let b := r.island
         let x := s.island b
         if x.ringFull || (s.hXlat b x.recordAt .w).isNone then s
         else
           let done (s : State) : State :=
             ((s.dropPacket p).onIsland b fun y => { y with tqtail := y.tqtail + 1 }).noteWalk b
           (match s.hStore b x.recordAt r.bytes with
            | .ok s' => done s'
            | .failed _ | .wait => s)
       | _ => s)
    | none => s)

/-! ## The invigilator (R341, R343) -/

/-- The registrar sets the gates of a list of bulkheads (R292). -/
def State.setGates (s : State) (bs : List BulkId) (mode : BitVec 2) : State :=
  bs.foldl (fun s b => s.onBulk b fun x => { x with gate := mode }) s

/-- The bulkheads of a region whose gates may change between OPEN and HOLD: those that are LIVE (R289). -/
def State.liveOf (s : State) (r : Nat) : List BulkId := (s.bulksOf r).filter fun b => (s.bulk b).st = .live

/-- A freeze: steps 1 and 2 of R335, for every tile of the region. -/
def State.freeze (s : State) (r : Nat) : State :=
  (s.everyTile r).foldl (fun s t => s.stopTile t) (s.setGates (s.liveOf r) 2)

/-- A `STALL` record of a region (R323, R341). -/
def stallRecord (b : BulkId) (r : Nat) : TrapRec :=
  { island := b, tile := 0, epc := 0, eval := BitVec.ofNat 64 r, cause := Cause.stall.code, slot := 0, noSlot := true,
    precise := false, late := false, step := false, away := false, xreason := 0, xid := 0, station := 0 }

/-- Sends a record from an island's own node. -/
def State.islandRecord (s : State) (r : TrapRec) : State := s.sendRecord (nodeAt r.island 20 16) r

/-- `INVIGILATOR_EXPIRY` (R341): IDLE has reached the window: the region freezes, and a `STALL` record leaves. -/
def execInvigilatorExpiry (r : Nat) (s : State) : Result :=
  let b := s.anchor r
  let x := s.island b
  .next (if !s.isAnchor b || s.regionOf b != r || !bit x.invctl 0 || x.idle.toNat < 2 ^ x.winLog then s
    else (((s.freeze r).onIsland b fun y => { y with stalled := true, idle := 0 })).islandRecord (stallRecord b r))

/-! ## The background scrubber (R139, R345, R393) -/

/-- The record of an error that the scrubber finds: the tile or controller that holds the word sends it (R345). TILE is 0
in the record of a block's or hall's controller, which stands in no tile: the model's choice (log entry 149). -/
def State.scrubRecord (s : State) (w : Nat) : State :=
  let a : Word := BitVec.ofNat 64 (8 * w)
  match eccSite (8 * w) with
  | .tile t => s.noSlotRecord t .eccUe 0 a
  | .block b k =>
    s.sendRecord (nodeAt b (4 * (k % 12) + 1) (4 * (k / 12) + 1))
      { stallRecord b 0 with eval := a, cause := Cause.eccUe.code }
  | .hall b => s.islandRecord { stallRecord b 0 with eval := a, cause := Cause.eccUe.code }
  | .island _ | .other => s

/-- `BACKGROUND_SCRUB` (R345, R393): the scrubber reads one ECC word. A corrected error is written back and counted;
an uncorrectable one is left in place, counted and reported. It reads no word of an island's cache (R345). -/
def execBackgroundScrub (w : Nat) (s : State) : Result :=
  .next (if 2 ^ 68 ≤ 8 * w then s else match s.ecc.find? w, (eccSite (8 * w)).bulk with
    | some false, some b =>
      { s with ecc := s.ecc.del w }.onIsland b fun x => { x with eccCorr := x.eccCorr + 1 }
    | some true, some _ => (s.foundWord w).scrubRecord w
    | _, _ => s)

/-! ## What the Dean writes to a tile (R326 to R334, R340, R344) -/

/-- `SLOT_RESUME` (R329): RESUME is written to CTL of a slot record. -/
def execSlotResume (t : TileName) (k : BitVec 2) (s : State) : Result := .next (s.slotCtl t k 1)

/-- `SLOT_KILL` (R330): KILL is written to CTL of a slot record. -/
def execSlotKill (t : TileName) (k : BitVec 2) (s : State) : Result := .next (s.slotCtl t k 2)

/-- `SLOT_REGISTER_WRITE` (R327, R349): a dword of a slot record, at its offset in the record. -/
def execSlotRegisterWrite (t : TileName) (k : BitVec 2) (off : Nat) (v : Word) (s : State) : Result :=
  .next (if off < 0x158 && off % 8 = 0 then s.slotWrite t k off v else s)

/-- `INTEG_CLEAR` (R344): a write to INTEG sets FAILS to 0. -/
def execIntegClear (t : TileName) (s : State) : Result := .next (s.indexWrite t 0x050 0)

/-- `DBG_CTL_WRITE` (R332, R349). -/
def execDbgCtlWrite (t : TileName) (v : Word) (s : State) : Result := .next (s.indexWrite t 0x100 v)

/-- `DEBUG_STEP` (R333): DBG_STEP is written. -/
def execDebugStep (t : TileName) (v : Word) (s : State) : Result := .next (s.indexWrite t 0x101 v)

/-- PREEMPT with IMAGE as a word has it, a command, and no bit cleared (R334). -/
def preemptWord (v : Word) (cmd : Nat) : Word := place 12 (field v 12 52) ||| BitVec.ofNat 64 cmd

/-- `PREEMPT_STOP` (R334, R339): STOP is written to PREEMPT, IMAGE as it stands. -/
def execPreemptStop (t : TileName) (s : State) : Result :=
  .next (s.indexWrite t 0x110 (preemptWord (s.preemptReg t) 1))

/-- `PREEMPT_SAVE` (R334): SAVE is written to PREEMPT with the image's virtual page in `v`. -/
def execPreemptSave (t : TileName) (v : Word) (s : State) : Result := .next (s.indexWrite t 0x110 (preemptWord v 2))

/-- `PREEMPT_LOAD` (R334, R338): LOAD is written to PREEMPT with the image's virtual page in `v`. -/
def execPreemptLoad (t : TileName) (v : Word) (s : State) : Result := .next (s.indexWrite t 0x110 (preemptWord v 3))

/-- `PREEMPT_RUN` (R334, R343): RUN is written to PREEMPT, IMAGE as it stands. -/
def execPreemptRun (t : TileName) (s : State) : Result :=
  .next (s.indexWrite t 0x110 (preemptWord (s.preemptReg t) 4))

/-- `QUEUE_CANCEL` (R340): the cancel word is written. -/
def execQueueCancel (t : TileName) (v : Word) (s : State) : Result := .next (s.onTile t (·.writeCancel v))

/-- `FABRIC_STATE_WRITE` (R326): a dword of the fabric state area, at its offset in the area. -/
def execFabricStateWrite (t : TileName) (off : Nat) (v : Word) (s : State) : Result :=
  .next (if off < 0x900 && off % 8 = 0 then s.fabricWrite t off v else s)

/-- `REGISTER_WRITE` (R24, R43, R326, R328): a dword of the tile state space, at its remote-tile offset. -/
def execRegisterWrite (t : TileName) (off : Nat) (v : Word) (s : State) : Result :=
  .next (if off % 8 = 0 && 0x800000 ≤ off then s.tssWrite t off v else s)

end Sys2Proof.Machine
end

