-- ==== Sys2Proof/Machine/PreemptEvents.lean ====
section
/-! DEFINITION. The save image of a tile, and the completion of SAVE and LOAD (R155, R326 to R328, R334 to R338). -/

namespace Sys2Proof.Machine

/-! ## The image (R337)

Bytes of a slot record that R327 leaves unnamed hold what a restored slot needs besides: at +0x188 share, counter,
work-list entry, end-action mark, SLOT and activation number, and in record 0 the head of the work list. -/

/-- Address of the instruction that a saved slot issues first: a waiting instruction stands at itself (R155). -/
def Ctx.savePc (c : Ctx) : Word := if c.wait = .none || c.wait = .retry then c.pc else c.ipc

/-- Whether the first instruction of a saved slot makes no second end action (R155). -/
def Ctx.saveNoEnd (c : Ctx) : Bool := if c.wait = .none || c.wait = .retry then c.noEnd else true

/-- A dword of a slot record in the image. -/
def Tile.slotDword (x : Tile) (k : BitVec 2) (o : Nat) : Word :=
  let y := x.slot k
  match o with
  | 0x140 => y.ctx.savePc
  | 0x188 => zext y.share
  | 0x190 => y.counter
  | 0x198 => (match y.taken with | none => 0 | some i => BitVec.ofNat 64 (i + 1))
  | 0x1A0 => BitVec.ofNat 64 (num y.ctx.saveNoEnd)
  | 0x1A8 => y.reg k
  | 0x1B0 => BitVec.ofNat 64 y.act
  | 0x1B8 => if k = 0 then BitVec.ofNat 64 x.lvl.head else 0
  | _ => y.recRead o

/-- The fabric state with STATE as at the halt (R337). -/
def State.haltedImage (s : State) (t : TileName) (o : Nat) : Word :=
  let w := wordOf (((s.fabricImage t).drop o).take 8)
  if o = 0x8C0 then w ||| zext (s.tile t).fab.was else w

/-- A dword of a tile's save image (R337). -/
def State.imageDword (s : State) (t : TileName) (o : Nat) : Word :=
  let x := s.tile t
  if o < 0x28000 then s.mem.word (scratchKey t o)
  else if o < 0x29000 then (s.tileReg t x.dbgSlot ((o - 0x28000) / 8)).getD 0
  else if o < 0x29800 then x.slotDword (BitVec.ofNat 2 ((o - 0x29000) / 0x200)) ((o - 0x29000) % 0x200)
  else if o < 0x2AC00 then x.rowRead (o - 0x29800)
  else if o < 0x2B500 then s.haltedImage t (o - 0x2AC00)
  else if o < 0x2B800 then 0
  else if o < 0x2D880 then s.fabricRead t (o - 0x2B800 + 0x1000)
  else if o < 0x2E000 then 0
  else if o < 0x36000 then x.tableRead (o - 0x2E000)
  else s.routerRead t (o - 0x36000)

/-- The 64 bytes of a line of the image. -/
def State.imageLine (s : State) (t : TileName) (i : Nat) : List Byte :=
  ((upFrom 0 8).map fun j => bytesOf (s.imageDword t (64 * i + 8 * j))).flatten

/-- Lines of an image. -/
def imageLines : Nat := 0x37400 / 64

/-- Writes the lines of a list of an image (R337). -/
def State.saveLines (s : State) (t : TileName) : List Nat → HWrite
  | [] => .ok s
  | i :: rest =>
    match s.hStore t.ret (place 12 (s.tile t).image.toNat + BitVec.ofNat 64 (64 * i)) (s.imageLine t i) with
    | .ok s' => State.saveLines s' t rest
    | r => r

/-- The end of a SAVE or LOAD: DONE and SAVED, or ERR and STOPPED (R334). -/
def State.preemptEnd (s : State) (t : TileName) (ok : Bool) : State :=
  (s.onTile t fun x => { x with pre := if ok then 3 else 1, preDone := x.preDone || ok, preErr := x.preErr || !ok }).noteWalk
    t.ret

/-- `PREEMPT_SAVE_COMPLETE` (R334, R337). -/
def execPreemptSaveComplete (t : TileName) (s : State) : Result :=
  let x := s.tile t
  .next (if x.pre != 2 || !x.preSave then s
    else match s.saveLines t (upFrom 0 imageLines) with
      | .ok s' => s'.preemptEnd t true
      | .failed s' => s'.preemptEnd t false
      | .wait => s)

/-! ## Restoring (R155, R338) -/

/-- The 64 bytes of a line of an image in the Dean's tables; none when its translation, its check or its memory
fails. -/
def State.hLoadLine (s : State) (b : BulkId) (a : Word) : Option (List Byte) :=
  match s.hXlat b a .r with
  | none => none
  | some x =>
    if paFar x.pa then some (s.mem.readN (physKey x.pa) 64)
    else if s.lineOk x.pa (s.token x.key) && !s.eccBad (physKey x.pa) 64 then some (s.mem.readN (physKey x.pa) 64)
    else none

/-- The bytes of an image, or none when a line fails. -/
def State.loadLines (s : State) (t : TileName) : List Nat → Option (List Byte)
  | [] => some []
  | i :: rest =>
    match s.hLoadLine t.ret (place 12 (s.tile t).image.toNat + BitVec.ofNat 64 (64 * i)), State.loadLines s t rest with
    | some a, some b => some (a ++ b)
    | _, _ => none

/-- A dword of an image. -/
def imageAt (img : List Byte) (o : Nat) : Word := wordOf ((img.drop o).take 8)

/-- A slot restored from its record: WAITING slots wait again from the start, PARKED slots stay parked (R155, R338). -/
def slotOfImage (img : List Byte) (k : Nat) : Slot :=
  let w (o : Nat) : Word := imageAt img (0x29000 + 0x200 * k + o)
  let st := slotStateOf (field (w 0x158) 0 3)
  let reg := w 0x1A8
  let mask := w 0x180
  { ctx := { regs := Vector.ofFn fun i : Fin 32 => if i.val = 0 then 0 else w (8 * i.val),
             eregs := Vector.ofFn fun i : Fin 8 => w (0x100 + 8 * i.val),
             pc := w 0x140 &&& ~~~1#64, loop0 := loopKept (w 0x148), loop1 := loopKept (w 0x150), loopH0 := 0, loopH1 := 0,
             wait := if st = .waiting then .retry else .none, ipc := w 0x140 &&& ~~~1#64, issuedAt := none, popNo := 0,
             before := Ctx.reset.before, noEnd := bit (w 0x1A0) 0,
             pend := ((upFrom 1 31).filter fun i => bit mask i).map fun i =>
               { reg := BitVec.ofNat 5 i, id := 0, failed := true },
             out := [] },
    state := st, cause := BitVec.ofNat 8 (w 0x168).toNat, epc := w 0x170, eval := w 0x178, shared := bit (w 0x158) 3,
    queue := BitVec.ofNat 3 (field reg 4 3), binding := BitVec.ofNat 5 (field reg 8 5),
    tag := BitVec.ofNat 16 (field reg 16 16), share := BitVec.ofNat 32 (w 0x188).toNat, counter := w 0x190,
    act := (w 0x1B0).toNat, taken := if w 0x198 = 0 then none else some ((w 0x198).toNat - 1), ctl := w 0x160 }

/-- The table area's offsets in the order in which they are restored: marks before descriptors, ring marks of the
mailboxes before their entries. -/
def tableOrder : List Nat :=
  dwords 0xD00 ++ (dwords 0x6000).map (0x2000 + ·) ++ (dwords 0x100).map (0xD00 + ·) ++ (dwords 0x10).map (0xE80 + ·)
    ++ (dwords 0x80).map (0xE00 + ·) ++ (dwords 0x70).map (0xE90 + ·)

/-- The drafts of an image. -/
def draftsOfImage (t : TileName) (img : List Byte) : Vector (Option Draft) 16 :=
  Vector.ofFn fun n : Fin 16 =>
    let at' (o : Nat) : Word := imageAt img (0x2E000 + 0xF00 + 272 * n.val + o)
    if bit (at' 8) 31 then some (Draft.ofDwords t at') else none

/-- The tables of a tile restored from an image (R328). -/
def Tile.restoreTables (x : Tile) (t : TileName) (img : List Byte) : Tile :=
  let x := { x with queues := Vector.replicate 8 Queue.reset, recs := [], drafts := draftsOfImage t img,
                    tableRest := [] }
  let x := (dwords 0x1100).foldl (fun x o =>
    if (x.drafts.toList.getD (o / 272) none).isSome || imageAt img (0x2EF00 + o) = 0 then x
    else x.draftWrite t (0xF00 + o) (imageAt img (0x2EF00 + o))) x
  tableOrder.foldl (fun x o => x.tableWrite t o (imageAt img (0x2E000 + o))) x

/-- The tile's registers, slots, rows and tables restored from an image; reserved bits read 0 (R11).
An abort that waits for a later arrival of the tile (R222) has no place in the image and is lost, and a running step takes
its slot from DBG_CTL.SLOT: the model's choices (log entry 66). -/
def Tile.restore (x : Tile) (t : TileName) (img : List Byte) : Tile :=
  let r (i : Nat) : Word := imageAt img (0x28000 + 8 * i)
  let x := { x with slots := Vector.ofFn fun k : Fin 4 => slotOfImage img k.val,
                    pid := BitVec.ofNat 16 (r 0x003).toNat, trapctl := BitVec.ofNat 2 (r 0x014).toNat,
                    rcMask := BitVec.ofNat 2 (r 0x020).toNat, fails := BitVec.ofNat 16 (r 0x050).toNat, outst := 0,
                    dbgCtl := dbgMask (r 0x100), dbgCount := BitVec.ofNat 8 (r 0x101).toNat,
                    dbgActive := bit (r 0x101) 8, dbgOf := BitVec.ofNat 2 (field (r 0x100) 3 2), dbgFirst := false, dbgOwed := false,
                    arrived := 0,
                    mat := { x.mat with status := mstatMask (r 0x022), arrivals := [], aborts := [] },
                    lvl := { x.lvl with ctl := llMask (r 0x040), depth := field (r 0x041) 0 16,
                                        shipped := BitVec.ofNat 16 (field (r 0x041) 16 16),
                                        received := BitVec.ofNat 16 (field (r 0x041) 32 16),
                                        head := (imageAt img (0x29000 + 0x1B8)).toNat } }
  let x := (dwords 0x1400).foldl (fun x o => x.rowWrite o (imageAt img (0x29800 + o))) x
  x.restoreTables t img

/-- The fabric restored: patch words, map and pending injection, then state (R251, R338). -/
def fabricOfImage (now : Word) (img : List Byte) : Fabric :=
  let at' (o n : Nat) : List Byte := (img.drop o).take n
  let f := (upFrom 0 256).foldl (fun f c => Fabric.apply f (.patch c (at' (0x2B800 + 32 * c) 32))) Fabric.reset
  let f := (Fabric.apply f (.map (at' 0x2D800 64))).restore (at' 0x2AC00 0x900)
  { f with inj := if bit (imageAt img (0x2AC00 + 0x8C0)) 6 then [(now, at' 0x2D840 64)] else [] }

/-- Re-enrols the fabric by the saved DDA_CTL and arms it again where it was ARMED or RUNNING (R338). -/
def State.restoreFabric (s : State) (t : TileName) (img : List Byte) : State :=
  let ctl := imageAt img (0x28000 + 8 * 0x030)
  let st := imageAt img (0x2AC00 + 0x8C0)
  let budget := field ctl 32 32
  let s := (s.resetFabric t).onFabric t fun _ => fabricOfImage (s.now t) img
  let s := s.enrol t (BitVec.ofNat 4 (field ctl 0 4)) (BitVec.ofNat 6 (field ctl 4 6)) (bit ctl 10)
  if field st 0 2 = 0 then s.onFabric t fun f => { f with steps := BitVec.ofNat 32 budget }
  else (s.onFabric t fun f => { f with steps := BitVec.ofNat 32 (budget - field st 32 32) }).armFabric t none

/-- The flits of a router's buffer in an image. -/
def flitsOfImage (img : List Byte) (i : Nat) : List Flit :=
  (upFrom 0 4).filterMap fun f => flitOf (imageAt img (0x36000 + 128 * i + 32 * f))

/-- The output ports of a restored router: a packet whose header has passed a port holds its VC there (R281, R338). -/
def State.heldOuts (s : State) (node : Nat) (kept : Sparse Packet) (outs : Sparse OutPort) (bufs : List (Nat × List Flit)) :
    Sparse OutPort :=
  bufs.foldl (fun outs b =>
    match b.2 with
    | f :: _ =>
      (match (if f.idx = 0 then none else kept.find? f.pkt) with
       | some k =>
         let port := s.portFor node k.dst
         let o := outs.get OutPort.reset port
         outs.put port { o with hold := o.hold.setIfInBounds (b.1 % 8) (some f.pkt) }
       | none => outs)
    | [] => outs) outs

/-- The packets of some flits are in the network again, as they were saved. -/
def State.putBack (s : State) (kept : Sparse Packet) (fs : List Flit) : State :=
  fs.foldl (fun s f =>
    match kept.find? f.pkt with
    | some k => if (s.packets.find? f.pkt).isSome then s else { s with packets := s.packets.put f.pkt k }
    | none => s) s

/-- The buffers of a tile's router restored, with the flits that senders held back behind them and with the packets whose
flits they hold (R337, R338). -/
def State.restoreRouter (s : State) (t : TileName) (img : List Byte) : State :=
  let x := s.region (s.regionOf t.ret)
  let bufs := (upFrom 0 40).map fun i => (i, flitsOfImage img i)
  let held (i : Nat) : List Flit := x.behind.get [] (64 * tileNode t + i)
  let s := s.setRouter (tileNode t)
    { ins := (bufs.filter fun b => !b.2.isEmpty).map fun b => (b.1, { InBuf.empty with flits := b.2, behind := held b.1 }),
      outs := s.heldOuts (tileNode t) x.saved [] bufs }
  bufs.foldl (fun s b => s.putBack x.saved b.2) s

/-- The tile restored from an image (R338). -/
def State.restoreTile (s : State) (t : TileName) (img : List Byte) : State :=
  let s := { s with mem := s.mem.writeN (scratchKey t 0) (img.take 0x28000) }.eccClear (scratchKey t 0) 0x28000
  ((s.onTile t fun x => x.restore t img).restoreFabric t img).restoreRouter t img

/-- `PREEMPT_LOAD_COMPLETE` (R155, R334, R338): the tile is restored, or ERR is set and nothing is. The reads of the
image wait for their turn to walk, as its stores do (R312; log entry 151). -/
def execPreemptLoadComplete (t : TileName) (s : State) : Result :=
  let x := s.tile t
  .next (if x.pre != 2 || x.preSave || s.walkWaits (s.coreStation t.ret true) then s
    else match s.loadLines t (upFrom 0 imageLines) with
      | none => s.preemptEnd t false
      | some img =>
        if field (imageAt img (0x28000 + 8 * 0x004)) 0 32 != s.mapgen.toNat then s.preemptEnd t false
        else (s.restoreTile t img).preemptEnd t true)

end Sys2Proof.Machine
end

