-- ==== Sys2Proof/Machine/HostQueues.lean ====
section
/-! DEFINITION. The host queues of the office die: doorbells, start descriptors, completions (R28, R306, R354). -/

namespace Sys2Proof.Machine

/-- `SQ_DOORBELL` (R354): a master writes SQTAIL of a queue. -/
def execSqDoorbell (q tail : Nat) (s : State) : Result :=
  .next (if 256 ≤ q then s else s.onHostQueue q fun x => { x with sqtail := BitVec.ofNat 16 tail })

/-- Whether a queue is enabled and holds a descriptor that the office die has not read. -/
def HostQueue.waiting (x : HostQueue) : Bool := x.size != 0 && x.sqhead.toNat % x.size != x.sqtail.toNat % x.size

/-- A start descriptor (R354). -/
structure StartDesc where
  target : Word
  tag : BitVec 16
  queue : QNum
  lc : Bool
  length : Nat
  payload : Word
  id : Nat
  deriving DecidableEq, Repr

/-- The descriptor of a queue that is read next. -/
def State.nextDesc (s : State) (x : HostQueue) : StartDesc :=
  let k := hostKey (x.sqbase + BitVec.ofNat 64 (64 * (x.sqhead.toNat % x.size)))
  { target := s.mem.word k, tag := BitVec.ofNat 16 (ofBytes (s.mem.readN (k + 8) 2)),
    queue := BitVec.ofNat 3 (s.mem.read (k + 10)).toNat, lc := bit (s.mem.read (k + 11)) 0,
    length := ofBytes (s.mem.readN (k + 12) 2), payload := s.mem.word (k + 16), id := ofBytes (s.mem.readN (k + 24) 4) }

/-- The tile that a TARGET names, for a queue assigned to a region, or to the Dean (64): none for one outside the
region, or that is no tile (R306, R354). -/
def State.startTile (s : State) (owner : Nat) (target : Word) : Option TileName :=
  let t : TileName := field target 24 19
  if target = tileId t && s.tileExists t && (owner = 64 || s.regionOf t.ret = owner) then some t else none

/-- The message of a descriptor, with sender 0 (R28). -/
def State.startMessage (s : State) (q : Nat) (d : StartDesc) (t : TileName) : Msg :=
  { dest := t, q := d.queue, tag := d.tag, len := d.length, payload := s.mem.readN (hostKey d.payload) d.length, sender := 0,
    ext := true, lc := d.lc, wake := false,
    who := some { origin := .host q d.id, rid := s.serial, epc := 0, iw := 0 } }

/-- The message of a descriptor enters the wafer on VC2 or VC4, under the stamp of the queue's region (R293, R354). -/
def State.startTileMessage (s : State) (q : Nat) (x : HostQueue) (d : StartDesc) (t : TileName) : State :=
  s.bump.inject (nodeAt t.ret 20 16) (tileNode t) (if d.lc then 4 else 2) (1 + ceilDiv d.length 32)
    (if x.owner = 64 then 63 else x.owner) false (.msg (s.startMessage q d t))

/-- What one descriptor gives: its completion status and the state (R354). -/
def State.startOne (s : State) (q : Nat) (x : HostQueue) (d : StartDesc) : Nat × State :=
  if x.owner = 0 then (3, s)
  else if d.target = 0 then
    if x.owner = 64 then (1, s)
    else if 256 < d.length || d.payload.toNat % 8 != 0 then (2, s)
    else (0, s.onIsland (s.anchor x.owner) fun y => { y with starts := y.starts ++ [s.startMessage q d 0] })
  else match s.startTile x.owner d.target with
    | none => (1, s)
    | some t =>
      if 256 < d.length || d.payload.toNat % 8 != 0 then (2, s) else (0, s.startTileMessage q x d t)

/-- `HOST_START_DESCRIPTOR` (R354): the office die reads the next descriptor of a queue and its payload, injects the
message, and posts a completion; a full completion ring keeps it waiting. Queues are served while a host interface is up
(R358; log entry 131). -/
def execHostStartDescriptor (q : Nat) (s : State) : Result :=
  let x := s.hostQueue q
  .next (if !s.office.open8 || s.office.hostFailed = 3 || !x.waiting || x.full then s
    else
      let d := s.nextDesc x
      let r := s.startOne q x d
      (r.2.onHostQueue q fun y => { y with sqhead := BitVec.ofNat 16 ((x.sqhead.toNat + 1) % x.size) }).complete q d.id r.1)

end Sys2Proof.Machine
end

