-- ==== Sys2Proof/Machine/Mailbox.lean ====
section
/-! DEFINITION. The masters' mailboxes, and the commands that change no region: VERSION, ATTEST, READ, CLAIM, RELEASE,
RETIRE (R321, R350 to R353, R358, R377 to R380, R384, R391 to R396). -/

namespace Sys2Proof.Machine

/-! ## The mailbox (R351, R377, R378) -/

/-- Memory key of a byte of a master's mailbox. -/
def mailKey (m : BitVec 2) (off : Nat) : Nat := 2 ^ 66 + 4096 * m.toNat + off

/-- n bytes of a mailbox as a number. -/
def State.mail (s : State) (m : BitVec 2) (off n : Nat) : Nat := ofBytes (s.mem.readN (mailKey m off) n)
def State.mailBytes (s : State) (m : BitVec 2) (off n : Nat) : List Byte := s.mem.readN (mailKey m off) n
def State.mailWrite (s : State) (m : BitVec 2) (off : Nat) (bs : List Byte) : State :=
  { s with mem := s.mem.writeN (mailKey m off) bs }

/-- Command codes (R378). -/
inductive MailCode where
  | version | attest | read | claim | release | assign | teardown | preempt | restore | window | keys | retire | migrate
  deriving DecidableEq, Repr

def mailCode (n : Nat) : Option MailCode :=
  match n with
  | 0x01 => some .version | 0x02 => some .attest | 0x03 => some .read | 0x04 => some .claim | 0x05 => some .release
  | 0x10 => some .assign | 0x11 => some .teardown | 0x12 => some .preempt | 0x13 => some .restore | 0x14 => some .window
  | 0x15 => some .keys | 0x16 => some .retire | 0x17 => some .migrate
  | _ => none

/-- Status codes (R378). -/
inductive Status where
  | ok | notOwner | owned | badCred | refused | scrubbing | aborted | committed | noRegion | migrationLost
  deriving DecidableEq, Repr

def Status.code : Status → Nat
  | .ok => 0 | .notOwner => 1 | .owned => 2 | .badCred => 3 | .refused => 4 | .scrubbing => 5 | .aborted => 6
  | .committed => 7 | .noRegion => 8 | .migrationLost => 9

def State.job (s : State) (m : BitVec 2) : Job := s.jobs[m.toNat]'m.isLt

/-- Sets what a mailbox's command waits for: it is no longer among those not yet served. -/
def State.setJob (s : State) (m : BitVec 2) (j : Job) : State :=
  { s with jobs := s.jobs.set m.toNat j m.isLt,
           office := { s.office with bells := s.office.bells.filter fun x => x != m } }

/-- Completes the command of a mailbox: the result block is written, then DOORBELL ← 0 (R377). -/
def State.answer (s : State) (m : BitVec 2) (st : Status) (data : List Byte) : State :=
  let s := s.mailWrite m 0x040 (toBytes 4 st.code ++ s.mailBytes m 0x004 4 ++ padTo 56 data)
  (s.mailWrite m 0xFF8 (toBytes 8 0)).setJob m .idle

/-- Whether a mailbox's command is being served, or is the next in arrival order (R351). -/
def State.itsTurn (s : State) (m : BitVec 2) : Bool := s.job m != .idle || s.office.bells.head? = some m

/-- Whether a master's host interface is up: masters 0 and 1 use interface 0, 2 and 3 interface 1 (R354, R358). -/
def State.hostUp (s : State) (m : BitVec 2) : Bool := s.office.open8 && !bit s.office.hostFailed (m.toNat / 2)

/-- Whether Yelk serves a mailbox: its interface is up, DOORBELL reads 1, and its command is the next. -/
def State.serves (s : State) (m : BitVec 2) : Bool := s.hostUp m && s.mail m 0xFF8 8 = 1 && s.itsTurn m

/-- The command that stands in a mailbox that Yelk serves. -/
def State.command (s : State) (m : BitVec 2) : Option MailCode :=
  if s.serves m then mailCode (s.mail m 0x000 2) else none

/-- Starts serving a command of a code whose argument bytes at an offset have a value: nothing happens when the
mailbox holds another command, or one that is being served. -/
def State.serving (s : State) (m : BitVec 2) (c : MailCode) (ok : Bool) (act : State) : Result :=
  .next (if s.command m = some c && ok && s.job m = .idle then act else s)

/-- A command of the owner alone (R351). -/
def State.asOwner (s : State) (m : BitVec 2) (act : State) : State :=
  if s.office.owner = some m then act else s.answer m .notOwner []

/-! ## VERSION (R358, R380) -/

/-- A version word with no feature (R358). -/
def versionWord (major minor lowest : Nat) : Word := BitVec.ofNat 64 (minor + major * 2 ^ 8 + lowest * 2 ^ 16)

/-- What two version words negotiate: the major and the features; none where negotiation fails (R358). -/
def negotiate (a b : Word) : Option (Nat × Word) :=
  let major := min (field a 8 8) (field b 8 8)
  if max (field a 16 8) (field b 16 8) ≤ major then some (major, BitVec.ofNat 64 (field (a &&& b) 24 40)) else none

/-- The five version words, in the order of R380. -/
def versionWords : List Word :=
  [versionWord 3 1 2, versionWord 2 0 2, versionWord 1 2 1, versionWord 4 0 3, versionWord 1 0 1]

/-- `VERSION` (R358, R380). -/
def execVersion (m : BitVec 2) (s : State) : Result :=
  s.serving m .version true (s.answer m .ok ((versionWords.map bytesOf).flatten))

/-! ## ATTEST (R321, R350) -/

/-- The 8-byte words of a physical range that hold a byte other than blank. -/
def State.wordsIn (s : State) (pa n : Nat) : List Nat :=
  ((s.mem.filter fun c => physKey pa ≤ c.1 && c.1 < physKey pa + n).map fun c => (c.1 - 2 ^ 64) / 8 * 8).eraseDups

/-- Whether an entry of a table, or of a table below it, names far memory; level 4 is PIDTAB (R309, R310). -/
def State.tableFar (s : State) (level pa n : Nat) : Bool :=
  match level with
  | 0 => (s.wordsIn pa n).any fun w =>
      match s.readSealed w with | .ok x => bit x 0 && bit x 1 && bit x 51 | .error _ => false
  | l + 1 => (s.wordsIn pa n).any fun w =>
      match s.readSealed w with
      | .ok x =>
        if !bit x 0 then false
        else if l = 3 then State.tableFar s l (field x 20 32 * 2 ^ 20) (2 ^ 20)
        else if bit x 1 then bit x 51
        else State.tableFar s l (field x 12 40 * 4096) 4096
      | .error _ => false

/-- The virtual address at which a table, or a table below it, maps a page; `va` is the first address that the table
covers, and level 4 is PIDTAB (R309, R310). -/
def State.vaIn (s : State) (page level pa n va : Nat) : Option Nat :=
  match level with
  | 0 => (s.wordsIn pa n).findSome? fun w =>
      match s.readSealed w with
      | .ok x => if bit x 0 && bit x 1 && field x 12 40 * 4096 = page then some (va + (w - pa) / 8 * 4096) else none
      | .error _ => none
  | l + 1 => (s.wordsIn pa n).findSome? fun w =>
      match s.readSealed w with
      | .ok x =>
        let here := va + (w - pa) / 8 * 2 ^ (21 + 9 * l)
        let base := field x 12 40 * 4096
        if !bit x 0 then none
        else if l = 3 then State.vaIn s page l (field x 20 32 * 2 ^ 20) (2 ^ 20) 0
        else if !bit x 1 then State.vaIn s page l base 4096 here
        else if base ≤ page && page < base + 2 ^ (21 + 9 * l) then some (here + (page - base))
        else none
      | .error _ => none

/-- The virtual address at which a range entry of a station maps a page (R311). -/
def Station.vaInRange (x : Station) (page : Nat) : Option Nat :=
  (upFrom 0 64).findSome? fun i =>
    let base := field (x.range.get 0 (4 * i + 1)) 12 44
    let first := field (x.range.get 0 (4 * i + 3)) 12 40
    if bit (x.range.get 0 (4 * i)) 0 && first ≤ page / 4096 && page / 4096 ≤ first + (field (x.range.get 0 (4 * i + 2)) 12 44 - base)
    then some ((base + (page / 4096 - first)) * 4096) else none

/-- The virtual address at which a region maps a page: by a range entry or by the tables of one of its stations, as an
address of edge memory (R72, R312). -/
def State.virtualOf (s : State) (r page : Nat) : Option Word :=
  ((s.region r).bulks.filter s.hasStation).findSome? fun b =>
    (((s.station b).vaInRange page).or (s.vaIn page 4 (field (s.station b).pidtab 0 52) (2 ^ 19) 0)).map fun va =>
      place 63 1 + BitVec.ofNat 64 va

/-- Whether a mapping of a region names far memory: a range entry or a leaf of its tables (R321). -/
def State.farMapped (s : State) (r : Nat) : Bool :=
  (s.bulksOf r).any fun b =>
    s.hasStation b &&
      (let x := s.station b
       s.tableFar 4 (field x.pidtab 0 52) (2 ^ 19)
         || (upFrom 0 64).any fun i =>
              let pages := field (x.range.get 0 (4 * i + 2)) 12 44 - field (x.range.get 0 (4 * i + 1)) 12 44
              bit (x.range.get 0 (4 * i)) 0 && 2 ^ 39 ≤ field (x.range.get 0 (4 * i + 3)) 12 40 + pages)

/-- A valid window names a region (R296, R350). -/
def State.windowNames (s : State) (r : Nat) : Bool :=
  (upFrom 0 80).any fun b => (upFrom 0 32).any fun i =>
    let w := (s.bulk b).windows.get 0 (4 * i)
    bit w 31 && (field w 0 6 = r || field w 8 6 = r)

/-- Live key slots of a region: a zeroised slot is not live (R320). -/
def State.slotsOf (s : State) (r : Nat) : List Nat :=
  (s.keys.filter fun (k : Nat × KeySlot) => k.2.region = r && k.2.token != 0).map (·.1)

/-- The 16-byte bitmap of a list of bulkheads (R350). -/
def bulkBitmap (bs : List BulkId) : List Byte := toBytes 16 ((bs.map fun b => 2 ^ b).sum)

/-- Bytes 0 to 447 of an attestation report (R350). -/
def State.reportBytes (s : State) (r : Nat) (nonce : List Byte) : List Byte :=
  let x := s.region r
  let o := s.office
  bytesOf (versionWord 1 0 1) ++ padTo 16 o.device ++ toBytes 4 s.mapgen.toNat ++ toBytes 1 r
    ++ toBytes 1 (num x.mutcode + 2 * num (s.farMapped r) + 4 * num x.debugged + 8 * num (s.windowNames r))
    ++ toBytes 2 (s.slotsOf r).length ++ bulkBitmap x.bulks ++ padTo 32 nonce
    ++ padTo 64 o.mYelk ++ padTo 64 o.mDean ++ padTo 64 x.mImage ++ padTo 64 x.mCode
    ++ toBytes 112 0

/-- The device key (R350), by its serial number among the signing keys. -/
def deviceKey : Nat := 1

/-- The 512-byte report: signed with the device key (R350). -/
def State.report (s : State) (r : Nat) (nonce : List Byte) : List Byte :=
  let b := s.reportBytes r nonce
  b ++ padTo 64 (Config.ed25519Sign deviceKey b)

/-- `ATTEST` (R350, R380). -/
def execAttest (m : BitVec 2) (s : State) : Result :=
  let r := s.mail m 0x008 1
  s.serving m .attest true
    (if (s.regions.find? r).isNone then s.answer m .noRegion []
     else (s.mailWrite m 0x200 (s.report r (s.mailBytes m 0x100 32))).answer m .ok (toBytes 2 512))

/-! ## READ (R394) -/

def State.selector (s : State) (m : BitVec 2) : Nat := s.mail m 0x008 2
def State.readArg (s : State) (m : BitVec 2) : Nat := s.mail m 0x00A 2

def State.scrubRec (s : State) (r : Nat) : ScrubRec := s.scrubs.get ScrubRec.reset r
def State.onScrub (s : State) (r : Nat) (f : ScrubRec → ScrubRec) : State := { s with scrubs := s.scrubs.put r (f (s.scrubRec r)) }

/-- The scrub word (R384). -/
def ScrubRec.word (x : ScrubRec) (r : Nat) : Word :=
  if x.phase = 0 then 0
  else BitVec.ofNat 64 (x.blocks.toNat + x.total.toNat * 2 ^ 16 + x.phase.toNat * 2 ^ 32 + x.restarts.toNat * 2 ^ 36 + r * 2 ^ 40)

/-- `READ_SCRUB_RECORD` (R379, R384, R394). -/
def execReadScrubRecord (m : BitVec 2) (s : State) : Result :=
  let r := s.readArg m
  s.serving m .read (s.selector m = 1)
    (if r = 0 || 32 < r then s.answer m .refused []
     else if (s.regions.find? r).isNone && (s.scrubs.find? r).isNone then s.answer m .noRegion []
     else s.answer m .ok (bytesOf ((s.scrubRec r).word r)))


/-- `READ_BULKHEAD_RECORD` (R394, R395). -/
def execReadBulkheadRecord (m : BitVec 2) (s : State) : Result :=
  s.serving m .read (s.selector m = 2)
    (if 80 ≤ s.readArg m then s.answer m .refused [] else s.answer m .ok (s.powerOf (s.readArg m)).record)

/-- `READ_MODULE_RECORD` (R394, R396). -/
def execReadModuleRecord (m : BitVec 2) (s : State) : Result :=
  s.serving m .read (s.selector m = 3) (s.answer m .ok s.office.record)

/-- `READ_RETIREMENT_ENTRY` (R392, R394). -/
def execReadRetirementEntry (m : BitVec 2) (s : State) : Result :=
  s.serving m .read (s.selector m = 4)
    (match s.office.log[s.readArg m]? with
     | none => s.answer m .refused []
     | some e => s.answer m .ok (bytesOf e.1 ++ bytesOf e.2 ++ toBytes 4 s.office.log.length))

/-- `READ_LATENCY_HEADER` (R357, R394). -/
def execReadLatencyHeader (m : BitVec 2) (s : State) : Result :=
  s.serving m .read (s.selector m = 5) (s.answer m .ok (s.mem.readN (hallKey 0 0x2000000) 12))

/-- The edge bulkheads in ascending id (R4, R357). -/
def edgeBulks : List BulkId := (upFrom 0 80).filter isEdgeBulk

/-- The time from a tile to the i-th station, as the latency matrix has it (R357). -/
def State.latency (s : State) (t : TileName) (i : Nat) : Nat :=
  ofBytes (s.mem.readN (hallKey 0 (0x2001000 + 2 * (32 * (1920 * t.ret + 16 * t.blk + t.core) + i))) 2)

/-- The time from a tile to the station of an edge bulkhead. -/
def State.latencyTo (s : State) (t : TileName) (b : BulkId) : Nat := s.latency t (edgeBulks.idxOf b)

/-- The tiles of a bulkhead. -/
def State.tilesIn (s : State) (b : BulkId) : List TileName :=
  ((upFrom 0 120).map fun k => (upFrom 0 (s.coresIn b k)).map fun c => TileName.mk b k c).flatten

/-- The station of a list that is nearest to a tile, the lower id on a tie (R290). -/
def State.nearestStation (s : State) (bs : List BulkId) (t : TileName) : Option BulkId :=
  leastBulk s.hasStation (s.latencyTo t) bs none

/-- The largest nearest-station time among the tiles of a region (R394). -/
def State.worstTime (s : State) (bs : List BulkId) : Nat :=
  ((bs.map s.tilesIn).flatten.map fun t => match s.nearestStation bs t with | some b => s.latencyTo t b | none => 0).foldl max 0

/-- `READ_REGION_INFO` (R394). -/
def execReadRegionInfo (m : BitVec 2) (s : State) : Result :=
  let r := s.readArg m
  s.serving m .read (s.selector m = 6)
    (if r = 0 || 32 < r then s.answer m .refused []
     else match s.regions.find? r with
       | none => s.answer m .noRegion []
       | some x => s.answer m .ok (bulkBitmap x.bulks ++ toBytes 4 ((x.bulks.map s.tilesIn).flatten.length)
           ++ toBytes 2 (s.worstTime x.bulks)))

/-- A master's current challenge (R352). -/
def State.challenge (s : State) (m : BitVec 2) : List Byte := padTo 32 (Config.identity (s.office.challenges[m.toNat]'m.isLt))

/-- The owner's master number, or 0xFF. -/
def State.ownerByte (s : State) : Byte := match s.office.owner with | some m => m.zeroExtend 8 | none => 0xFF

/-- `READ_CHALLENGE` (R352, R394). -/
def execReadChallenge (m : BitVec 2) (s : State) : Result :=
  s.serving m .read (s.selector m = 7) (s.answer m .ok (s.challenge m ++ [s.ownerByte]))

/-! ## CLAIM and RELEASE (R352, R353, R380) -/

/-- Yelk gives a master a new challenge (R352, R380). -/
def State.newChallenge (s : State) (m : BitVec 2) : State :=
  { s.bump with office := { s.office with challenges := s.office.challenges.set m.toNat s.serial m.isLt } }

/-- Whether the CLAIM in a mailbox verifies (R352). -/
def State.claimValid (s : State) (m : BitVec 2) : Bool :=
  let key := s.mailBytes m 0x100 32
  s.office.credentials.contains (Config.sha512 key)
    && Config.ed25519Verify key (s.challenge m ++ [m.zeroExtend 8]) (s.mailBytes m 0x120 64)

/-- `CLAIM` (R352, R353, R380). After a RELEASE that names a successor, the CLAIM of another master is refused. -/
def execClaim (m : BitVec 2) (s : State) : Result :=
  let done (s : State) (st : Status) : State := (s.newChallenge m).answer m st [s.ownerByte]
  s.serving m .claim true
    (if s.office.owner.isSome then done s .owned
     else if !s.claimValid m then done s .badCred
     else if (match s.office.successor with | some x => x != m | none => false) then done s .refused
     else done { s with office := { s.office with owner := some m, successor := none, ownerKey := s.mailBytes m 0x100 32 } } .ok)

/-- `RELEASE` (R353, R380). -/
def execRelease (m : BitVec 2) (s : State) : Result :=
  let n := s.mail m 0x008 1
  s.serving m .release true ((if s.office.owner = some m then s else s.newChallenge m).asOwner m
    (if 4 ≤ n && n != 0xFF then (s.newChallenge m).answer m .refused []
     else if !Config.ed25519Verify s.office.ownerKey (s.challenge m ++ [BitVec.ofNat 8 n]) (s.mailBytes m 0x120 64) then
       (s.newChallenge m).answer m .badCred []
     else
       ({ s with office := { s.office with owner := none, ownerKey := [],
                                           successor := if n = 0xFF then none else some (BitVec.ofNat 2 n) } }.newChallenge
          m).answer m .ok []))

/-! ## RETIRE (R391, R392) -/

/-- The fields of a retirement entry's dword 0 that R392 names, appended by a RETIRE. -/
def retireOf (v : Word) : Word :=
  retireWord (field v 0 2) 1 (field v 8 7) (if field v 0 2 = 3 then 0 else field v 16 7)
    (if field v 0 2 = 1 then field v 24 4 else 0)

/-- Whether RETIRE refuses an entry (R391). -/
def State.retireRefused (s : State) (v : Word) : Bool :=
  let kind := field v 0 2
  kind = 0 || 80 ≤ field v 8 7 || (kind != 3 && !isBlockSite (field v 16 7)) || 4032 ≤ s.office.log.length

/-- `RETIRE` (R391). -/
def execRetire (m : BitVec 2) (s : State) : Result :=
  let v : Word := BitVec.ofNat 64 (s.mail m 0x008 8)
  let done (s : State) (i : Nat) : State := s.answer m .ok (toBytes 2 i ++ toBytes 2 s.office.log.length)
  s.serving m .retire true (s.asOwner m
    (if s.retireRefused v then s.answer m .refused []
     else match s.office.log.findIdx? fun e => sameUnit e.1 (retireOf v) with
       | some i => done s i
       | none =>
         done { s with office := { s.office with log := s.office.log ++ [(retireOf v, zext s.mapgen)] } } s.office.log.length))

end Sys2Proof.Machine
end

