-- ==== Sys2Proof/Machine/Resets.lean ====
section
/-! DEFINITION. Gates that close, resets of bulkheads and regions, and failures (R17, R43, R292, R298 to R300, R342,
R382, R385). -/

namespace Sys2Proof.Machine

/-! ## Gates that enter CLOSED (R292, R299) -/

/-- The bulkheads whose routers hold a flit of a packet. -/
def State.bulksHolding (s : State) (p : Nat) : List BulkId :=
  (s.routers.filter fun r => r.2.ins.any fun b => (b.2.flits ++ b.2.behind).any fun f => f.pkt = p).map fun r => r.1 / 4096

/-- Whether a packet is cut by gates that close: its header has passed one, and its tail has not (R292). -/
def State.cut (s : State) (bs : List BulkId) (p : Nat) (k : Packet) : Bool :=
  let at' := s.bulksHolding p ++ (if k.got = 0 then [] else [k.dst / 4096])
  k.stamp != 63 && k.place = .moving && at'.any (fun b => bs.contains b) && at'.any fun b => at'.head? != some b

/-- Whether an answer has passed back through the gate of its window: no bulkhead of another region holds a flit of
it. -/
def State.passedBack (s : State) (p : Nat) (k : Packet) : Bool :=
  k.place != .moving || (s.bulksHolding p).all fun b => s.regionOf b = k.stamp

/-- The windowed requests that are not acknowledged: each as its window, the bulkheads of its two ends, and its number
(R297, R299). -/
def State.windowedOpen (s : State) : List (Nat × BulkId × BulkId × Nat) :=
  (s.packets.filterMap fun p =>
    match p.2.windowed, p.2.body with
    | some w, .req r | some w, .treq r _ _ _ => some (w, r.who.origin.node / 4096, p.2.dst / 4096, r.who.rid)
    | some w, .reply r _ => if s.passedBack p.1 p.2 then none else some (w, r.who.origin.node / 4096, p.2.src / 4096, r.who.rid)
    | some w, .wake who _ => if s.passedBack p.1 p.2 then none else some (w, who.origin.node / 4096, p.2.src / 4096, who.rid)
    | _, _ => none)
  ++ s.watches.filterMap fun x =>
    match x.windowed, x.kind with
    | some w, .wake who => some (w, who.origin.node / 4096, homeBulk x.home, who.rid)
    | _, _ => none

/-- The numbers of the windowed requests, not acknowledged, whose window or an end of which lies in one of the
bulkheads. -/
def State.windowedAt (s : State) (bs : List BulkId) : List Nat :=
  (s.windowedOpen.filter fun x => bs.contains (x.1 / 32) || bs.contains x.2.1 || bs.contains x.2.2.1).map (·.2.2.2)

/-- The refusal that a closing gate sends for a windowed request: it stands on the requester's side of the gate
(R299). -/
def State.sendRefusal (s : State) (r : Req) : State :=
  let node := r.who.origin.node
  s.inject node node 1 1 (s.wakeStamp r.who) r.lc (.reply r (.gate r.addr))

/-- The counter of an agent's waiting `CWAIT` or `CWAITT`, from the instruction's word. -/
def State.waitedOn (s : State) (who : Ticket) : Word :=
  match s.holder who.origin, decodeWord (BitVec.ofNat 32 who.iw.toNat) with
  | some ag, .ok (.cwait a _) | some ag, .ok (.cwaitt _ a _) => (s.ctxOf ag).get a
  | _, _ => 0

/-- The request of a wait whose watch or wake stands behind a closing gate. -/
def waitReq (who : Ticket) (addr : Word) : Req :=
  { acc := .cwait 0, addr := addr, who := who, also := [], pid := 0, hLevel := false, dest := none, counted := false, lc := false }

/-- A gate that closes answers a windowed request that is not acknowledged (R299): the request goes, or its answer is
replaced by the refusal. -/
def State.refuseWindowed (s : State) (p : Nat) (k : Packet) : State :=
  match k.body with
  | .req r | .treq r _ _ _ | .reply r _ => (s.purgePacket p).sendRefusal r
  | .wake who _ => (s.purgePacket p).sendRefusal (waitReq who (s.waitedOn who))
  | _ => s

/-- A wait whose watch stands behind a closing gate: it takes `GATE` (R299). -/
def State.refuseWatch (s : State) (w : Watch) : State :=
  match w.kind with
  | .wake who => (s.freeWatch w.id).sendRefusal (waitReq who w.addr)
  | .msg _ _ _ => s

/-- Whether a watch is that of a windowed wait with one of the numbers. -/
def Watch.among (w : Watch) (rids : List Nat) : Bool :=
  w.windowed.isSome && (match w.kind with | .wake who => rids.contains who.rid | .msg _ _ _ => false)

/-- Whether a packet is a windowed request, or the answer to one, with one of the numbers. -/
def Packet.among (k : Packet) (rids : List Nat) : Bool :=
  k.windowed.isSome && (match k.body with
    | .req r | .treq r _ _ _ | .reply r _ => rids.contains r.who.rid
    | .wake who _ => rids.contains who.rid
    | _ => false)

/-- The gates of a list of bulkheads enter CLOSED (R292, R299). What they refuse as they close is neither
counted in GATELOG nor in GATEADDR: the model's choice (log entry 134). -/
def State.closeGates (s : State) (bs : List BulkId) : State :=
  let s := s.setGates bs 0
  let s := s.packets.foldl (fun s' p => if s.cut bs p.1 p.2 then s'.purgePacket p.1 else s') s
  let rids := s.windowedAt bs
  let s := s.packets.foldl (fun s' p => if p.2.among rids then s'.refuseWindowed p.1 p.2 else s') s
  (s.watches.filter (·.among rids)).foldl State.refuseWatch s

/-! ## Tile reset and bulkhead reset (R17, R43, R298) -/

/-- A tile after tile reset: PID is kept, and so are the locks of its code, whose bytes tile scratch keeps. -/
def Tile.reset' (x : Tile) : Tile := { Tile.reset with pid := x.pid, code := x.code }

/-- A core after its bulkhead's reset: one at level G stops; one at level H goes on, and one that a fetch trap at
HVENTRY has halted starts there again (R298, R302). -/
def PCore.reset' (x : PCore) : PCore :=
  if !x.h then { x with running := false, home := none, ctx := Ctx.reset }
  else if x.running || x.pcause = 0 then x
  else { x with running := true, ctx := { x.ctx with pc := x.hventry &&& ~~~1#64, wait := .none } }

/-- The fields of an island that its bulkhead's reset sets (R298, R302, R342): the invigilator's, and the cores'; PTIMER
counts from it (R305). -/
def Island.reset' (x : Island) : Island :=
  { x with invctl := Island.reset.invctl, stalled := false, idle := 0, arbcfg := Island.reset.arbcfg, calls := [], starts := [],
           cores := x.cores.map PCore.reset', ptimer := 0 }

/-- A station after its bulkhead's reset: queued requests and cached translations are discarded, and its numbers start
again at 1 (R298, R331). -/
def Station.reset' (x : Station) : Station := { x with cache := [], nextXid := 1, invBusy := false, invWaits := [] }

/-- Whether a packet is lost when a bulkhead resets: its routers hold a flit of it, or it stands at one of the
bulkhead's tiles, controllers or stations. -/
def State.lostAt (s : State) (b : BulkId) (p : Nat) (k : Packet) : Bool :=
  (s.bulksHolding p).contains b || (k.place != .moving && k.dst / 4096 = b)

/-- A scrub record in PHASE 3 when one of its bulkheads, at a value of TIMER, is reset: step 3 is to start again; once
it has ended, the cycles of the bulkhead since then stay counted (R301, R385, R403). -/
def ScrubRec.afterReset (x : ScrubRec) (b : BulkId) (timer : Word) : ScrubRec :=
  if x.doneAt.isEmpty then { x with broken := some b } else { x with doneAt := x.doneAt.put b (x.doneAt.get 0 b - timer) }

/-- The reset line of a bulkhead is pulsed (R17, R43, R298, R305, R385). -/
def State.pulse (s : State) (b : BulkId) : State :=
  let timer := (s.bulk b).timer
  let ts := (s.tiles.filter fun (x : Nat × Tile) => TileName.ret x.1 = b).map (·.1)
  let s := ts.foldl (fun s t => (s.resetFabric t).onTile t Tile.reset') s
  let s := s.packets.foldl (fun s' p => if s.lostAt b p.1 p.2 then s'.purgePacket p.1 else s') s
  let s := { s with routers := s.routers.filter fun r => r.1 / 4096 != b,
                    lanes := s.lanes.filter fun l => TileName.ret l.2.src != b && TileName.ret l.2.dst != b,
                    watches := s.watches.filter fun w => homeBulk w.home != b,
                    wires := s.wires.filter fun w => w.1 / 128 != b, blank := s.blank.filter (· != b),
                    groups := (s.groups.map fun (g : Nat × List TileName) =>
                        (g.1, g.2.filter fun (t : TileName) => TileName.ret t != b)).filter fun g => !g.2.isEmpty,
                    progress := s.progress.del (s.regionOf b) }
  let s := (s.onIsland b Island.reset').onStation b Station.reset'
  let s := (s.onBulk b fun x => { x with timer := 0, gate := 0 }).onPower b fun x => { x with clkn := 64 }
  let r := s.regionOf b
  if (s.scrubRec r).phase = 3 && (s.scrubRec r).bulks.contains b then s.onScrub r fun x => x.afterReset b timer else s

/-- `BULKHEAD_RESET` (R298, R385): a bulkhead's reset line is pulsed. -/
def execBulkheadReset (b : BulkId) (s : State) : Result :=
  .next (if 80 ≤ b then s else (s.closeGates [b]).pulse b)

/-- `SINGLE_REGION_RESET` (R298). -/
def execSingleRegionReset (r : Nat) (s : State) : Result :=
  let bs := s.bulksOf r
  .next (if r = 0 || bs.isEmpty || !(bs.all fun b => (s.bulk b).st = .live) then s
    else (bs.foldl State.pulse (s.closeGates bs)).setGates bs 1)

/-! ## Failures (R300) -/

/-- `BULKHEAD_FAILURE` (R300): the rail, clock or reset of a bulkhead fails: the region that owns it is frozen, and
windows into it are refused. -/
def execBulkheadFailure (b : BulkId) (s : State) : Result :=
  .next (if 80 ≤ b then s
    else
      let s1 := s.onBulk b fun x => { x with failed := true, rail := true }
      (if s.regionOf b = 0 then s1 else s1.freeze (s.regionOf b)).closeGates [b])

/-- `EDGE_MODULE_FAILURE` (R300): an edge memory module or its station fails: the station serves no request any more. -/
def execEdgeModuleFailure (b : BulkId) (s : State) : Result :=
  .next (if isEdgeBulk b then s.onBulk b fun x => { x with memFailed := true } else s)

end Sys2Proof.Machine
end

