-- ==== Sys2Proof/Machine/Registrar.lean ====
section
/-! DEFINITION. Regions: assignment, routes and stations, teardown and scrub, keys, windows (R286 to R297, R301, R320,
R335, R348, R379 to R386, R389, R403). -/

namespace Sys2Proof.Machine

/-! ## Sets of bulkheads (R4, R288) -/

/-- The neighbours of a bulkhead within a set, in the order E, W, N, S. -/
def neighboursIn (bs : List BulkId) (b : BulkId) : List (Nat × BulkId) :=
  [1, 3, 0, 2].filterMap fun d =>
    match bulkBeyond b d with
    | some c => if bs.contains c then some (d, c) else none
    | none => none

/-- One step of a flood through a set. -/
def floodStep (bs seen : List BulkId) : List BulkId :=
  bs.filter fun b => seen.contains b || (neighboursIn bs b).any fun n => seen.contains n.2

/-- A flood of n steps from a bulkhead. -/
def flood (bs : List BulkId) (b : BulkId) : Nat → List BulkId
  | 0 => [b]
  | n + 1 => floodStep bs (flood bs b n)

/-- Whether a set is 4-connected through shared edges (R288). -/
def connected (bs : List BulkId) : Bool :=
  match bs with
  | [] => false
  | b :: _ => bs.all fun c => (flood bs b bs.length).contains c

/-- Bulkhead steps between two members of a set, through the set; the set's size when there is no way. -/
def stepsWithin (bs : List BulkId) (a b : BulkId) : Nat :=
  ((upFrom 0 bs.length).find? fun n => (flood bs a n).contains b).getD bs.length

/-! ## Routes and stations (R290) -/

/-- The first move of the route from one member of a region to another: the first of east, west, north and south
that begins a shortest path inside the region. -/
def routeMove (bs : List BulkId) (a b : BulkId) : Option Nat :=
  ((neighboursIn bs a).find? fun n => stepsWithin bs n.2 b + 1 = stepsWithin bs a b).map (·.1)

/-- The route tables of a region's gateway routers are rewritten. -/
def State.setRoutes (s : State) (bs : List BulkId) : State :=
  bs.foldl (fun s a => bs.foldl (fun s b =>
    if a = b then s
    else match routeMove bs a b with
      | some d => { s with routes := s.routes.put (80 * a + b) d }
      | none => s) s) s

/-- The station of an island of a region: its own bulkhead's, or the nearest present one through the region (R290). -/
def State.islandStation (s : State) (bs : List BulkId) (b : BulkId) : Option BulkId :=
  if s.hasStation b then some b else leastBulk s.hasStation (stepsWithin bs b) bs none

/-- Each tile and each island of a region is assigned a station (R290). -/
def State.setStations (s : State) (bs : List BulkId) : State :=
  bs.foldl (fun s b =>
    let s := match s.islandStation bs b with
      | some st => { s with stationOf := s.stationOf.put (2 ^ 20 + b) st }
      | none => s
    (s.tilesIn b).foldl (fun s t => match s.nearestStation bs t with
      | some st => { s with stationOf := s.stationOf.put t st }
      | none => s) s) s

/-! ## Windows (R296, R297) -/

def State.window (s : State) (b : BulkId) (g i w : Nat) : Word := (s.bulk b).windows.get 0 (32 * g + 4 * i + w)
def State.setWindow (s : State) (b : BulkId) (g i w : Nat) (v : Word) : State :=
  s.onBulk b fun x => { x with windows := x.windows.put (32 * g + 4 * i + w) v }

/-- Clears V of the window entries of every gate that meet a condition on bulkhead, gate and dword 0. -/
def State.dropWindows (s : State) (hit : BulkId → Nat → Word → Bool) : State :=
  (upFrom 0 80).foldl (fun s b => (upFrom 0 32).foldl (fun s j =>
    let w := s.window b (j / 8) (j % 8) 0
    if bit w 31 && hit b (j / 8) w then s.setWindow b (j / 8) (j % 8) 0 (w &&& ~~~(place 31 1)) else s) s) s

/-! ## ASSIGN (R288 to R291, R348, R379, R386, R389) -/

/-- The bulkheads of a 16-byte bitmap. -/
def bulksOfBitmap (n : Nat) : List BulkId := (upFrom 0 128).filter fun b => n / 2 ^ b % 2 = 1

/-- The lowest free region id: no region holds it, and no teardown of it is unfinished. -/
def State.freeRegion (s : State) : Option Nat :=
  (upFrom 1 32).find? fun r => (s.regions.find? r).isNone && ((s.scrubRec r).phase = 0 || (s.scrubRec r).phase = 4)

/-- Whether a migration that is being prepared has reserved a key slot (R365). -/
def State.slotReserved (s : State) (k : Nat) : Bool := s.migs.any fun m => !m.source && m.stage = 0 && m.slots.contains k

/-- The lowest free key slots from 1 to 127. -/
def State.freeSlots (s : State) : List Nat := (upFrom 1 127).filter fun k => (s.keys.find? k).isNone && !s.slotReserved k

/-- Whether a migration that arrives has reserved a bulkhead (R365). -/
def State.reserved (s : State) (b : BulkId) : Bool :=
  s.migs.any fun m => !m.source && m.stage < 2 && (s.region m.region).bulks.contains b

/-- A set of bulkheads that R288 and R389 admit, its scrub aside. -/
def State.assignable (s : State) (bs : List BulkId) : Bool :=
  (bs.all fun b => b < 80 && !s.reserved b && (s.bulk b).st != .live && (s.bulk b).st != .frozen && !(s.bulk b).retired)
    && connected bs && bs.any s.hasStation

/-- Yelk generates a key for a slot of a region, and the slot becomes LIVE under a KSEL (R307, R320). -/
def State.liveSlot (s : State) (r ksel slot : Nat) : State :=
  { s.bump with keys := s.keys.put slot { token := s.serial, region := r }, ksel := s.ksel.put (8 * r + ksel) slot }

/-- A bulkhead is assigned to a region (R289, R291): EPOCH rises, and its gates take a mode. -/
def Bulk.assign (x : Bulk) (r key : Nat) (mutcode : Bool) (gate : BitVec 2) : Bulk :=
  { x with st := .live, region := BitVec.ofNat 6 r, key := BitVec.ofNat 7 key, mutcode := mutcode, scrub := false,
           epoch := x.epoch + 1, gate := gate }

/-- The bulkheads of a region are assigned, with their routes and stations; windows of earlier assignments end
(R289 to R291, R297). -/
def State.assignBulks (s : State) (bs : List BulkId) (r key : Nat) (mutcode : Bool) (gate : BitVec 2) : State :=
  let s := bs.foldl (fun s b => s.onBulk b (·.assign r key mutcode gate)) s
  let s := s.dropWindows fun b g _ => bs.contains b || (match bulkBeyond b g with | some c => bs.contains c | none => false)
  (s.setRoutes bs).setStations bs

/-- `ASSIGN` (R288, R379, R386). -/
def execAssign (m : BitVec 2) (s : State) : Result :=
  let bs := bulksOfBitmap (s.mail m 0x008 16)
  let n := s.mail m 0x018 1
  let mutcode := s.mail m 0x019 1 % 2 = 1
  let slots := s.freeSlots.take n
  s.serving m .assign true (s.asOwner m
    (match s.freeRegion with
     | none => s.answer m .refused []
     | some r =>
       if !s.assignable bs || n = 0 || 8 < n || slots.length < n then s.answer m .refused []
       else if bs.any fun b => (s.bulk b).st = .scrubbing then s.answer m .scrubbing []
       else
         let s1 := ((upFrom 0 n).zip slots).foldl (fun s k => s.liveSlot r k.1 k.2) s
         let s2 := (s1.assignBulks bs r (slots.headD 0) mutcode 1)
         ({ s2 with scrubs := s2.scrubs.del r }.onRegion r fun _ =>
           { Region.reset with bulks := bs, mutcode := mutcode, pub := s.mailBytes m 0x100 32, mImage := toBytes 64 0,
                               mCode := toBytes 64 0 }).answer m .ok
           (toBytes 1 r ++ padTo 8 (slots.map fun k => BitVec.ofNat 8 k))))

/-! ## TEARDOWN (R301, R382, R384, R403) -/

/-- Usable blocks of a bulkhead, in ascending site order (R383). -/
def State.usableBlocks (s : State) (b : BulkId) : List Nat := (upFrom 0 120).filter fun k => s.coresIn b k != 0

/-- The bulkheads enter SCRUBBING with their gates CLOSED and OWNER.SCRUB set. -/
def State.enterScrub (s : State) (bs : List BulkId) : State :=
  bs.foldl (fun s b => s.onBulk b fun x => { x with st := .scrubbing, scrub := true }) (s.closeGates bs)

/-- A new scrub record of a region (R384). -/
def State.newScrub (s : State) (r phase : Nat) (bs : List BulkId) : State :=
  s.onScrub r fun _ =>
    { ScrubRec.reset with phase := BitVec.ofNat 4 phase, bulks := bs,
                          total := BitVec.ofNat 16 ((bs.map fun b => (s.usableBlocks b).length).sum),
                          since := bs.foldl (fun m b => m.put b (s.bulk b).timer) [] }

/-- The windows whose SRC or TGT is a region lose V, in every gate of the wafer (R382). -/
def State.dropRegionWindows (s : State) (r : Nat) : State := s.dropWindows fun _ _ w => field w 0 6 = r || field w 8 6 = r

/-- The first three actions of R382, and the return of the region's host queues to the Dean (R306). -/
def State.startTeardown (s : State) (r : Nat) : State :=
  let bs := s.bulksOf r
  let s := (s.enterScrub bs).dropRegionWindows r
  let s := bs.foldl State.pulse s
  { s.newScrub r 1 bs with
    hostQueues := s.hostQueues.map fun (q : Nat × HostQueue) => if q.2.owner = r then (q.1, { q.2 with owner := 64 }) else q }

/-- `TEARDOWN` (R301 step 1, R379, R382). -/
def execTeardown (m : BitVec 2) (s : State) : Result :=
  let r := s.mail m 0x008 1
  let phase := (s.scrubRec r).phase
  s.serving m .teardown true (s.asOwner m
    (if phase != 0 && phase != 4 then s.answer m .scrubbing []
     else if (s.regions.find? r).isNone then s.answer m .noRegion []
     else (s.startTeardown r).setJob m (.teardown r)))

/-- Whether the stations of a region hold a request of the region (R301 step 1). -/
def State.stationsHold (s : State) (r : Nat) (bs : List BulkId) : Bool :=
  s.packets.any fun p => p.2.atStation && p.2.stamp = r && bs.contains (p.2.dst / 4096)

/-- `TEARDOWN_DRAINED` (R301 step 2, R382): the region's stations hold no request of it, and its key slots are
zeroised. -/
def execTeardownDrained (r : Nat) (s : State) : Result :=
  let x := s.scrubRec r
  .next (if x.phase != 1 || s.stationsHold r x.bulks then s
    else { s with keys := s.keys.map fun (k : Nat × KeySlot) => if k.2.region = r then (k.1, { k.2 with token := 0 }) else k }.onScrub r
      fun x => { x with phase := 2 })

/-- The slots of a region become FREE, and its key list ends (R301, R320). -/
def State.freeKeys (s : State) (r : Nat) : State :=
  { s with keys := s.keys.filter fun (k : Nat × KeySlot) => k.2.region != r,
           ksel := s.ksel.filter fun (k : Nat × Nat) => k.1 / 8 != r }

/-- The mailboxes whose command waits for a job are answered. -/
def State.answerJobs (s : State) (j : Job) (st : Status) (data : List Byte) : State :=
  ([0, 1, 2, 3] : List (BitVec 2)).foldl (fun s m => if s.job m = j then s.answer m st data else s) s

/-- `KEY_ZEROISE_DONE` (R301 steps 2 and 3, R379): the slots are FREE, the stations hold no translation of the
region, TEARDOWN completes, and the scrub starts. A released region has no bulkhead left to scrub. -/
def execKeyZeroiseDone (r : Nat) (s : State) : Result :=
  let x := s.scrubRec r
  .next (if x.phase != 2 then s
    else
      let s1 := x.bulks.foldl (fun s b => s.onStation b fun y => { y with cache := [], range := [] }) (s.freeKeys r)
      let s2 := { s1 with regions := s1.regions.del r }.onScrub r fun y =>
        { y with phase := if x.bulks.isEmpty then 4 else 3,
                 since := x.bulks.foldl (fun m b => m.put b (s.bulk b).timer) [] }
      s2.answerJobs (.teardown r) .ok [])

/-! ## The scrub (R301 step 3, R383 to R385, R403) -/

/-- Cycles since a milestone of a bulkhead. -/
def State.sinceMilestone (s : State) (m : Sparse Word) (b : BulkId) : Nat := ((s.bulk b).timer - m.get 0 b).toNat

/-- Forgets the errors of a range of keys, whose words are written with correct ECC. -/
def State.eccWrite (s : State) (lo hi : Nat) : State := { s with ecc := s.ecc.filter fun e => 8 * e.1 < lo || hi ≤ 8 * e.1 }

/-- Clears a range of keys. -/
def State.clearKeys (s : State) (lo hi : Nat) : State := { s with mem := s.mem.clear lo hi }.eccWrite lo hi

/-- Clears the hall scratch of a bulkhead, its island cache and its cores' caches; in bulkhead 0 the latency matrix
stays (R357, R383). -/
def State.clearHall (s : State) (b : BulkId) : State :=
  ((s.clearKeys (hallKey b 0) (hallKey b (if b = 0 then 0x2000000 else 0x3000000))).eccWrite (islandKey b 0)
      (islandKey (b + 1) 0)).onIsland b fun x =>
    { x with cache := [], cores := x.cores.map fun c => { c with icache := [], dcache := [] } }

/-- A tile as the scrub leaves it: its fabric holds zeros, everything else but PID stands at its reset value (R383). -/
def Tile.scrubbed (x : Tile) : Tile := { Tile.blank with pid := x.pid }

/-- Clears a block: the tile scratch and the state of its tiles, and its block scratch (R383). -/
def State.clearBlock (s : State) (b k : Nat) : State :=
  let s := (upFrom 0 (s.coresIn b k)).foldl (fun s c =>
    let t := TileName.mk b k c
    ((s.resetFabric t).onTile t Tile.scrubbed).clearKeys (scratchKey t 0) (scratchKey t 0x1000000)) s
  s.clearKeys (blockKey b k 0) (blockKey b k 0x100000)

/-- The usable block of a bulkhead that a scrub clears next. -/
def State.nextBlock (s : State) (x : ScrubRec) (b : BulkId) : Option Nat :=
  let n := x.prog.get 0 b
  if n = 0 then none else (s.usableBlocks b).find? fun k => n ≤ k + 1

/-- Whether a bulkhead has cleared its last block. -/
def State.scrubEnded (s : State) (x : ScrubRec) (b : BulkId) : Bool := x.prog.get 0 b != 0 && (s.nextBlock x b).isNone

/-- A milestone of a bulkhead's scrub; with the last one of the region, step 3 ends (R383, R403). -/
def State.milestone (s : State) (r b : Nat) (f : ScrubRec → ScrubRec) : State :=
  let s := s.onScrub r fun x => { f x with since := x.since.put b (s.bulk b).timer }
  let x := s.scrubRec r
  if x.bulks.all (s.scrubEnded x) then
    s.onScrub r fun x => { x with doneAt := x.bulks.foldl (fun m b => m.put b (s.bulk b).timer) [] }
  else s

/-- `SCRUB_HALL_CLEARED` (R383): 32 768 bulkhead cycles into a pass. -/
def execScrubHallCleared (b : BulkId) (s : State) : Result :=
  let r := s.regionOf b
  let x := s.scrubRec r
  .next (if x.phase != 3 || !x.bulks.contains b || x.broken.isSome || x.prog.get 0 b != 0
        || s.sinceMilestone x.since b < 32768 then s
    else (s.clearHall b).milestone r b fun x => { x with prog := x.prog.put b 1 })

/-- `SCRUB_BLOCK_CLEARED` (R383, R384): a further 2 560 cycles, and one block. -/
def execScrubBlockCleared (b : BulkId) (s : State) : Result :=
  let r := s.regionOf b
  let x := s.scrubRec r
  .next (if x.phase != 3 || !x.bulks.contains b || x.broken.isSome || s.sinceMilestone x.since b < 2560 then s
    else match s.nextBlock x b with
      | none => s
      | some k => (s.clearBlock b k).milestone r b fun x => { x with prog := x.prog.put b (k + 2), blocks := x.blocks + 1 })

/-- `SCRUB_FINALISE` (R301 step 4, R403): 512 cycles after step 3 ends, counted in the slowest bulkhead. -/
def execScrubFinalise (r : Nat) (s : State) : Result :=
  let x := s.scrubRec r
  .next (if x.phase != 3 || x.broken.isSome || !(x.bulks.all (s.scrubEnded x))
        || x.bulks.any (fun b => s.sinceMilestone x.doneAt b < 512) then s
    else
      let s1 := x.bulks.foldl (fun s b => s.onBulk b fun y =>
        { y with st := .unassigned, region := 0, key := 0, mutcode := false, scrub := false }) s
      (s1.onScrub r fun y => { y with phase := 4 }).answerJobs (.preempt r false 3) .ok
        (toBytes 4 (s.region r).imageGen.toNat))

/-- `SCRUB_RESTART` (R385): 2 048 cycles after the reset of a bulkhead, step 3 starts again in every bulkhead. -/
def execScrubRestart (r : Nat) (s : State) : Result :=
  let x := s.scrubRec r
  .next (match x.broken with
    | none => s
    | some b =>
      if x.phase != 3 || (s.bulk b).timer.toNat < 2048 then s
      else s.onScrub r fun x =>
        { x with blocks := 0, restarts := if x.restarts = 15 then 15 else x.restarts + 1, prog := [], broken := none, doneAt := [],
                 since := x.bulks.foldl (fun m b => m.put b (s.bulk b).timer) [] })

/-! ## KEYS (R307, R320, R381) -/

/-- The KSELs of a region that are live. -/
def State.kselsOf (s : State) (r : Nat) : List Nat := (upFrom 0 8).filter fun k => (s.ksel.find? (8 * r + k)).isSome

/-- `KEYS_ADD` (R381). -/
def execKeysAdd (m : BitVec 2) (s : State) : Result :=
  let r := s.mail m 0x008 1
  s.serving m .keys (s.mail m 0x009 1 = 0) (s.asOwner m
    (if (s.regions.find? r).isNone then s.answer m .noRegion []
     else match s.freeSlots.head?, (upFrom 0 8).find? (fun k => !(s.kselsOf r).contains k) with
       | some slot, some k => (s.liveSlot r k slot).answer m .ok [BitVec.ofNat 8 k, BitVec.ofNat 8 slot]
       | _, _ => s.answer m .refused []))

/-- `KEYS_FREE` (R320, R381): the slot is zeroised. -/
def execKeysFree (m : BitVec 2) (s : State) : Result :=
  let r := s.mail m 0x008 1
  let k := s.mail m 0x00A 1
  s.serving m .keys (s.mail m 0x009 1 = 1) (s.asOwner m
    (if (s.regions.find? r).isNone then s.answer m .noRegion []
     else if k = 0 || 8 ≤ k then s.answer m .refused []
     else match s.ksel.find? (8 * r + k) with
       | none => s.answer m .refused []
       | some slot =>
         { s with keys := s.keys.del slot, ksel := s.ksel.del (8 * r + k) }.answer m .ok [BitVec.ofNat 8 k, BitVec.ofNat 8 slot]))

/-! ## WINDOW (R297, R381) -/

/-- Whether an address lies in a bulkhead and outside every tile state space (R72, R297). -/
def inBulk (y : BulkId) (a : Word) : Bool :=
  let tag := field a 60 4
  1 ≤ tag && tag ≤ 3 && field a 43 17 = 0 && field a 36 7 = y && !(tag = 1 && 0x800000 ≤ field a 0 24)

/-- The dwords of a 32-byte entry. -/
def entryDword (bs : List Byte) (i : Nat) : Word := wordOf ((bs.drop (8 * i)).take 8)

/-- Whether a region's owner has signed a message (R297, R380). -/
def State.signedBy (s : State) (r : Nat) (msg sig : List Byte) : Bool :=
  r != 0 && Config.ed25519Verify (s.region r).pub msg sig

/-- `WINDOW_SET` (R296, R297, R381): both owners have consented, the range lies in the target bulkhead, and an entry of
the gate is free. A BASE that is not a multiple of 64 is written as it was signed: the model's choice (log entry 135). -/
def execWindowSet (m : BitVec 2) (s : State) : Result :=
  let b := s.mail m 0x008 1
  let g := s.mail m 0x009 1
  let e := s.mailBytes m 0x100 32
  s.serving m .window (s.mail m 0x00A 1 = 0)
    (match (if b < 80 && g < 4 then bulkBeyond b g else none) with
     | none => if s.office.owner = some m then s.answer m .refused [] else s.answer m .notOwner []
     | some y =>
       let src := s.signedBy (s.regionOf b) e (s.mailBytes m 0x120 64)
       let tgt := s.signedBy (s.regionOf y) e (s.mailBytes m 0x160 64)
       if s.office.owner != some m && !src && !tgt then s.answer m .notOwner []
       else if !src || !tgt || !inBulk y (entryDword e 1) || !inBulk y (entryDword e 2) then s.answer m .refused []
       else match (upFrom 0 8).find? fun i => !bit (s.window b g i 0) 31 with
         | none => s.answer m .refused []
         | some i =>
           let put (s : State) (w : Nat) (v : Word) : State := s.setWindow b g i w v
           (put (put (put (put s 0 ((entryDword e 0 &&& 0x80073F3F#64) ||| place 31 1)) 1 (entryDword e 1)) 2 (entryDword e 2)) 3
             (entryDword e 3 &&& 0xFFFF#64)).answer m .ok [BitVec.ofNat 8 i])

/-- The 32 bytes of a window entry as it stands. -/
def State.windowBytes (s : State) (b : BulkId) (g i : Nat) : List Byte :=
  ((upFrom 0 4).map fun w => bytesOf (s.window b g i w)).flatten

/-- The requests that have passed gate g of a bulkhead through its entry i, and whose acknowledgement has not passed it
back. -/
def State.passedThrough (s : State) (b : BulkId) (g i : Nat) : List Nat :=
  (s.windowedOpen.filter fun x => x.1 = 32 * b + 8 * g + i).map (·.2.2.2)

/-- `WINDOW_WITHDRAW` (R297, R381): either owner's signature removes the entry from the next cycle; the removal is
reported once earlier requests are acknowledged. -/
def execWindowWithdraw (m : BitVec 2) (s : State) : Result :=
  let b := s.mail m 0x008 1
  let g := s.mail m 0x009 1
  let i := s.mail m 0x00B 1
  s.serving m .window (s.mail m 0x00A 1 = 1)
    (match (if b < 80 && g < 4 && i < 8 then bulkBeyond b g else none) with
     | none => if s.office.owner = some m then s.answer m .refused [] else s.answer m .notOwner []
     | some y =>
       let msg := s.windowBytes b g i ++ [0xFF]
       let ok := s.signedBy (s.regionOf b) msg (s.mailBytes m 0x120 64) || s.signedBy (s.regionOf y) msg (s.mailBytes m 0x160 64)
       if !ok then (if s.office.owner = some m then s.answer m .refused [] else s.answer m .notOwner [])
       else if !bit (s.window b g i 0) 31 then s.answer m .refused []
       else (s.setWindow b g i 0 (s.window b g i 0 &&& ~~~(place 31 1))).setJob m (.withdraw b i (s.passedThrough b g i)))

/-- `WINDOW_REMOVAL_COMPLETE` (R297): the acknowledgements of the requests that passed before have passed the gate. -/
def execWindowRemovalComplete (m : BitVec 2) (s : State) : Result :=
  .next (match s.job m with
    | .withdraw _ i passed =>
      if s.windowedOpen.any fun x => passed.contains x.2.2.2 then s else s.answer m .ok [BitVec.ofNat 8 i]
    | _ => s)

end Sys2Proof.Machine
end

