-- ==== Sys2Proof/Machine/RegionJobs.lean ====
section
/-! DEFINITION. PREEMPT and RESTORE: the steps of R335 and R338 that the registrar and the Dean take around the saves
and loads of the tiles (R38, R160, R174, R335 to R338, R381). -/

namespace Sys2Proof.Machine

/-! ## Migrated activations (R38, R335 step 4, R338 step 3) -/

/-- A home slot that reads PRE-EMPTED with the state of its activation (R335). -/
def Slot.preempt (x : Slot) (m : MigImage) (noEnd : Bool) : Slot :=
  { x with state := .preempted,
           ctx := { x.ctx with regs := m.regs, eregs := m.eregs, pc := m.pc, loop0 := m.loop0, loop1 := m.loop1, wait := .none,
                               noEnd := noEnd, pend := m.pend, out := [] } }

/-- The migrated activation of a core is written into its home slot, and the core is free. One whose core stands at level
H is written with the program counter that PEPC saves and the registers that the core holds, and level H goes on (log
entry 61). -/
def State.preemptCore (s : State) (b : BulkId) (c : BitVec 3) : State :=
  let x := s.core b c
  match x.home with
  | none => s
  | some (t, k, act) =>
    let m := x.ctx.image t k act
    if x.h then
      (s.onSlot t k fun y => y.preempt { m with pc := x.pepc &&& ~~~1#64 } false).onCore b c fun y => { y with home := none }
    else
      (s.onSlot t k fun y => y.preempt { m with pc := x.ctx.savePc } x.ctx.saveNoEnd).onCore b c fun y =>
        { y with home := none, running := false, ctx := Ctx.reset }

/-- Every migrated activation of a region is written into its home slot, those that still wait for a core too. -/
def State.preemptAway (s : State) (r : Nat) : State :=
  let s := (s.bulksOf r).foldl (fun s b =>
    ([0, 1, 2, 3, 4, 5, 6, 7] : List (BitVec 3)).foldl (fun s c => s.preemptCore b c) s) s
  s.packets.foldl (fun s' p =>
    match p.2.body with
    | .migrate m =>
      if s.regionOf (TileName.ret m.tile) = r then (s'.purgePacket p.1).onSlot m.tile m.slot fun y => y.preempt m m.noEnd else s'
    | .migrateBack m =>
      if s.regionOf (TileName.ret m.tile) = r then (s'.purgePacket p.1).onSlot m.tile m.slot (·.takeBack m) else s'
    | _ => s') s

/-- A PRE-EMPTED activation waits in its island for a proctor core (R338). -/
def State.sendAway (s : State) (t : TileName) (k : BitVec 2) : State :=
  let x := s.slot t k
  if x.state != .preempted then s
  else
    let node := s.islandNode t.ret (tileNode t)
    let pk : Packet := { vc := 6, stamp := s.stampOf t.ret false, src := tileNode t, dst := node, marked := false, windowed := none,
                         flits := 12, got := 12, order := 0, entry := none, body := .migrate (x.ctx.image t k x.act), place := .arrived,
                         retried := false, ranges := none, span := none }
    { s.bump with packets := s.packets.put s.serial pk }.onSlot t k fun y => { y with state := .migrated }

/-- Every PRE-EMPTED activation of a region goes back to a proctor core. -/
def State.restoreAway (s : State) (r : Nat) : State :=
  (s.tilesOf r).foldl (fun s t => allSlots.foldl (fun s k => s.sendAway t k) s) s

/-! ## Steps (R335) -/

/-- Whether every tile of a region with state is saved, or loaded (R335 step 5, R338 step 2). -/
def State.allEnded (s : State) (ts : List TileName) : Bool := ts.all fun t => (s.tile t).pre = 3

/-- Steps 1 and 2, and the wait of step 3: the gates are at HOLD and the tiles stopped until the region has drained. -/
def State.preemptStart (s : State) (m : BitVec 2) (r : Nat) (resume : Bool) : State :=
  (s.freeze r).setJob m (.preempt r resume 1)

/-- The directory entries of a region (R35). -/
def State.groupsOf (s : State) (r : Nat) : Sparse (List TileName) := s.groups.filter fun g => g.1 / 256 = r

/-- The watches that R160 registers at homes of a region. -/
def State.messageWatches (s : State) (r : Nat) : List Watch :=
  s.watches.filter fun w => s.regionOf (homeBulk w.home) = r && (match w.kind with | .msg _ _ _ => true | .wake _ => false)

/-- Step 4: the bulkheads are FROZEN, the watches and the group directory saved, and migrated activations written into
their home slots. -/
def State.preemptFreeze (s : State) (m : BitVec 2) (r : Nat) (resume : Bool) : State :=
  let s := (s.bulksOf r).foldl (fun s b => s.onBulk b fun x => { x with st := .frozen }) s
  let s := s.onRegion r fun x => { x with watches := s.messageWatches r, groups := s.groupsOf r }
  (s.preemptAway r).setJob m (.preempt r resume 2)

/-- Step 6, resume in place: RUN on every tile, bulkheads LIVE, gates OPEN; the images remain as a checkpoint. -/
def State.preemptInPlace (s : State) (m : BitVec 2) (r : Nat) : State :=
  let s := (s.everyTile r).foldl (fun s t => s.runTile t) (s.restoreAway r)
  let s := (s.bulksOf r).foldl (fun s b => s.onBulk b fun x => { x with st := .live, gate := 1 }) s
  s.answer m .ok (toBytes 4 s.mapgen.toNat)

/-- The routers of a region. -/
def State.routersOf (s : State) (r : Nat) : Sparse Router := s.routers.filter fun x => s.regionOf (x.1 / 4096) = r

/-- The packets that a drained region's routers still hold, whatever their stamp (R336). -/
def State.leftover (s : State) (r : Nat) : Sparse Packet :=
  let rs := s.routersOf r
  s.packets.filter fun p => rs.any fun x => x.2.ins.any fun b => (b.2.flits ++ b.2.behind).any fun f => f.pkt = p.1

/-- The flits of a region's routers that no save image of a tile names, by buffer. -/
def State.flitsBehind (s : State) (r : Nat) (ts : List TileName) : Sparse (List Flit) :=
  let nodes := ts.map tileNode
  (s.routersOf r).foldl (fun m x => x.2.ins.foldl (fun m b =>
    let fs := if nodes.contains x.1 then b.2.behind else b.2.flits ++ b.2.behind
    if fs.isEmpty then m else Sparse.put m (64 * x.1 + b.1) fs) m) []

/-- Physical addresses of the pages of a tile's save image, as the Dean's tables give them. -/
def State.imagePages (s : State) (t : TileName) : List Nat :=
  (upFrom 0 56).filterMap fun i =>
    (s.hXlat t.ret (place 12 (s.tile t).image.toNat + BitVec.ofNat 64 (4096 * i)) .r).map (·.pa)

/-- Step 6, release: the images, the watches and the directory stand for the region, its id and key slots stay reserved,
and its bulkheads are scrubbed (R301 steps 3 and 4); its tiles stay stopped until the scrub has cleared them (R21). -/
def State.preemptRelease (s : State) (m : BitVec 2) (r : Nat) : State :=
  let bs := s.bulksOf r
  let ts := s.everyTile r
  let left := s.leftover r
  let behind := s.flitsBehind r ts
  let pages : Sparse (List Nat) := ts.foldl (fun m t => Sparse.put m t (s.imagePages t)) []
  let s := s.onRegion r fun x => { x with released := true, imageGen := s.mapgen, images := ts, saved := left, behind := behind, pages := pages }
  let s := left.foldl (fun s p => s.purgePacket p.1) s
  let s := s.enterScrub bs
  let s := { s with watches := s.watches.filter fun w => s.regionOf (homeBulk w.home) != r,
                    groups := s.groups.filter fun (g : Nat × List TileName) => g.1 / 256 != r }
  (s.newScrub r 3 bs).setJob m (.preempt r false 3)

/-- PREEMPT of a mailbox: it starts, or goes on from its step (R335, R381). -/
def State.preempt (s : State) (m : BitVec 2) (resume : Bool) : State :=
  let r := s.mail m 0x008 1
  match s.job m with
  | .idle =>
    if s.command m = some .preempt && s.mail m 0x009 1 = num resume then
      s.asOwner m (if r = 0 || (s.bulksOf r).isEmpty || !((s.bulksOf r).all fun b => (s.bulk b).st = .live) then s.answer m .refused []
        else s.preemptStart m r resume)
    else s
  | .preempt r' resume' stage =>
    if resume' != resume then s
    else if stage = 1 then (if s.regionDrained r' then s.preemptFreeze m r' resume else s)
    else if stage = 2 && s.allEnded (s.everyTile r') then
      (if resume then s.preemptInPlace m r' else s.preemptRelease m r')
    else s
  | _ => s

/-- `PREEMPT_RELEASE` (R335, R381). -/
def execPreemptRelease (m : BitVec 2) (s : State) : Result := .next (s.preempt m false)

/-- `PREEMPT_RESUME` (R335, R381). -/
def execPreemptResume (m : BitVec 2) (s : State) : Result := .next (s.preempt m true)

/-! ## RESTORE (R338, R381) -/

/-- Whether a released region cannot be restored: a bulkhead of it is not free to take it back, or its teardown has
begun, as after an ACCEPT of its migration (R301, R366). -/
def State.restoreBlocked (s : State) (r : Nat) : Bool :=
  let phase := (s.scrubRec r).phase
  (phase != 0 && phase != 4) || ((s.region r).bulks.any fun b => (s.bulk b).st != .unassigned || (s.bulk b).retired)

/-- Step 1: the bulkheads are assigned to the reserved id with their reserved slots, gates at HOLD, tiles stopped; the
code sections that were locked are locked again, and the scrub record is discarded (R384). -/
def State.restoreStart (s : State) (r : Nat) : State :=
  let x := s.region r
  let s := { s with scrubs := s.scrubs.del r }.assignBulks x.bulks r ((s.ksel.find? (8 * r)).getD 0) x.mutcode 2
  let s := x.images.foldl (fun s t => s.onTile t fun y => { y with pre := 1 }) s
  x.locks.foldl (fun s l => s.onTile l.1 fun y => { y with code := y.code ++ [l.2] }) s

/-- The flits of a released region in routers that stand at no tile go back there, with their packets. -/
def State.restoreBehind (s : State) (r : Nat) : State :=
  let x := s.region r
  let nodes := x.images.map tileNode
  (x.behind.filter fun e => !nodes.contains (e.1 / 64)).foldl (fun s e =>
    let node := e.1 / 64
    let q := s.router node
    let b := e.1 % 64
    (s.setRouter node { q.setBuf (b / 8) (b % 8) { InBuf.empty with behind := e.2 }.fill with
      outs := s.heldOuts node x.saved q.outs [(b, e.2)] }).putBack x.saved e.2) s

/-- Steps 3 and 4: watches, directory, migrated activations; then RUN, and the gates OPEN. -/
def State.restoreEnd (s : State) (r : Nat) : State :=
  let x := s.region r
  let s := s.restoreBehind r
  let s := { s with groups := x.groups.foldl (fun m (g : Nat × List TileName) => Sparse.put m g.1 g.2) s.groups }
  let s := x.watches.foldl (fun s w => s.registerWatch w.home w.key w.addr w.target w.kind (s.mem.word w.key)) s
  let s := x.images.foldl (fun s t => s.runTile t) (s.restoreAway r)
  (s.setGates x.bulks 1).onRegion r fun y => 
    { y with released := false, watches := [], groups := [], saved := [], behind := [], images := [], pages := [] }

/-- `RESTORE` (R338, R381): it starts, and ends once every tile has been loaded. -/
def execRestore (m : BitVec 2) (s : State) : Result :=
  let r := s.mail m 0x008 1
  .next (match s.job m with
    | .idle =>
      if s.command m = some .restore then
        s.asOwner m
          (if (s.regions.find? r).isNone || !(s.region r).released then s.answer m .noRegion []
           else if (s.region r).imageGen != s.mapgen || s.restoreBlocked r then s.answer m .refused []
           else (s.restoreStart r).setJob m (.restore r 1))
      else s
    | .restore r' _ => if s.allEnded (s.region r').images then (s.restoreEnd r').answer m .ok [] else s
    | _ => s)

end Sys2Proof.Machine
end

