-- ==== Sys2Proof/Machine/Boot.lean ====
section
/-! DEFINITION. Power-on and boot (R43, R75, R92, R291, R320, R346, R347, R352, R355 to R357, R384, R390, R400). -/

namespace Sys2Proof.Machine

/-! ## POWER_ON (R346) -/

/-- The boot ROM's checks of the Yelk image. -/
def Office.checked (o : Office) : Bool :=
  Config.sha512 o.rootKey = o.rootHash && Config.ed25519Verify o.rootKey o.yelk o.yelkSig && o.rollback ≤ o.svn

/-- The office die at power-on: what it keeps in flash, fuses and its non-volatile store, M_YELK, and four new
challenges. The version words are those that the other sides send. -/
def Office.powerOn (o : Office) (serial : Nat) : Office :=
  { Office.reset with recovery := !o.checked, yelk := o.yelk, yelkSig := o.yelkSig, rootKey := o.rootKey, rootHash := o.rootHash,
                      svn := o.svn, rollback := o.rollback, dean := o.dean, deanSig := o.deanSig, deanNext := o.deanNext,
                      mYelk := Config.sha512 o.yelk, cert := o.cert, memVersions := o.memVersions,
                      hostVersions := o.hostVersions, device := o.device, gen := o.gen,
                      credentials := o.credentials, fuses := o.fuses, log := o.log,
                      challenges := #v[serial, serial + 1, serial + 2, serial + 3] }

/-- Memory that is not the module's own: far memory and host memory (R308, R354). -/
def outsideKey (k : Nat) : Bool := (2 ^ 64 + 2 ^ 51 ≤ k && k < 2 ^ 66) || 2 ^ 67 ≤ k

/-- `POWER_ON` (R346, R352): everything but the non-volatile stores is lost; a failed check leaves the office die in
RECOVERY. -/
def execPowerOn (s : State) : Result :=
  .next { State.reset with agenda := s.agenda, focus := s.focus, mem := s.mem.filter fun c => outsideKey c.1, scrubs := s.scrubs,
                           office := s.office.powerOn s.serial, serial := s.serial + 4, free := s.free }

/-! ## Names (R7, R75, R356) -/

/-- Units that the fuse map or the retirement log excludes. -/
def Office.excluded (o : Office) : List Word := o.fuses ++ o.log.map (·.1)

/-- Excluded tiles of a block. -/
def Office.badTiles (o : Office) (r b : Nat) : Nat :=
  ((upFrom 0 16).filter fun c => o.excluded.any fun w => sameUnit w (retireWord 1 1 r b c)).length

/-- Cores of a block: its spare row of four covers the first four excluded tiles; a retired block has none. -/
def Office.coresOf (o : Office) (r b : Nat) : Nat :=
  if o.excluded.any fun w => sameUnit w (retireWord 2 1 r b 0) then 0 else min 16 (20 - o.badTiles r b)

/-- The name table of a new map generation. -/
def Office.nameTable (o : Office) : Sparse Nat :=
  o.excluded.foldl (fun m w =>
    let r := field w 8 7
    let b := field w 16 7
    if field w 0 2 = 3 || o.coresOf r b = 16 then m else m.put (128 * r + b) (o.coresOf r b)) []

/-! ## The ping sweep (R357) -/

/-- The measured time of entry i of the matrix: a value that the spec leaves open, 0xFFFF where no tile or no station
exists. -/
def State.pingTime (s : State) (i : Nat) : Nat :=
  let t := TileName.mk (i / 32 / 1920) (i / 32 % 1920 / 16) (i / 32 % 16)
  if s.tileExists t && s.hasStation (edgeBulks.getD (i % 32) 80) then (Config.freeWord (s.free + i)).toNat % 2 ^ 16 else 0xFFFF

/-- Whether some tile's nearest station exceeds 442 cycles. -/
def State.latBound (s : State) : Bool :=
  (upFrom 0 (80 * 1920)).any fun q =>
    s.tileExists (TileName.mk (q / 1920) (q % 1920 / 16) (q % 16)) && (upFrom 0 32).all fun i => 442 < s.pingTime (32 * q + i)

/-- The bitmap of present stations. -/
def State.stationBitmap (s : State) : Nat :=
  ((upFrom 0 32).map fun i => if s.hasStation (edgeBulks.getD i 80) then 2 ^ i else 0).sum

/-- A byte of the latency matrix area. -/
def State.matrixByte (s : State) (o : Nat) : Byte :=
  if o < 4 then (bytesOf (zext s.mapgen)).getD o 0
  else if o = 4 then BitVec.ofNat 8 (num s.latBound)
  else if 8 ≤ o && o < 12 then BitVec.ofNat 8 (s.stationBitmap / 2 ^ (8 * (o - 8)))
  else if 0x1000 ≤ o && o < 0x961000 then BitVec.ofNat 8 (s.pingTime ((o - 0x1000) / 2) / 2 ^ (8 * (o % 2)))
  else 0

/-- Memory with the n bytes from a key replaced. -/
def Memory.fill (m : Memory) (lo n : Nat) (f : Nat → Byte) : Memory :=
  m.filter (fun c => c.1 < lo)
    ++ ((upFrom 0 n).map fun i => (lo + i, f i)).filter (fun c => c.2 != Memory.blank)
    ++ m.filter fun c => lo + n ≤ c.1

/-- The sweep writes the matrix into the hall scratch of bulkhead 0. -/
def State.pingSweep (s : State) : State :=
  { s with mem := s.mem.fill (hallKey 0 0x2000000) 0x961000 s.matrixByte, free := s.free + 32 * 1920 * 80 }

/-! ## MODULE_BOOT (R355) -/

/-- A bulkhead after steps 2 to 5: UNASSIGNED, gates CLOSED, EPOCH kept (R291). -/
def Bulk.boot (x : Bulk) (o : Office) (b : BulkId) : Bulk :=
  { Bulk.reset with epoch := x.epoch, memFailed := o.absent.contains b,
                    retired := o.excluded.any fun w => sameUnit w (retireWord 3 1 b 0 0) }

/-- A scrub record after the boot scrub: one in PHASE 1 to 3 is complete (R384). -/
def ScrubRec.boot (x : ScrubRec) : ScrubRec :=
  if x.phase = 0 || x.phase = 4 then x else { x with phase := 4, blocks := x.total, broken := none }

/-- The memory modules whose version negotiation fails (R355, R358). -/
def Office.failing (o : Office) : List BulkId :=
  edgeBulks.filter fun b => (negotiate (versionWord 1 2 1) (o.memVersions.get 0 b)).isNone

/-- The host interfaces whose negotiation of the host protocol fails (R358). -/
def Office.hostsFailing (o : Office) : BitVec 2 :=
  BitVec.ofNat 2 (num (negotiate (versionWord 3 1 2) o.hostVersions[0]).isNone
    + 2 * num (negotiate (versionWord 3 1 2) o.hostVersions[1]).isNone)

/-- The office die through steps 2 to 4: the modules whose negotiation fails are absent, and the new map generation is
stored before a router uses it. -/
def Office.boot (o : Office) : Office :=
  { o with absent := o.failing, gen := o.gen + 1, open8 := false, bells := [], eccSeen := [], modcap := 30000000,
           modcapNext := 30000000, energy := 0,
           sample := 0, record := List.replicate 32 0 }

/-- Steps 1 to 6: the module named, mapped and scrubbed, every line of edge memory without a seal (R400), one key slot
(R320), the latency matrix written. -/
def State.bootWafer (s : State) : State :=
  let o := s.office.boot
  let s := { s with mem := s.mem.filter fun c => outsideKey c.1, seals := [], majors := [], ecc := [], cores := o.nameTable,
                    mapgen := o.gen, tiles := [], blank := upFrom 0 80, wires := [], islands := [], stations := [],
                    domains := [], packets := [], routers := [],
                    routes := [], stationOf := [], lanes := [], watches := [], groups := [],
                    keys := [(0, { token := s.serial, region := 0 })], ksel := [], regions := [], migs := [],
                    scrubs := s.scrubs.map fun (x : Nat × ScrubRec) => (x.1, x.2.boot), office := o,
                    jobs := Vector.replicate 4 .idle, hostQueues := [],
                    ports := [], power := [], progress := [], serial := s.serial + 1 }
  let s := (upFrom 0 80).foldl (fun s b => s.onBulk b fun x => x.boot o b) s
  s.pingSweep

/-- Step 7: the Dean is loaded, and each core of each island runs at level H. The entry address, the first address and
the root of the Dean's tables are values that the spec leaves open. -/
def State.startDean (s : State) : State :=
  let w := s.freeWord
  let r := w.2.freeWord
  let core (x : PCore) : PCore :=
    { x with h := true, running := true, hventry := w.1, hroot := r.1, ctx := { x.ctx with pc := w.1 &&& ~~~1#64 } }
  (upFrom 0 80).foldl (fun s b => s.onIsland b fun x => { x with cores := x.cores.map core }) r.2

/-- A module reset puts a replacement Dean in force (R347). -/
def Office.newDean (o : Office) : Office :=
  match o.deanNext with
  | some d => { o with dean := d.1, deanSig := d.2, deanNext := none }
  | none => o

/-- Steps 7 and 8: the Dean is measured and started, and the mailboxes open on the host interfaces whose negotiation
succeeds. -/
def State.bootDean (s : State) : State :=
  let s := s.startDean
  { s with office := { s.office with mDean := Config.sha512 s.office.dean, hostFailed := s.office.hostsFailing, open8 := true } }

/-- `MODULE_BOOT` (R355): Yelk brings up the module. A Dean image without a valid signature is not loaded, and the boot
stops at step 7 (R347). -/
def execModuleBoot (s : State) : Result :=
  .next (if s.office.recovery || !s.office.checked then s
    else
      let s1 := { s with office := s.office.newDean }.bootWafer
      if Config.ed25519Verify s1.office.rootKey s1.office.dean s1.office.deanSig then s1.bootDean else s1)

end Sys2Proof.Machine
end

