-- ==== Sys2Proof/Machine/Compact.lean ====
section
/-! DEFINITION. Compact forms: each executes as its 32-bit expansion (R116). The forms of `END` and
`QADV` stand with theirs. -/

namespace Sys2Proof.Machine

/-- `C.MOV` (R116). -/
def execCMov (d b : BitVec 4) (s : State) : Result := .next (s.put (creg d) (s.rd (creg b)))

/-- `C.ADD` (R116). -/
def execCAdd (d b : BitVec 4) (s : State) : Result := .next (s.put (creg d) (s.rd (creg d) + s.rd (creg b)))

/-- `C.SUB` (R116). -/
def execCSub (d b : BitVec 4) (s : State) : Result := .next (s.put (creg d) (s.rd (creg d) - s.rd (creg b)))

/-- `C.AND` (R116). -/
def execCAnd (d b : BitVec 4) (s : State) : Result := .next (s.put (creg d) (s.rd (creg d) &&& s.rd (creg b)))

/-- `C.OR` (R116). -/
def execCOr (d b : BitVec 4) (s : State) : Result := .next (s.put (creg d) (s.rd (creg d) ||| s.rd (creg b)))

/-- `C.XOR` (R116). -/
def execCXor (d b : BitVec 4) (s : State) : Result := .next (s.put (creg d) (s.rd (creg d) ^^^ s.rd (creg b)))

/-- `C.SHL` (R116). -/
def execCShl (d b : BitVec 4) (s : State) : Result := .next (s.put (creg d) (s.rd (creg d) <<< field (s.rd (creg b)) 0 6))

/-- `C.SHR` (R116). -/
def execCShr (d b : BitVec 4) (s : State) : Result := .next (s.put (creg d) (s.rd (creg d) >>> field (s.rd (creg b)) 0 6))

/-- `C.ADDI` (R116). -/
def execCAddi (d : BitVec 4) (imm : BitVec 7) (s : State) : Result := .next (s.put (creg d) (s.rd (creg d) + sext imm))

/-- `C.MOVI` (R116). -/
def execCMovi (d : BitVec 4) (imm : BitVec 7) (s : State) : Result := .next (s.put (creg d) (sext imm))

/-- `C.SHLI` (R116). -/
def execCShli (d : BitVec 4) (n : BitVec 6) (s : State) : Result := .next (s.put (creg d) (s.rd (creg d) <<< n.toNat))

/-- `C.LDD`: the offset is 8·off3 (R116). -/
def execCLdd (d a : BitVec 4) (off : BitVec 3) (s : State) : Result :=
  .next (s.loadAt 8 false (creg d) (s.rd (creg a) + (zext off <<< 3)))

/-- `C.STD` (R116). -/
def execCStd (c a : BitVec 4) (off : BitVec 3) (s : State) : Result :=
  .next (s.storeAt (toBytes 8 (s.rd (creg c)).toNat) (s.rd (creg a) + (zext off <<< 3)))

/-- `C.LDW`: the offset is 4·off3 (R116). -/
def execCLdw (d a : BitVec 4) (off : BitVec 3) (s : State) : Result :=
  .next (s.loadAt 4 false (creg d) (s.rd (creg a) + (zext off <<< 2)))

/-- `C.STW` (R116). -/
def execCStw (c a : BitVec 4) (off : BitVec 3) (s : State) : Result :=
  .next (s.storeAt (toBytes 4 (s.rd (creg c)).toNat) (s.rd (creg a) + (zext off <<< 2)))

/-- `C.BEQZ` (R116). -/
def execCBeqz (a : BitVec 4) (off : BitVec 7) (s : State) : Result :=
  .next (s.branchIf (s.rd (creg a) == 0) (halfwords off))

/-- `C.BNEZ` (R116). -/
def execCBnez (a : BitVec 4) (off : BitVec 7) (s : State) : Result :=
  .next (s.branchIf (s.rd (creg a) != 0) (halfwords off))

/-- `C.B` (R116). -/
def execCB (off : BitVec 11) (s : State) : Result := .next (s.branchIf true (halfwords off))

/-- `C.J` (R116). -/
def execCJ (a : BitVec 4) (s : State) : Result := .next (s.onCtx fun x => x.branchTo (x.get (creg a)))

/-- The compact hint (R105). -/
def execCompactHint (s : State) : Result := .next s.retire

end Sys2Proof.Machine
end

