-- ==== Sys2Proof/Machine/Telemetry.lean ====
section
/-! DEFINITION. Telemetry, caps, the governor and trips (R300, R395 to R398). -/

namespace Sys2Proof.Machine

/-! ## Records (R395, R396) -/

/-- A bulkhead record (R395). -/
def State.bulkRecord (s : State) (b : BulkId) (sample : BitVec 32) : List Byte :=
  let x := s.powerOf b
  let i := s.island b
  toBytes 4 x.power ++ toBytes 2 x.vrail.toNat ++ toBytes 2 x.irail.toNat ++ toBytes 2 x.hot.toNat ++ toBytes 2 x.avg.toNat
    ++ toBytes 4 (x.clkn + num (x.clkn < 64) * 2 ^ 7 + num x.capfail * 2 ^ 8 + num x.tripped * 2 ^ 9 + num x.inreset * 2 ^ 10)
    ++ toBytes 4 x.cap ++ toBytes 4 i.eccCorr.toNat ++ toBytes 4 i.eccUnc.toNat ++ toBytes 4 i.gateLog.toNat
    ++ bytesOf x.energy ++ toBytes 4 sample.toNat ++ toBytes 4 0

/-- The module record (R396). -/
def Office.moduleRecord (o : Office) : List Byte :=
  toBytes 4 o.power ++ toBytes 4 o.modcap ++ toBytes 2 o.inlet.toNat ++ toBytes 2 o.outlet.toNat
    ++ toBytes 4 (o.flow % 2 ^ 16 + num o.logFull * 2 ^ 16) ++ bytesOf o.energy ++ toBytes 4 o.sample.toNat ++ toBytes 4 0

/-! ## The governor (R397, R398) -/

/-- CAPeff of R398; FLOW is in units of 0.1 L/min. -/
def capEff (cap flow : Nat) : Nat := if 450 ≤ flow then cap else cap * flow / 450

/-- One run of a bulkhead's governor: temperatures are in units of 1/16 °C. -/
def Power.govern (x : Power) (flow : Nat) : Power :=
  let eff := capEff x.cap flow
  let hot := eff < x.power || 1600 ≤ x.hot.toInt
  let clkn := if hot then max 32 (x.clkn - 4)
              else if x.power + eff / 20 < eff && x.hot.toInt < 1520 then min 64 (x.clkn + 1) else x.clkn
  let run := if hot && clkn = 32 then x.run + 1 else 0
  { x with clkn := clkn, run := run, capfail := x.capfail || run = 10 }

/-- Whether one sample trips a bulkhead (R398). -/
def Power.trips (x : Power) (flow : Nat) : Bool := flow < 150 || 1760 ≤ x.hot.toInt

/-- Whether one sample ends a trip. -/
def Power.recovers (x : Power) (flow : Nat) : Bool := x.hot.toInt < 1440 && 450 ≤ flow

/-- The tiles of a bulkhead that save themselves. -/
def State.savingIn (s : State) (b : BulkId) : List TileName :=
  (s.tiles.filter fun x => TileName.ret x.1 = b && x.2.pre = 2 && x.2.preSave).map (·.1)

/-- A trip: the bulkhead's reset is pulsed and held, and the region that owns it is frozen; tiles that were saving
themselves are STOPPED with ERR, and those of other bulkheads finish (R300, R334, R398). -/
def State.trip (s : State) (b : BulkId) : State :=
  let saving := s.savingIn b
  let s := (s.closeGates [b]).pulse b
  let s := (s.onPower b fun x => { x with tripped := true, inreset := true }).onBulk b fun x => { x with failed := true }
  let s := if s.regionOf b = 0 then s else s.freeze (s.regionOf b)
  (saving.foldl (fun s t => s.onTile t fun x => { x with pre := 1, preErr := true }) s).setGates [b] 0

/-- The end of a trip: the bulkhead leaves reset with CLKN 64; TRIPPED stays (R397, R398). -/
def State.leaveReset (s : State) (b : BulkId) : State :=
  (s.onPower b fun x => { x with inreset := false, clkn := 64 }).onBulk b fun x => { x with failed := x.rail }

/-- One bulkhead's part of a sample: its cap in force, governor and trips, then its record. -/
def State.sampleBulk (s : State) (sample : BitVec 32) (b : BulkId) : State :=
  let flow := s.office.flow
  let s := s.onPower b fun x => ({ x with cap := x.capNext }).govern flow
  let x := s.powerOf b
  let s := if x.inreset then (if x.recovers flow then s.leaveReset b else s)
           else if x.trips flow then s.trip b else s
  s.onPower b fun x => { x with record := s.bulkRecord b sample }

/-- `TELEMETRY_SAMPLE` (R395 to R398): once per millisecond, every bulkhead and the module. -/
def execTelemetrySample (s : State) : Result :=
  let n := s.office.sample + 1
  let s1 := { s with office := { s.office with modcap := s.office.modcapNext, sample := n } }
  let s2 := (upFrom 0 80).foldl (fun s b => s.sampleBulk n b) s1
  .next { s2 with office := { s2.office with record := s2.office.moduleRecord } }

/-! ## Caps (R397) -/

/-- The caps as written, of the 80 bulkheads. -/
def State.capSum (s : State) : Nat := ((upFrom 0 80).map fun b => (s.powerOf b).capNext).sum

/-- `MODCAP_WRITE` (R397): the module cap, clamped; where it leaves too little room, every cap's excess over
120 000 mW shrinks by one common factor. -/
def execModcapWrite (mw : Nat) (s : State) : Result :=
  let cap := max 13500000 (min 30000000 mw)
  let s1 := { s with office := { s.office with modcapNext := cap, nack := false } }
  let excess := s.capSum - 80 * 120000
  let room := cap - 3900000 - 80 * 120000
  .next (if s.capSum + 3900000 ≤ cap then s1
    else (upFrom 0 80).foldl (fun s b => s.onPower b fun x =>
      { x with capNext := 120000 + (x.capNext - 120000) * room / excess }) s1)

/-- `CAP_WRITE` (R397): a bulkhead's cap, clamped; a value that breaks the sum is answered with an I3C NACK, and changes
nothing else. -/
def execCapWrite (b : BulkId) (mw : Nat) (s : State) : Result :=
  let cap := max 120000 (min 325000 mw)
  .next (if 80 ≤ b then s
    else if s.office.modcapNext < s.capSum - (s.powerOf b).capNext + cap + 3900000 then
      { s with office := { s.office with nack := true } }
    else { s with office := { s.office with nack := false } }.onPower b fun x => { x with capNext := cap })

end Sys2Proof.Machine
end

