-- ==== Sys2Proof/Machine/LinkEvents.lean ====
section
/-! DEFINITION. The Euter ports: frames, keys, replay, and the link test (R359 to R364, R373 to R376). -/

namespace Sys2Proof.Machine

/-- The first counter value of the reserve, and the value kept for the MARKER (R361). -/
def linkReserve : BitVec 32 := 0xFFF00000#32
def linkLast : BitVec 32 := 0xFFFFFFFE#32

/-- Whether SEQ `a` is at or after SEQ `b`, modulo 2^16 (R359). -/
def seqAtOrAfter (a b : BitVec 16) : Bool := (a - b).toNat < 2 ^ 15

/-! ## A frame on the wire (R359) -/

/-- The authenticated header of a frame (R359). -/
def Frame.header (f : Frame) : List Byte :=
  toBytes 1 (f.type.toNat + num f.ksel * 16) ++ [f.chan] ++ toBytes 2 f.seq.toNat ++ toBytes 4 f.inv.toNat ++ toBytes 2 f.len
    ++ toBytes 6 0

/-- The counter block of a frame's nonce: SALT, KGEN, INV, then a count (R359; AES-GCM as its standard has it). -/
def Frame.counter (salt : BitVec 32) (f : Frame) (n : Nat) : BitVec 128 := salt ++ f.gen ++ f.inv ++ BitVec.ofNat 32 n

/-- The ciphertext that a frame carries: none for ACK, NAK and IDLE (R359). -/
def Frame.cipher (key : Nat) (salt : BitVec 32) (f : Frame) : List Byte :=
  if 2 ≤ f.type.toNat then []
  else xorBytes (padTo 256 f.payload)
    (((upFrom 2 16).map fun n => (toBytes 16 (Config.aes256 key (f.counter salt n)).toNat).reverse).flatten)

/-- The blocks of a byte sequence, the last one filled with zeros. -/
def blocksOf (bs : List Byte) : List (BitVec 128) :=
  (upFrom 0 ((bs.length + 15) / 16)).map fun i => blockOf (padTo 16 ((bs.drop (16 * i)).take 16))

/-- The tag of AES-256-GCM over the header and the ciphertext; one that does not verify has bit 0 inverted (R359,
R375). -/
def Frame.tagBits (key : Nat) (salt : BitVec 32) (f : Frame) : BitVec 128 :=
  let c := f.cipher key salt
  let lengths : BitVec 128 := BitVec.ofNat 128 (128 * 2 ^ 64 + 8 * c.length)
  let t := ghash (Config.aes256 key 0) (blocksOf f.header ++ blocksOf c ++ [lengths]) ^^^ Config.aes256 key (f.counter salt 1)
  if f.tag then t else t ^^^ 2 ^ 120

/-- The bytes of a frame under the key of its direction, 288 or 32 of them (R359). -/
def Frame.bytes (key : Nat) (salt : BitVec 32) (f : Frame) : List Byte :=
  f.header ++ f.cipher key salt ++ (toBytes 16 (f.tagBits key salt).toNat).reverse

/-! ## Keys of a link (R359, R360) -/

/-- HKDF-SHA-512 (RFC 5869) of an agreed secret: 32 bytes under an info string. -/
def hkdf (secret info : List Byte) : List Byte :=
  (Config.hmac512 (Config.hmac512 (toBytes 64 0) secret) (info ++ [1])).take 32

/-- The key of one direction of a link: derived from the shared secret for the DEVICE that transmits and the generation,
as a serial number among the keys (R360; the info string is a DESIGN CHOICE, log entry 90). -/
def Port.linkKey (x : Port) (transmitter : List Byte) (gen : BitVec 32) : Nat :=
  2 ^ 600 + ofBytes (hkdf x.secret (padTo 16 transmitter ++ toBytes 4 gen.toNat))

/-- The bytes that a port's lanes carry: each frame sealed under this module's key of its generation and the link's SALT
(R359). -/
def State.wireBytes (s : State) (b : BulkId) (p : Nat) : List (List Byte) :=
  let x := s.port b p
  x.wire.map fun f => f.bytes (x.linkKey s.office.device f.gen) x.salt

/-! ## Transmit direction (R361, R362) -/

def Port.key (x : Port) : Option (BitVec 32) := if x.active then x.tx[1] else x.tx[0]
def Port.nextKey (x : Port) : Option (BitVec 32) := if x.active then x.tx[0] else x.tx[1]

/-- Seals and sends a frame under the ACTIVE key: one invocation each; at the last counter value the port enters
KEYWAIT, and from the reserve on it asks Yelk for a key while NEXT is empty (R361). -/
def Port.seal (x : Port) (f : Frame) : Port :=
  let c := x.counter + 1
  { x with wire := x.wire ++ [{ f with ksel := x.active, inv := x.counter, gen := x.key.getD 0 }], counter := c, quiet := 0,
           st := if c = linkLast then 2 else x.st,
           asked := x.asked || (linkReserve.toNat ≤ c.toNat && x.nextKey.isNone) }

/-- A frame before its sealing. -/
def frameOf (type : BitVec 4) (chan : Byte) (seq : BitVec 16) (len : Nat) (payload : List Byte) : Frame :=
  { type := type, ksel := false, chan := chan, seq := seq, inv := 0, len := len, payload := payload, gen := 0, tag := true }

/-- The frame of a replay entry. -/
def Replay.frame (r : Replay) : Frame := frameOf (if r.marker then 1 else 0) r.load.chan r.seq r.load.len r.load.payload

/-- The first transmission of a DATA or MARKER frame under the next SEQ: it is kept for replay, and LERRINJ may alter
its tag (R362, R375). -/
def Port.sendNew (x : Port) (marker : Bool) (load : Outgoing) : Port :=
  let r : Replay := { seq := x.txSeq, marker := marker, load := load, sent := true }
  let hit := x.injArm && x.injSeq = x.txSeq
  { x with txSeq := x.txSeq + 1, replay := x.replay ++ [r], injArm := x.injArm && !hit }.seal
    { r.frame with tag := !hit }

/-- Payload of a MARKER: the new KSEL, then the new KGEN (R361). -/
def markerPayload (ksel : Bool) (gen : BitVec 32) : List Byte :=
  BitVec.ofNat 8 (num ksel) :: toBytes 4 gen.toNat ++ List.replicate 251 0

/-- The key switch: a MARKER under the old key, whose slot is then zeroised; NEXT becomes ACTIVE (R361). -/
def Port.switchKey (x : Port) (gen : BitVec 32) : Port :=
  let x := x.sendNew true { chan := 0, len := 5, payload := markerPayload (!x.active) gen, origin := none }
  { x with tx := if x.active then x.tx.set 1 none else x.tx.set 0 none, active := !x.active, counter := 0, st := 1 }

/-- Payload n of a test run (R374). -/
def testPayload (pattern : Byte) (n : Nat) : List Byte := (upFrom 0 256).map fun j => pattern + BitVec.ofNat 8 (n + j)

/-- The next DATA frame of the test run. -/
def Port.sendTest (x : Port) : Port :=
  let n := x.sentTest
  let last := x.txSeq
  let x := x.sendNew false { chan := if x.runEach then 0xF1 else 0xF0, len := 256, payload := testPayload x.runPattern n,
                             origin := none }
  { x with sentTest := n + 1, lastTest := if n + 1 = x.runCount.toNat then some last else none }

/-- Sends again the oldest replay entry that a NAK asked for. -/
def Port.resend (x : Port) (r : Replay) : Port :=
  let hit (y : Replay) : Replay := if y.seq = r.seq then { y with sent := true } else y
  { x with replay := x.replay.map hit }.seal r.frame

/-- Whether a new DATA or MARKER frame may be sent: the replay buffer has a free entry (R362). -/
def Port.room (x : Port) : Bool := x.replay.length < 64

/-- The frame that is sent before any new one: NAKs and ACKs of the other direction, then resent frames. -/
def Port.control (x : Port) : Option Port :=
  match x.nakDue, x.ackDue, x.replay.find? (fun r => !r.sent) with
  | q :: rest, _, _ => some ({ x with nakDue := rest }.seal (frameOf 3 0 q 0 []))
  | [], q :: rest, _ => some ({ x with ackDue := rest }.seal (frameOf 2 0 q 0 []))
  | [], [], some r => some (x.resend r)
  | [], [], none => none

/-- The next new DATA frame: of the test run, or of a payload that waits. -/
def Port.data (x : Port) : Option Port :=
  if !x.room then none
  else if x.run then (if x.sentTest < x.runCount.toNat then some x.sendTest else none)
  else match x.txq with
    | y :: rest => some ({ x with txq := rest }.sendNew false y)
    | [] => none

/-- The key to which the transmitter switches next: NEXT, once the counter has reached the reserve (R361). -/
def Port.switchTo (x : Port) : Option (BitVec 32) := if linkReserve.toNat ≤ x.counter.toNat then x.nextKey else none

/-- The frame that the transmit direction sends next, if one is ready: the key switch, which waits for a free replay entry
(log entry 83), then the frames of `Port.control` and `Port.data`. -/
def Port.ready (x : Port) : Option Port :=
  if !x.works || x.key.isNone then none
  else match x.switchTo, x.room with
    | some g, true => some (x.switchKey g)
    | some _, false => if linkLast.toNat ≤ x.counter.toNat then none else x.control
    | none, _ => if linkLast.toNat ≤ x.counter.toNat then none else x.control.or x.data

/-- `LINK_FRAME_TRANSMIT` (R361, R362): the transmit direction sends the frame that is ready. -/
def execLinkFrameTransmit (b : BulkId) (p : Nat) (s : State) : Result :=
  .next (s.onPort b p fun x => x.ready.getD x)

/-- `LINK_KEEPALIVE_EXPIRY` (R361): after 4 096 frame times without a frame, with none ready, one IDLE. -/
def execLinkKeepaliveExpiry (b : BulkId) (p : Nat) (s : State) : Result :=
  .next (s.onPort b p fun x =>
    if x.works && x.key.isSome && 4096 ≤ x.quiet && x.ready.isNone && x.counter.toNat < linkLast.toNat
    then x.seal (frameOf 4 0 0 0 []) else x)

/-! ## Receive direction (R362, R363, R374, R376) -/

/-- Whether a frame's type is defined and its tag verifies under the live slot that KSEL names. -/
def Port.verifies (x : Port) (f : Frame) : Bool :=
  f.type.toNat ≤ 4 && f.tag && (if f.ksel then x.rx[1] else x.rx[0]) = some f.gen

/-- A frame that fails: dropped and counted; one NAK asks for the expected SEQ. -/
def Port.bad (x : Port) : Port := { x with badauth := x.badauth + 1, nakDue := x.nakDue ++ [x.rxSeq] }

/-- Acknowledges every delivered frame by one ACK. -/
def Port.ackAll (x : Port) : Port := { x with ackDue := x.ackDue ++ [x.rxSeq - 1], unacked := 0, age := 0 }

/-- A test frame's payload has the form of R374 for some PATTERN and n. -/
def testForm (payload : List Byte) : Bool :=
  match payload with
  | y :: _ => payload = testPayload y 0
  | [] => false

/-- A delivered test frame goes to the port's checker (R374, R376). -/
def Port.check (x : Port) (f : Frame) : Port :=
  if (f.chan = 0xF0 || f.chan = 0xF1) && !testForm f.payload then { x with paterr := x.paterr + 1 } else x

/-- A delivered MARKER zeroises the slot other than the one it names (R363). -/
def Port.marker (x : Port) (f : Frame) : Port :=
  { x with rx := if f.payload.head? = some 1 then x.rx.set 0 none else x.rx.set 1 none }

/-- A DATA or MARKER frame at the receiver (R362). A frame that asks for its own ACK leaves earlier ones to an ACK before
it (R374). -/
def Port.receiveData (x : Port) (f : Frame) : Port :=
  let alone := f.type = 0 && f.chan = 0xF1
  if f.seq = x.rxSeq then
    let x := if alone && x.unacked != 0 then x.ackAll else x
    let x := { x with rxSeq := x.rxSeq + 1, delivered := x.delivered + 1, unacked := x.unacked + 1 }
    let x := if f.type = 1 then x.marker f else x.check f
    if alone || 16 ≤ x.unacked then x.ackAll else x
  else if seqAtOrAfter f.seq x.rxSeq then { x with outorder := x.outorder + 1 }
  else { x with dups := x.dups + 1 }.ackAll

/-- An ACK: the entries it covers leave the replay buffer; one that covers the run's last frame ends the run. -/
def Port.receiveAck (x : Port) (seq : BitVec 16) : Port :=
  let ended := x.run && (match x.lastTest with | some n => seqAtOrAfter seq n | none => false)
  { x with replay := x.replay.filter fun r => !seqAtOrAfter seq r.seq, run := x.run && !ended, done := x.done || ended,
           nakRun := if seqAtOrAfter seq x.nakSeq then 0 else x.nakRun }

/-- A port goes DOWN and reports it to the Dean: its replay buffer is emptied (R363). -/
def Port.down (x : Port) : Port :=
  { x with st := 0, reported := true, replay := [], txq := [], inbox := [], ackDue := [], nakDue := [] }

/-- The mesh packets that a port carries: those of its replay buffer, then those that wait for a frame. -/
def Port.carried (x : Port) : List Packet := (x.replay.map (·.load) ++ x.txq).filterMap (·.origin)

/-- A NAK: the named SEQ and every later one are sent again; after 16 for one SEQ the port goes DOWN. -/
def Port.receiveNak (x : Port) (seq : BitVec 16) : Port :=
  let n := if seq = x.nakSeq then x.nakRun + 1 else 1
  let x := { x with naks := x.naks + 1, nakSeq := seq, nakRun := n }
  if 16 ≤ n then x.down
  else { x with replay := x.replay.map fun r => if seqAtOrAfter r.seq seq then { r with sent := false } else r }

/-- The oldest frame that has arrived, when its type is one of a list: verified, then handed on. A port that is not
UP or in KEYWAIT delivers nothing. -/
def Port.receive (x : Port) (types : List (BitVec 4)) (act : Port → Frame → Port) : Port :=
  match x.inbox with
  | [] => x
  | f :: rest =>
    if !types.contains f.type then x
    else
      let x := { x with inbox := rest }
      if !x.works then x else if x.verifies f then act x f else x.bad

/-- The router at which a port's packets enter and leave the mesh: the island's. -/
def portNode (b : BulkId) : Nat := nodeAt b 20 16

/-- A delivered payload enters the mesh on the VC that CHAN names, for the registrar (R359, R362). A CHAN that names no VC
carries none (log entry 86). -/
def State.enterMesh (s : State) (b : BulkId) (p : Nat) (f : Frame) : State :=
  if f.chan.toNat < 8 then
    s.inject (portNode b) (portNode b) f.chan.toNat (1 + ceilDiv f.len 32) 63 false (.linkIn (8 * b + p) f.len f.payload)
  else s

/-- `LINK_DATA_RECEIVE` (R362, R374, R376): a DATA frame arrives, or one of a reserved TYPE, which fails. -/
def execLinkDataReceive (b : BulkId) (p : Nat) (s : State) : Result :=
  let x := s.port b p
  let s1 := s.onPort b p fun x => x.receive [0, 5, 6, 7, 8, 9, 10, 11, 12, 13, 14, 15] Port.receiveData
  .next (match x.inbox with
    | f :: _ => if (s1.port b p).rxSeq = x.rxSeq then s1 else s1.enterMesh b p f
    | [] => s1)

/-- `LINK_MARKER_RECEIVE` (R363): a MARKER arrives. -/
def execLinkMarkerReceive (b : BulkId) (p : Nat) (s : State) : Result :=
  .next (s.onPort b p fun x => x.receive [1] Port.receiveData)

/-- `LINK_ACK_RECEIVE` (R362): an ACK arrives. -/
def execLinkAckReceive (b : BulkId) (p : Nat) (s : State) : Result :=
  .next (s.onPort b p fun x => x.receive [2] fun x f => x.receiveAck f.seq)

/-- `LINK_NAK_RECEIVE` (R362, R363): a NAK arrives; a port that it takes DOWN refuses every packet that it carries. -/
def execLinkNakReceive (b : BulkId) (p : Nat) (s : State) : Result :=
  let x := s.port b p
  let s1 := s.onPort b p fun x => x.receive [3] fun x f => x.receiveNak f.seq
  .next (if x.works && (s1.port b p).st = 0 then x.carried.foldl (fun s k => s.answerRefused (portNode b) k) s1 else s1)

/-- `LINK_IDLE_RECEIVE` (R361): an IDLE that verifies changes nothing else. -/
def execLinkIdleReceive (b : BulkId) (p : Nat) (s : State) : Result :=
  .next (s.onPort b p fun x => x.receive [4] fun x _ => x)

/-- `LINK_ACK_TIMER` (R362): 8 frame times after the oldest unacknowledged delivery, an ACK is due. -/
def execLinkAckTimer (b : BulkId) (p : Nat) (s : State) : Result :=
  .next (s.onPort b p fun x => if 0 < x.unacked && 8 ≤ x.age then x.ackAll else x)

/-! ## Keys, the test run, training (R355, R360, R374, R375) -/

/-- A key of the transmit direction: ACTIVE where the port has none yet, NEXT where that is empty (R360). -/
def Port.loadNext (x : Port) (gen : BitVec 32) : Port :=
  if x.key.isNone then { x with tx := if x.active then x.tx.set 1 (some gen) else x.tx.set 0 (some gen), asked := false }
  else if x.nextKey.isNone && x.key != some gen then
    { x with tx := if x.active then x.tx.set 0 (some gen) else x.tx.set 1 (some gen), asked := false }
  else x

/-- A key of the transmit direction once the far receiver has confirmed it; else one of the receive direction, into a free
slot, which is confirmed to the far side (R360). -/
def Port.loadKey (x : Port) (gen : BitVec 32) : Port :=
  if x.confirmed = some gen then { x.loadNext gen with confirmed := none }
  else if x.rx[0] = some gen || x.rx[1] = some gen then x
  else if x.rx[0].isNone then { x with rx := x.rx.set 0 (some gen), confirms := x.confirms ++ [gen] }
  else if x.rx[1].isNone then { x with rx := x.rx.set 1 (some gen), confirms := x.confirms ++ [gen] }
  else x

/-- `LINK_KEY_LOAD` (R360): Yelk loads a key of one direction, by its generation number: into a receiver slot, which it
confirms to the far side, or, once the far receiver has confirmed that it holds the key, into the transmitter's NEXT. -/
def execLinkKeyLoad (b : BulkId) (p gen : Nat) (s : State) : Result :=
  .next (s.onPort b p fun x => x.loadKey (BitVec.ofNat 32 gen))

/-- `LINK_TEST_RUN` (R374): a write of LTEST. -/
def execLinkTestRun (b : BulkId) (p : Nat) (v : Word) (s : State) : Result := .next (s.onPort b p fun x => x.writeTest v)

/-- `LINK_ERROR_INJECT` (R375): a write of LERRINJ. -/
def execLinkErrorInject (b : BulkId) (p : Nat) (v : Word) (s : State) : Result :=
  .next (s.onPort b p fun x => x.writeInject v)

/-- The version negotiation of a port that trains: with the other side's word it is UP, or stays DOWN where negotiation
fails; without it the port goes on training (R358). -/
def Port.trained (x : Port) : Port :=
  match x.version with
  | none => x
  | some v =>
    match negotiate (versionWord 2 0 2) v with
    | some l => { x with st := 1, link := some l }
    | none => { x with st := 0 }

/-- The certified device key of the module with a DEVICE (R350). -/
def deviceKeyOf (device : List Byte) : List Byte := Config.identity (2 ^ 128 + ofBytes device)

end Sys2Proof.Machine
end

