-- ==== Sys2Proof/Machine/Matrix.lean ====
section
/-! DEFINITION. Gang matrix instructions, joins, the array and the scale stage (R212 to R231). -/

namespace Sys2Proof.Machine

/-! ## Gangs (R15, R213, R220) -/

/-- The four tiles of a tile's logical row. -/
def gangRow (t : TileName) : List TileName := upFrom (t / 4 * 4) 4

/-- Whether a tile's row is a gang: its four cores exist (R7, R15). -/
def State.isGang (s : State) (t : TileName) : Bool := (gangRow t).all s.tileExists

/-- Width 1, 2 or 4 of a tile. -/
def Tile.width (x : Tile) : Nat := 2 ^ x.mat.width.toNat

/-- The aligned group of w tiles that holds a tile. -/
def subGang (t : TileName) (w : Nat) : List TileName := upFrom (t / w * w) w

/-- The tiles of a join with a tile: the sub-gang of the widest width that any of them holds (R220). -/
def State.gangSet (s : State) (t : TileName) : List TileName :=
  if (gangRow t).any fun u => (s.tile u).width = 4 then gangRow t
  else if (subGang t 2).any fun u => (s.tile u).width = 2 then subGang t 2
  else [t]

def State.onMat (s : State) (t : TileName) (f : Matrix → Matrix) : State := s.onTile t fun x => { x with mat := f x.mat }

/-- `GANG` (R213). -/
def execGang (w : BitVec 3) (pos : BitVec 2) (s : State) : Result :=
  .next (s.onTileOnly fun t _ =>
    if w != 0 && !s.isGang t then s.trap .noname (tileId t)
    else
      let m := (s.tile t).mat
      if !m.arrivals.isEmpty || m.waiting.isSome || m.running.isSome then s.await (.gang w pos)
      else (s.onMat t fun m => { m with width := BitVec.ofNat 2 w.toNat, pos := pos }).retire)

/-! ## Operand descriptors (R215 to R217, R221) -/

/-- Bytes of the unit of alignment, and of a row, of a format (R216). -/
def fmtUnit (fmt : BitVec 3) : Nat := if fmt = 5 then 4 else 32
def fmtRow (fmt : BitVec 3) : Nat := if fmt = 5 then 4 else 64

def Desc.pitch (d : Desc) : Nat := field d.layout 0 16
def Desc.tilePitch (d : Desc) : Int := Sys2Proof.Machine.signed 16 (field d.layout 16 16)

/-- Whether a block-scratch source lies in the tile's own block (R216 check 2). -/
def State.descOk (s : State) (t : TileName) (d : Desc) : Bool :=
  match s.locate (some t) d.base 1 with
  | .block r b off => r = t.ret && b = t.blk && off + 15 * d.pitch + fmtRow d.fmt ≤ 0x100000
  | _ => false

/-- The checks of R216 on a block-scratch source. -/
def State.descChecks (s : State) (t : TileName) (d : Desc) (act : State) : State :=
  let u := fmtUnit d.fmt
  if d.base.toNat % u != 0 || d.pitch % u != 0 || field d.layout 16 16 % u != 0 then s.trap .misalign d.base
  else if !s.descOk t d then s.trap .noname d.base
  else act

/-- A descriptor for an accumulator source: base and layout stay as they were. -/
def State.accDesc (s : State) (d : Desc) (ty : Ty) (acc : Acc) : Desc :=
  { d with fmt := ty, block := false, acc := acc, gen := s.serial }

/-- A descriptor for a block-scratch source. -/
def State.blockDesc (s : State) (d : Desc) (ty : Ty) (base layout : Word) : Desc :=
  { d with fmt := ty, block := true, base := base, layout := BitVec.ofNat 64 (field layout 0 34), gen := s.serial }

/-- `MOPA.ty aN` (R215). -/
def execMopaAcc (ty : Ty) (acc : Acc) (s : State) : Result :=
  .next (s.onTileOnly fun t _ => (s.bump.onMat t fun m => { m with descA := s.accDesc m.descA ty acc }).retire)

/-- `MOPA.ty [a], b` (R215, R216). -/
def execMopaBlock (ty : Ty) (a b : Reg) (s : State) : Result :=
  .next (s.onTileOnly fun t _ =>
    let d := s.blockDesc (s.tile t).mat.descA ty (s.rd a) (s.rd b)
    s.descChecks t d (s.bump.onMat t fun m => { m with descA := d }).retire)

/-- `MOPB.ty aN` (R215). -/
def execMopbAcc (ty : Ty) (acc : Acc) (s : State) : Result :=
  .next (s.onTileOnly fun t _ => (s.bump.onMat t fun m => { m with descB := s.accDesc m.descB ty acc }).retire)

/-- `MOPB.ty [a], b` (R215, R216). -/
def execMopbBlock (ty : Ty) (a b : Reg) (s : State) : Result :=
  .next (s.onTileOnly fun t _ =>
    let d := s.blockDesc (s.tile t).mat.descB ty (s.rd a) (s.rd b)
    s.descChecks t d (s.bump.onMat t fun m => { m with descB := d }).retire)

/-- The address of row i of a block-scratch operand, banks swizzled by ROT (R217). -/
def Desc.rowAddr (d : Desc) (i : Nat) : Nat :=
  let ra := field d.base 0 20 + i * d.pitch
  let m := match field d.layout 32 2 with | 0 => 0 | 1 => 1 | 2 => 2 | _ => 4
  ra / 1024 * 1024 + ((ra / 64 % 16) ^^^ (i * m % 16)) * 64 + ra % 64

/-- The base after an operation that read the descriptor, unless another one has replaced it (R221). -/
def Desc.advance (now used : Desc) : Desc :=
  if now.block && now.gen = used.gen then { now with base := now.base + BitVec.ofInt 64 now.tilePitch } else now

/-! ## Joining instructions (R218, R220, R222, R224) -/

/-- Whether a pair of formats is a row of R218 for `MMA` or `MMAS`. -/
def formatsOk (sparse : Bool) (a b : BitVec 3) : Bool :=
  let fp8 (f : BitVec 3) : Bool := f = 3 || f = 4
  if sparse then (a = 1 && b = 1) || (fp8 a && fp8 b)
  else (a = 1 && b = 1) || (a = 2 && b = 2) || (fp8 a && fp8 b) || (a = 7 && b = 7) || (a = 5 && b = 5)

/-- The destination accumulator of a matrix command, and its pb field. -/
def MCmd.acc (c : MCmd) : Acc :=
  match c.instr with | .mma acc _ => acc | .mmas acc _ => acc | .msca acc _ _ _ => acc | .mzero acc => acc | _ => 0
def MCmd.pb (c : MCmd) : Bool := match c.instr with | .mma _ pb => pb | .msca _ pb _ _ => pb | _ => false

/-- The local cases of `MATRIX_COMBO` (R222). -/
def MCmd.badCombo (c : MCmd) (leader : Bool) : Bool :=
  !formatsOk c.sparse c.descA.fmt c.descB.fmt
    || (!c.fp4 && (c.reads leader).any fun d => !d.block && d.acc = c.acc)

/-- Whether an abort matches the arrival at a place. -/
def Matrix.abortAt (m : Matrix) (i : Nat) : Bool := m.aborts.any fun a => a.place = i

/-- The abort of a place is taken, and the arrival there withdrawn: those behind it are one place nearer. -/
def Matrix.takeAbort (m : Matrix) (i : Nat) : Matrix :=
  { m with aborts := (m.aborts.filter fun a => a.place != i).map fun a =>
      { a with place := if i < a.place then a.place - 1 else a.place } }

/-- The place, at a tile with the aborts `ys`, of the join that has place `i` at a tile with the aborts `xs`: the former
has not yet withdrawn the arrivals that only its own aborts match, and the latter not those that only its own match
(R220, R222). -/
def matchingPlace (xs ys : List Abort) (i : Nat) : Nat :=
  i + (ys.filter fun a => !(xs.any fun b => b.id = a.id)).length
    - (xs.filter fun a => a.place < i && !(ys.any fun b => b.id = a.id)).length

/-- Signals an abort to the other members of a join: the arrival of each that it matches stands, or is to stand, behind
as many as wait on the tile that aborts, but for those that one of the two has still to withdraw (R220, R222). The
abort's number is that of the record of the trap that follows. -/
def State.signalAbort (s : State) (t : TileName) : State :=
  let m := (s.tile t).mat
  (s.gangSet t).foldl (fun s' u => if u = t then s' else s'.onMat u fun n =>
    { n with aborts := n.aborts ++ [{ id := s.serial, place := matchingPlace m.aborts n.aborts m.arrivals.length }] }) s

/-- The check of the metadata address on the leader (R224). -/
def State.metaCheck (s : State) (c : MCmd) (leader : Bool) (act : State) : State :=
  if !(c.sparse && leader) then act
  else if c.metaAddr.toNat % 8 != 0 then s.trap .misalign c.metaAddr
  else if 0x28000 < c.metaAddr.toNat + 128 then s.trap .noname c.metaAddr
  else act

/-- Issues a joining instruction: the checks of R220, then the arrival and the wait for the join. One that meets the
abort of another member takes it and signals none of its own, though it be a local `MATRIX_COMBO` too (log entry
111). -/
def State.joinIssue (s : State) (i : Instr) (metaAddr : Word) : State :=
  s.onTileOnly fun t k =>
    let m := (s.tile t).mat
    let c : MCmd := { id := s.serial, instr := i, slot := k, act := s.actNow, epc := s.pc, iw := s.iw, descA := m.descA,
                      descB := m.descB, metaAddr := metaAddr }
    let leader := m.pos = 0
    if m.abortAt m.arrivals.length then
      (s.onMat t fun m => m.takeAbort m.arrivals.length).trap .matrixCombo (zext s.iw)
    else if c.badCombo leader then (s.signalAbort t).trap .matrixCombo (zext s.iw)
    else match (c.reads leader).find? fun d => d.block && !s.descOk t d with
      | some d => s.trap .noname d.base
      | none =>
        s.metaCheck c leader
          ((s.bump.onMat t fun m => { m with arrivals := m.arrivals ++ [c] }).issueAndWait .gang)

/-- `MMA` (R218 to R221, R225). -/
def execMma (acc : Acc) (pb : Bool) (s : State) : Result := .next (s.joinIssue (.mma acc pb) 0)

/-- `MMAS` (R224). -/
def execMmas (acc : Acc) (a : Reg) (s : State) : Result := .next (s.joinIssue (.mmas acc a) (s.rd a))

/-- A matrix command that is local to its tile. -/
def State.localCmd (s : State) (i : Instr) (k : BitVec 2) : MCmd :=
  { id := s.serial, instr := i, slot := k, act := s.actNow, epc := s.pc, iw := s.iw, descA := { Desc.reset with block := true },
    descB := { Desc.reset with block := true }, metaAddr := 0 }

/-- `MSCA` (R226, R227). -/
def execMsca (acc : Acc) (pb : Bool) (vsa vsb : VReg) (s : State) : Result :=
  .next (s.onTileOnly fun t k =>
    if (s.tile t).mat.scWaiting.isSome then s.retry
    else (s.bump.onMat t fun m => { m with scWaiting := some (s.localCmd (.msca acc pb vsa vsb) k) }).retire)

/-- `MZERO` (R228): at once when no earlier command on the accumulator is left, else behind them. -/
def execMzero (acc : Acc) (s : State) : Result :=
  .next (s.onTileOnly fun t k =>
    ((s.bump.onMat t fun m => { m with zeros := m.zeros ++ [s.localCmd (.mzero acc) k] }).settleZeros t).retire)

/-- `MSTAT` (R228). -/
def execMstat (d : Reg) (s : State) : Result :=
  .next (s.onTileOnly fun t _ =>
    (s.onMat t fun m => { m with status := m.status &&& ~~~0xF#64 }).put d (s.tile t).mat.status)

/-- `MWAIT` (R228). -/
def execMwait (s : State) : Result :=
  .next (s.onTileOnly fun t _ =>
    if (s.tile t).mat.open.isEmpty then s.retire else s.issueAndWait (.older .mat s.serial))

/-! ## Traps of a join (R222, R223) -/

/-- `MATRIX_COMBO` on a member's joining instruction, which withdraws its arrival and is undone: it issues again when the
slot is resumed, and its end action follows then (R149, R222). So it is where PARKALL has parked the slot already: its
trap is then a LATE record, and the instruction issues again on RESUME, which is the model's choice (log entry 142). -/
def State.joinTrap (s : State) (t : TileName) (c : MCmd) : State :=
  let s := (s.onMat t fun m => { m with arrivals := m.arrivals.filter fun y => y.id != c.id }).settleZeros t
  if (s.slot t c.slot).act != c.act then s
  else
    (s.onSlot t c.slot fun x => { x with ctx := { x.ctx.unissued with wait := .none } }).slotTrap
      t c.slot (slotRecord t c.slot Cause.matrixCombo.code c.epc (zext c.iw) true)

/-- `GANG_ABORT` (R222): an abort meets the matching arrival of a member. -/
def execGangAbort (t : TileName) (s : State) : Result :=
  let m := (s.tile t).mat
  .next (match m.aborts.findSome? fun a => m.arrivals[a.place]?.map fun c => (a.place, c) with
    | some x => (s.onMat t fun m => m.takeAbort x.1).joinTrap t x.2
    | none => s)

/-! ## Join completion (R220 to R222) -/

/-- Whether a vector command that issued before a member's arrival still holds the join back (R191, R220). -/
def Tile.vecHolds (x : Tile) (c : MCmd) (leader : Bool) : Bool :=
  let sources := ((c.reads leader).filter fun d => !d.block).map (·.acc.toNat)
  x.vq.any fun v => v.id < c.id &&
    (meets ((rowsWritten v.instr).map (· / 16)) sources
      || (!c.fp4 && ((rowsRead v.instr ++ rowsWritten v.instr).map (· / 16)).contains c.acc.toNat))

/-- Whether the leader's read of its metadata must wait for earlier accesses: queued stores to the block, of any slot,
and the accesses of its own slot (R19, R82, R83, R224). -/
def State.metaBusy (s : State) (t : TileName) (c : MCmd) : Bool :=
  let off := c.metaAddr.toNat
  c.sparse && ((s.tile t).vq.any (fun v => v.id < c.id && v.isMem && !v.isLoad
      && (match s.vecOwn t v with | some o => rangesMeet o 64 off 128 | none => false))
    || s.strongBefore t c.slot c.act c.id || s.requestBefore t c.slot c.act c.id off 128)

/-- The first arrivals of a set of tiles, when every one has arrived and nothing holds the join back (R220). -/
def State.joinReady (s : State) (ts : List TileName) : Option (List (TileName × MCmd)) :=
  let firsts := ts.filterMap fun t => (s.tile t).mat.arrivals.head?.map fun c => (t, c)
  if firsts.length = ts.length && firsts.all fun p =>
      let x := s.tile p.1
      x.mat.waiting.isNone && !x.mat.abortAt 0 && !x.vecHolds p.2 (x.mat.pos = 0)
        && !(x.mat.pos = 0 && s.metaBusy p.1 p.2)
  then some firsts else none

/-- Whether members of a join disagree, or share a position (R222). -/
def State.joinClash (s : State) : List (TileName × MCmd) → Bool
  | [] => false
  | (t, c) :: rest =>
    let x := s.tile t
    (rest.any fun p =>
      p.2.sparse != c.sparse || p.2.descA.fmt != c.descA.fmt || p.2.descB.fmt != c.descB.fmt
        || (s.tile p.1).mat.width != x.mat.width || (s.tile p.1).mat.pos = x.mat.pos) || s.joinClash rest

/-- The sixteen metadata dwords that the leader reads (R224). -/
def State.metaRows (s : State) (t : TileName) (c : MCmd) : List Word :=
  if c.sparse then (upFrom 0 16).map fun i => s.mem.word (scratchKey t (c.metaAddr.toNat + 8 * i)) else []

/-- Whether a corrected error lies in the 8-byte words of a range of keys (R229). -/
def State.eccFixed (s : State) (key n : Nat) : Bool :=
  s.ecc.any fun e => !e.2 && key / 8 ≤ e.1 && e.1 ≤ (key + n - 1) / 8

/-- The aborts of a tile whose oldest arrival goes. -/
def Matrix.headGone (m : Matrix) : Matrix := { m with aborts := m.aborts.map fun a => { a with place := a.place - 1 } }

/-- One member of a join that completes: its operation waits for the array, its slot goes on (R220, R221). `bad` and
`corr` tell of errors in the metadata. -/
def State.joinMember (s : State) (leader : TileName) (lc : MCmd) (members : List TileName) (rows : List Word)
    (bad corr : Bool) (p : TileName × MCmd) : State :=
  let t := p.1
  let c := p.2
  let op : MOp := { cmd := c, leader := leader, members := members, descLead := lc.descA, metaRows := rows, aRows := [],
                    bRows := [], eccBad := bad, eccCorr := corr }
  let s := s.onMat t fun m =>
    { m.headGone with
        arrivals := m.arrivals.filter (fun y => y.id != c.id), waiting := some op,
        descA := if t = leader then m.descA.advance c.descA else m.descA, descB := m.descB.advance c.descB }
  if (s.slot t c.slot).act = c.act && (s.slot t c.slot).ctx.wait = .gang then s.endsWait (.slot t c.slot) else s

/-- `GANG_JOIN_COMPLETION` (R220 to R222, R224). EVAL of an error in the metadata is the start of the block, which is the
model's choice (log entry 110). -/
def execGangJoinCompletion (t : TileName) (s : State) : Result :=
  .next (match s.joinReady (s.gangSet t) with
    | none => s
    | some ps =>
      let clash (s : State) : State := ps.foldl (fun s p => (s.onMat p.1 Matrix.headGone).joinTrap p.1 p.2) s
      if s.joinClash ps then clash s
      else match ps.find? fun p => (s.tile p.1).mat.pos = 0 with
        | none => clash s
        | some (l, lc) =>
          let bad := lc.sparse && s.eccBad (scratchKey l lc.metaAddr.toNat) 128
          let corr := lc.sparse && s.eccFixed (scratchKey l lc.metaAddr.toNat) 128
          let s1 := if bad then (s.foundEcc (scratchKey l lc.metaAddr.toNat) 128).noSlotRecord l .eccUe lc.epc lc.metaAddr else s
          ps.foldl (fun s' p => s'.joinMember l lc (ps.map (·.1)) (s.metaRows l lc) bad corr p) s1)

/-! ## The array (R219, R224, R225, R229 to R231) -/

/-- Sixteen operand rows of a descriptor of a tile, the location of an uncorrectable error among them, and whether one
was corrected. The model's choices: a 64-byte row of block scratch that is 32-byte aligned only is swizzled as its
first line is and read contiguously from there (log entry 109); the location is the row's key in block scratch, or the
tile state offset of an accumulator row (log entry 110). -/
def State.operandRows (s : State) (t : TileName) (d : Desc) : List Row × Option Word × Bool :=
  let key (i : Nat) : Nat := if d.block then blockKey t.ret t.blk (d.rowAddr i) else rowKey t (16 * d.acc.toNat + i)
  let n := if d.block then fmtRow d.fmt else 64
  let row (i : Nat) : Row :=
    if d.block then BitVec.ofNat 512 (ofBytes (s.mem.readN (key i) n)) else (s.tile t).rows.get 0 (16 * d.acc.toNat + i)
  let at' (i : Nat) : Word :=
    if d.block then BitVec.ofNat 64 (key i) else BitVec.ofNat 64 (0x820000 + 64 * (16 * d.acc.toNat + i))
  ((upFrom 0 16).map row,
   ((upFrom 0 16).find? fun i => s.eccBad (key i) n).map at',
   (upFrom 0 16).any fun i => s.eccFixed (key i) n)

/-- The errors among the operand rows of a descriptor are found. -/
def State.foundRows (s : State) (t : TileName) (d : Desc) : State :=
  (upFrom 0 16).foldl (fun s i =>
    if d.block then s.foundEcc (blockKey t.ret t.blk (d.rowAddr i)) (fmtRow d.fmt)
    else s.foundEcc (rowKey t (16 * d.acc.toNat + i)) 64) s

/-- Whether an earlier command of the tile holds an operation back from the array: an `MSCA` on its partial
buffer, or an `MSCA` or `MZERO` on an accumulator that it reads or writes (R227, R228). -/
def Matrix.holdsArray (m : Matrix) (c : MCmd) : Bool :=
  (m.scWaiting.toList ++ m.scRunning.toList).any (fun e =>
      e.id < c.id && ((c.fp4 && e.pb = c.pb) || meets (m.accs e) (m.accs c)))
    || m.zeros.any fun e => e.id < c.id && meets (m.accs e) (m.accs c)

/-- Whether an access that a member's activation made before its joining instruction is not yet performed (R89). -/
def State.accessBefore (s : State) (t : TileName) (c : MCmd) : Bool :=
  (s.tile t).vq.any (fun v => v.slot = c.slot && v.act = c.act && v.id < c.id && v.isMem && !v.sent && v.data.isNone)
    || s.packets.any fun p => match p.2.body.req? with
        | some r => r.hasParty (.slot t c.slot c.act) (· < c.id)
        | none => false

/-- The old rows of the accumulator that an operation adds to, as a source of operands: none for FP4 (R219, R225). -/
def MCmd.oldRows (c : MCmd) : Option Desc := if c.fp4 then none else some { Desc.reset with acc := c.acc }

/-- What a member reads of an accumulator source: the location of an error, and whether one was corrected. -/
def State.oldErrors (s : State) (t : TileName) (c : MCmd) : Option Word × Bool :=
  match c.oldRows with
  | some d => (s.operandRows t d).2
  | none => (none, false)

/-- `MATRIX_ARRAY_START` (R89, R220, R227, R230): every member of a joined operation starts, and the operand rows are
read: those of block scratch after each member's earlier accesses. -/
def execMatrixArrayStart (t : TileName) (s : State) : Result :=
  .next (match (s.tile t).mat.waiting with
    | none => s
    | some op =>
      let ops := op.members.filterMap fun u => (s.tile u).mat.waiting.map fun o => (u, o)
      let ready := ops.length = op.members.length && ops.all fun p =>
        (s.tile p.1).mat.running.isNone && !(s.tile p.1).mat.holdsArray p.2.cmd
          && !((op.descLead.block || ops.any fun q => q.2.cmd.descB.block) && s.accessBefore p.1 p.2.cmd)
      if !ready then s
      else
        let a := s.operandRows op.leader op.descLead
        let bs := ops.map fun p => (p.1, p.2, s.operandRows p.1 p.2.cmd.descB)
        let old (p : TileName × MOp) := s.oldErrors p.1 p.2.cmd
        let bad := op.eccBad || a.2.1.isSome || bs.any (fun p => p.2.2.2.1.isSome) || ops.any fun p => (old p).1.isSome
        let s1 := bs.foldl (fun s' p =>
          s'.onMat p.1 fun m =>
            { m with waiting := none,
                     running := some { p.2.1 with
                       aRows := a.1, bRows := p.2.2.1, eccBad := bad,
                       eccCorr := p.2.1.eccCorr || a.2.2 || p.2.2.2.2 || (old (p.1, p.2.1)).2 } }) s
        let leadEpc := ((ops.find? fun p => p.1 = op.leader).map (·.2.cmd.epc)).getD op.cmd.epc
        let s2 := match a.2.1 with | some w => (s1.foundRows op.leader op.descLead).noSlotRecord op.leader .eccUe leadEpc w | none => s1
        let s3 := bs.foldl (fun s' p => match p.2.2.2.1 with
          | some w => (s'.foundRows p.1 p.2.1.cmd.descB).noSlotRecord p.1 .eccUe p.2.1.cmd.epc w
          | none => s') s2
        ops.foldl (fun s' p => match (old p).1, p.2.cmd.oldRows with
          | some w, some d => (s'.foundRows p.1 d).noSlotRecord p.1 .eccUe p.2.cmd.epc w
          | _, _ => s') s3)

/-- The element k of an operand row under a format (R50). -/
def element (fmt : BitVec 3) (r : Row) (k : Nat) : Nat := lane (Ty.width fmt) r k
def elementFP (fmt : BitVec 3) (r : Row) (k : Nat) : FP :=
  match fmtOf fmt.toNat with | some f => f.value (element fmt r k) | none => FP.ofInt (signed (Ty.width fmt) (element fmt r k))

/-- Dense elements along K of a dense operation (R218). -/
def denseK (fmt : BitVec 3) : Nat := if fmt = 1 || fmt = 2 then 16 else if fmt = 5 then 8 else 32

/-- The products of group g of row i and column j: two exact products of the kept elements in the sparse form
(R219, R224). -/
def MOp.groupTerms (op : MOp) (i j g : Nat) : List FP :=
  let fa := op.descLead.fmt
  let fb := op.cmd.descB.fmt
  let a := op.aRows.getD i 0
  let b := op.bRows.getD j 0
  if op.cmd.sparse then
    let m := field (op.metaRows.getD i 0) (4 * g) 4
    [(elementFP fa a (2 * g)).mul (elementFP fb b (4 * g + m % 4)),
     (elementFP fa a (2 * g + 1)).mul (elementFP fb b (4 * g + m / 4))]
  else (upFrom (4 * g) 4).map fun k => (elementFP fa a k).mul (elementFP fb b k)

/-- Groups along K (R61). -/
def MOp.groups (op : MOp) : Nat := if op.cmd.sparse then denseK op.descLead.fmt / 2 else denseK op.descLead.fmt / 4

/-- Whether an FP32 code is an infinity. -/
def isInfCode (c : Nat) : Bool := match fp32.value c with | .inf _ => true | _ => false

/-- A floating-point result element: the accumulated code, and whether it is infinite although every operand element
that it takes is finite (R219, R229). OVF looks at the final element alone, which is the model's choice (log entry
108). -/
def MOp.fpElement (op : MOp) (i j acc : Nat) : Nat × Bool :=
  let gs := (upFrom 0 op.groups).map fun g => op.groupTerms i j g
  let v := gs.foldl (fun v terms => fadd v (toFP32 (FP.sum terms))) acc
  (v, isInfCode v && (fp32.value acc).isFinite && gs.all fun terms => terms.all FP.isFinite)

/-- The exact integer sum of I8 products (R62), and that of FP4 products in units of 0.25 (R59). -/
def MOp.intElement (op : MOp) (i j : Nat) : Int :=
  let a := op.aRows.getD i 0
  let b := op.bRows.getD j 0
  (upFrom 0 32).foldl (fun z k => z + signed 8 (element 7 a k) * signed 8 (element 7 b k)) 0

/-- An E2M1 code in units of 0.5. -/
def halves (code : Nat) : Int :=
  match e2m1.value code with
  | .fin neg m e => let v : Int := (m * 2 ^ (e + 1).toNat : Nat); if neg then -v else v
  | _ => 0

def MOp.fp4Element (op : MOp) (i j : Nat) : Int :=
  let a := op.aRows.getD i 0
  let b := op.bRows.getD j 0
  (upFrom 0 8).foldl (fun z k => z + halves (element 5 a k) * halves (element 5 b k)) 0

/-- Whether an element that the operation reads is NaN (R229). -/
def MOp.nanIn (op : MOp) : Bool :=
  let k := denseK op.descLead.fmt
  let kb := if op.cmd.sparse then 2 * k else k
  (op.aRows.any fun r => (upFrom 0 k).any fun i => (elementFP op.descLead.fmt r i).isNan)
    || op.bRows.any fun r => (upFrom 0 kb).any fun i => (elementFP op.cmd.descB.fmt r i).isNan

/-- The rows that an operation writes into its accumulator, and whether a result overflowed. -/
def MOp.accResult (op : MOp) (old : Nat → Row) : List (Nat × Row) × Bool :=
  let acc := op.cmd.acc.toNat
  let rows := (upFrom 0 16).map fun i =>
    let r := old (16 * acc + i)
    let es := (upFrom 0 16).map fun j =>
      if op.descLead.fmt = 7 then (wrap 32 ((lane 32 r j : Int) + op.intElement i j), false)
      else op.fpElement i j (lane 32 r j)
    ((16 * acc + i, rowOf 32 (es.map (·.1))), es.any (·.2))
  (rows.map (·.1), rows.any (·.2))

/-- Sticky bits of MSTATW (R229). -/
def sticky (nanIn ovf corr unc : Bool) : Nat := num nanIn + 2 * num ovf + 4 * num corr + 8 * num unc

/-- The tile-state offset of a partial buffer, for its errors (R326, R345). EVAL of their record is this offset, whatever
entry holds the error: the model's choice (log entry 110). -/
def partialOff (pb : Bool) : Nat := 0x821000 + 0x200 * num pb

/-- `MATRIX_ARRAY_COMPLETE` (R219, R224, R225, R229, R230): the results of a tile's running operation. -/
def execMatrixArrayComplete (t : TileName) (s : State) : Result :=
  .next (match (s.tile t).mat.running with
    | none => s
    | some op =>
      let done (bits : Nat) (s : State) : State :=
        (s.onMat t fun m => { m with running := none, status := statusAfter m.status op.cmd.iw bits }).settleZeros t
      if op.eccBad then done (sticky op.nanIn false op.eccCorr true) s
      else if op.cmd.fp4 then
        let b := 256 * num op.cmd.pb
        done (sticky false false op.eccCorr false) ((s.onMat t fun m =>
          { m with partials := (upFrom 0 256).foldl (fun p n =>
              p.put (b + n) (BitVec.ofInt 16 (op.fp4Element (n / 16) (n % 16)))) m.partials }).eccClear
                (scratchKey t (partialOff op.cmd.pb)) 0x200)
      else
        let r := op.accResult fun i => (s.tile t).rows.get 0 i
        done (sticky op.nanIn r.2 op.eccCorr false) (s.writeRows t r.1))

/-! ## The scale stage (R226, R227) -/

/-- Whether an earlier command of the tile holds an `MSCA` back: an FP4 operation on its partial buffer, a
matrix or a vector command on its accumulators (R191, R227). -/
def Tile.holdsScale (x : Tile) (c : MCmd) : Bool :=
  (x.mat.open.any fun e => e.id < c.id && ((e.fp4 && e.pb = c.pb) || meets (x.mat.accs e) (x.mat.accs c)))
    || x.vq.any fun v => v.id < c.id && meets ((rowsRead v.instr ++ rowsWritten v.instr).map (· / 16)) (x.mat.accs c)

/-- `MSCA_STAGE_START` (R227). -/
def execMscaStageStart (t : TileName) (s : State) : Result :=
  let x := s.tile t
  .next (match x.mat.scWaiting with
    | none => s
    | some c =>
      if x.mat.scRunning.isSome || x.holdsScale c then s
      else s.onMat t fun m => { m with scWaiting := none, scRunning := some c })

/-- An element of `MSCA`: the code, and whether a finite sum became infinite (R60, R226, R229). -/
def scaleElement (acc : Nat) (p : BitVec 16) (sa sb : Nat) : Nat × Bool :=
  let term := ((FP.fin (p.toInt < 0) p.toInt.natAbs (-2)).mul (fp32.value sa)).mul (fp32.value sb)
  let sum := (fp32.value acc).add term
  let v := toFP32 sum
  (v, sum.isFinite && isInfCode v)

/-- `MSCA_STAGE_COMPLETE` (R226, R229, R230). -/
def execMscaStageComplete (t : TileName) (s : State) : Result :=
  let x := s.tile t
  .next (match x.mat.scRunning with
    | none => s
    | some c =>
      match c.instr with
      | .msca acc pb vsa vsb =>
        let row (i : Nat) : Row := x.rows.get 0 i
        let rows := vsa.toNat :: vsb.toNat :: accRows acc
        let nan := (upFrom 0 16).any fun i =>
          (fp32.value (lane 32 (row vsa.toNat) i)).isNan || (fp32.value (lane 32 (row vsb.toNat) i)).isNan
        let offs := rows.map (fun r => (0x820000 + 64 * r, 64)) ++ [(partialOff pb, 0x200)]
        let corr := offs.any fun o => s.eccFixed (scratchKey t o.1) o.2
        let done (bits : Nat) (s : State) : State :=
          (s.onMat t fun m => { m with scRunning := none, status := statusAfter m.status c.iw bits }).settleZeros t
        match offs.find? fun o => s.eccBad (scratchKey t o.1) o.2 with
        | some o =>
          (done (sticky nan false corr true) (s.foundEcc (scratchKey t o.1) o.2)).noSlotRecord t .eccUe c.epc (BitVec.ofNat 64 o.1)
        | none =>
          let out := (upFrom 0 16).map fun i =>
            let es := (upFrom 0 16).map fun j =>
              scaleElement (lane 32 (row (16 * acc.toNat + i)) j) (x.mat.partialAt (256 * num pb + 16 * i + j))
                (lane 32 (row vsa.toNat) i) (lane 32 (row vsb.toNat) j)
            ((16 * acc.toNat + i, rowOf 32 (es.map (·.1))), es.any (·.2))
          done (sticky nan (out.any (·.2)) corr false) (s.writeRows t (out.map (·.1)))
      | _ => s)

end Sys2Proof.Machine
end

