-- ==== Sys2Proof/Machine/MigrationEvents.lean ====
section
/-! DEFINITION. Confidential migration: the MIGRATE command and the registrars' messages (R365 to R367, R381). -/

namespace Sys2Proof.Machine

/-! ## Messages and items (R367) -/

/-- A migration message before its signature. -/
def migBody (type : Nat) (id hash device : List Byte) : List Byte :=
  toBytes 8 type ++ padTo 32 id ++ padTo 64 hash ++ padTo 16 device ++ toBytes 72 0

def migType (m : List Byte) : Nat := ofBytes (m.take 1)
def migId (m : List Byte) : List Byte := (m.drop 8).take 32
def migHash (m : List Byte) : List Byte := (m.drop 40).take 64
def migDevice (m : List Byte) : List Byte := (m.drop 104).take 16

/-- Whether a message has a defined type and its signature verifies. -/
def migValid (m : List Byte) : Bool :=
  1 ≤ migType m && migType m ≤ 8 && Config.ed25519Verify (deviceKeyOf (migDevice m)) (m.take 192) ((m.drop 192).take 64)

/-- The registrar sends a payload over the mesh to a port, on the VC that names its channel (R359). -/
def State.queueOut (s : State) (port chan len : Nat) (payload : List Byte) : State :=
  s.inject (portNode (port / 8)) (portNode (port / 8)) chan (1 + ceilDiv len 32) 63 false (.linkOut port len payload)

/-- The registrar sends a message. -/
def State.sendMig (s : State) (port type : Nat) (id hash : List Byte) : State :=
  let body := migBody type id hash s.office.device
  s.queueOut port 7 256 (body ++ padTo 64 (Config.ed25519Sign deviceKey body))

/-- Bytes sent as frames of channel 3, 256 to a frame. -/
def State.sendBytes (s : State) (port : Nat) (bs : List Byte) : State :=
  (upFrom 0 ((bs.length + 255) / 256)).foldl (fun s i =>
    let part := (bs.drop (256 * i)).take 256
    s.queueOut port 3 part.length (padTo 256 part)) s

/-- The first payload for the registrar that a port has delivered, and the port without it. -/
def Port.takeMig (x : Port) : Option ((Byte × Nat × List Byte) × Port) :=
  match x.out.findIdx? fun y => y.1 = 3 || y.1 = 7 with
  | some i => some (x.out.getD i (0, 0, []), { x with out := x.out.eraseIdx i })
  | none => none

/-- Whether a message of a known migration comes from another module than the one it runs with (R367). -/
def State.migStranger (s : State) (m : List Byte) : Bool := s.migs.any fun x => x.id = migId m && x.device != migDevice m

/-- Serves the message at the head of a port when it has a type; one that does not verify under the device key of the
module at the link's other end is ignored (R367). -/
def State.onMessage (s : State) (b : BulkId) (p : Nat) (type : Nat) (act : State → List Byte → State) : State :=
  match (s.port b p).takeMig with
  | none => s
  | some (y, x) =>
    if y.1 != 7 then s
    else if !migValid y.2.2 || migDevice y.2.2 != padTo 16 (s.port b p).peer || s.migStranger y.2.2 then s.onPort b p fun _ => x
    else if migType y.2.2 = type then act (s.onPort b p fun _ => x) y.2.2
    else s

/-- An item of a manifest: KIND, NAME, and its bytes as sent. -/
structure Item where
  kind : Nat
  name : Word
  bytes : List Byte
  deriving DecidableEq, Repr

/-- A manifest item. -/
def Item.entry (x : Item) : List Byte :=
  toBytes 8 x.kind ++ bytesOf x.name ++ toBytes 8 x.bytes.length ++ toBytes 8 0 ++ padTo 64 (Config.sha512 x.bytes)

/-- The i-th item of a manifest: KIND, NAME, LENGTH, HASH. -/
def entryAt (manifest : List Byte) (i : Nat) : Nat × Word × Nat × List Byte :=
  let e := (manifest.drop (96 * i)).take 96
  (ofBytes (e.take 8), wordOf ((e.drop 8).take 8), ofBytes ((e.drop 16).take 8), e.drop 32)

/-- The items of a manifest with the bytes that follow it, in order. -/
def itemsOf (manifest got : List Byte) : List (Item × List Byte) :=
  ((upFrom 0 (manifest.length / 96)).foldl (fun (a : List (Item × List Byte) × List Byte) i =>
    let e := entryAt manifest i
    (a.1 ++ [({ kind := e.1, name := e.2.1, bytes := a.2.take e.2.2.1 }, e.2.2.2)], a.2.drop e.2.2.1)) ([], got)).1

/-- Bytes of all items of a manifest. -/
def itemsLength (manifest : List Byte) : Nat := ((upFrom 0 (manifest.length / 96)).map fun i => (entryAt manifest i).2.2.1).sum

/-! ## What a source sends (R365) -/

/-- Saved watches and group directory as words: counts, then each watch and each group. -/
def savedWords (ws : List Watch) (gs : Sparse (List TileName)) : List Word :=
  let w (n : Nat) : Word := BitVec.ofNat 64 n
  [w ws.length, w gs.length]
    ++ (ws.map fun (x : Watch) => [w x.home, w x.key, x.addr, x.target] ++
          (match x.kind with | .msg t q tag => [tileId t, zext q, zext tag] | .wake _ => [0, 0, 0])).flatten
    ++ (gs.map fun (g : Nat × List TileName) => [w (g.1 % 256), w g.2.length] ++ g.2.map tileId).flatten

/-- The pages of edge memory that hold a line under a key of a region, other than a list. -/
def State.pagesOf (s : State) (r : Nat) (but : List Nat) : List Nat :=
  let tokens := (s.slotsOf r).map s.token
  (((s.seals.filter fun (l : Nat × Seal) => tokens.contains l.2.token).map fun l => l.1 * 64 / 4096 * 4096).eraseDups).filter
    fun p => !but.contains p

/-- The 32 bytes of the key with a serial number (R316). -/
def keyBytes (token : Nat) : List Byte := padTo 32 (Config.identity (2 ^ 130 + token))

/-- The items of a saved region: a page goes under the virtual address at which the region's stations map it, a value left
open where none does; a key slot goes wrapped under the secret of the link (R365, R367). -/
def State.itemsFrom (s : State) (r port : Nat) : List Item :=
  let secret := (s.port (port / 8) (port % 8)).secret
  let x := s.region r
  let page (p : Nat) : List Byte := s.mem.readN (physKey p) 4096
  let images := x.images.map fun t =>
    { kind := 1, name := tileId t, bytes := ((((x.pages.get [] t).map page).flatten).take 0x37400) : Item }
  let data := (s.pagesOf r ((x.pages.map (·.2)).flatten)).zipIdx.map fun p =>
    { kind := 2, name := (s.virtualOf r p.1).getD (Config.freeWord (s.free + 1 + p.2)), bytes := page p.1 : Item }
  let keys := (s.ksel.filter fun (k : Nat × Nat) => k.1 / 8 = r).map fun k =>
    { kind := 4, name := BitVec.ofNat 64 (k.1 % 8), bytes := Config.wrapKey secret (keyBytes (s.token k.2)) : Item }
  images ++ data ++ [{ kind := 3, name := 0, bytes := ((savedWords x.watches x.groups).map bytesOf).flatten }] ++ keys

/-- The port over which a migration to a module runs: the first that is UP and whose link was agreed with it. -/
def State.migPort (s : State) (device : List Byte) : Option Nat :=
  (List.find? (fun (p : Nat × Port) => p.2.st == 1 && padTo 16 p.2.peer == device) s.ports).map (·.1)

/-- Whether the other module's attestation report and certificate are those of a DEVICE: the report is signed with its
device key, and the certificate is the root key's signature over that key (R350, R365; the certificate's form is a DESIGN
CHOICE, log entry 87). -/
def State.attested (s : State) (port : Nat) (device : List Byte) : Bool :=
  let x := s.port (port / 8) (port % 8)
  (x.peerReport.drop 8).take 16 = device
    && Config.ed25519Verify (deviceKeyOf device) (x.peerReport.take 448) ((x.peerReport.drop 448).take 64)
    && Config.ed25519Verify s.office.rootKey (deviceKeyOf device) x.peerCert

/-! ## Records of migrations -/

def State.mig? (s : State) (source : Bool) (id : List Byte) : Option Mig := s.migs.find? fun x => x.source = source && x.id = id
def State.onMig (s : State) (source : Bool) (id : List Byte) (f : Mig → Mig) : State :=
  { s with migs := s.migs.map fun x => if x.source = source && x.id = id then f x else x }
def State.stageMig (s : State) (x : Mig) (n : Nat) : State := s.onMig x.source x.id fun y => { y with stage := n }

/-- The arguments of a MIGRATE command. -/
def State.migArg (s : State) (m : BitVec 2) : List Byte := s.mailBytes m 0x020 32

/-- Whether a MIGRATE command with an operation stands in a mailbox, and whether it may begin. -/
def State.migCommand (s : State) (m : BitVec 2) (op : Nat) : Bool := s.command m = some .migrate && s.mail m 0x009 1 = op

/-- A migration is prepared at its source: PREPARE, the manifest, and each item in its order. -/
def State.migStart (s : State) (m : BitVec 2) (r port : Nat) : State :=
  let items := s.itemsFrom r port
  let manifest := (items.map Item.entry).flatten
  let hash := padTo 64 (Config.sha512 manifest)
  let x : Mig := { region := r, id := s.migArg m, device := s.mailBytes m 0x010 16, source := true, stage := 0, hash := hash,
                   manifest := manifest, whole := true, got := [], slots := [], port := port }
  let s := { s with free := s.free + 1 + items.length, migs := s.migs.filter (fun (y : Mig) => !(y.source && y.id = x.id)) ++ [x] }
  let s := (s.sendMig port 1 x.id hash).sendBytes port manifest
  (items.foldl (fun s i => s.sendBytes port i.bytes) s).setJob m (.migrate r)

/-- `MIGRATE_START` (R365, R381): refused unless a link to the module is UP and the destination's report and certificate
verify. -/
def execMigrateStart (m : BitVec 2) (s : State) : Result :=
  let r := s.mail m 0x008 1
  let device := s.mailBytes m 0x010 16
  s.serving m .migrate (s.mail m 0x009 1 = 0) (s.asOwner m
    (match s.regions.find? r, s.migPort device with
     | none, _ => s.answer m .noRegion []
     | some _, none => s.answer m .refused []
     | some x, some port =>
       if !x.released || !x.saved.isEmpty || s.migs.any (fun (y : Mig) => y.source && y.region = r && y.stage < 3)
           || !s.attested port device then s.answer m .refused []
       else s.migStart m r port))

/-- `MIGRATE_CANCEL` (R366, R381): before a valid ACCEPT it aborts the migration; later it has no effect. -/
def execMigrateCancel (m : BitVec 2) (s : State) : Result :=
  let j := s.job m
  let free := match j with | .idle | .migrate _ => true | _ => false
  .next (if !s.migCommand m 1 || !free then s
    else s.asOwner m (match s.mig? true (s.migArg m) with
      | none => s.answer m .refused []
      | some x =>
        if x.stage = 0 then
          (((s.stageMig x 4).answerJobs (.migrate x.region) .aborted []).sendMig x.port 5 x.id (toBytes 64 0)).answer m .ok []
        else if x.stage = 4 then s.answer m .refused []
        else (s.answer m .committed []).setJob m j))

/-! ## The destination (R365, R366) -/

/-- The destination discards a migration: its slots are zeroised, its region id is free. -/
def State.discardMig (s : State) (x : Mig) (stage : Nat) : State :=
  let s := s.freeKeys x.region
  ({ s with regions := s.regions.del x.region }).onMig false x.id fun y => { y with stage := stage, got := [] }

/-- `MIGRATION_PREPARE` (R365): a free region id is reserved, or the answer is REFUSED. -/
def execMigrationPrepare (b : BulkId) (p : Nat) (s : State) : Result :=
  .next (s.onMessage b p 1 fun s m =>
    match s.freeRegion with
    | none => s.sendMig (8 * b + p) 7 (migId m) (migHash m)
    | some r =>
      let x : Mig := { region := r, id := migId m, device := migDevice m, source := false, stage := 0, hash := migHash m,
                       manifest := [], whole := false, got := [], slots := [], port := 8 * b + p }
      if (match s.mig? false x.id with | some y => decide (y.stage < 4) | none => false) then s
      else { s with migs := s.migs.filter (fun (y : Mig) => y.source || y.id != x.id) ++ [x] }.onRegion r fun _ => Region.reset)

/-- The tile that a NAME of KIND 1 gives. -/
def tileNamed (w : Word) : TileName := field w 24 19

/-- The tiles and the bulkheads that a manifest names. -/
def manifestTiles (manifest : List Byte) : List TileName :=
  ((upFrom 0 (manifest.length / 96)).map fun i => entryAt manifest i).filterMap fun e =>
    if e.1 = 1 then some (tileNamed e.2.1) else none
def manifestBulks (manifest : List Byte) : List BulkId := ((manifestTiles manifest).map fun t => TileName.ret t).eraseDups
def manifestKeys (manifest : List Byte) : List Nat :=
  ((upFrom 0 (manifest.length / 96)).map fun i => entryAt manifest i).filterMap fun e =>
    if e.1 = 4 then some e.2.1.toNat else none

/-- Whether the destination can reserve what a manifest names: the bulkheads are UNASSIGNED, the tiles exist, each key
names a KSEL of its own, and key slots are free. -/
def State.migFits (s : State) (manifest : List Byte) : Bool :=
  let bs := manifestBulks manifest
  (bs.all fun b => (s.bulk b).st = .unassigned && !(s.bulk b).retired && !s.reserved b)
    && bs.any s.hasStation && (manifestTiles manifest).all s.tileExists
    && (manifestKeys manifest).length ≤ s.freeSlots.length && !(manifestKeys manifest).isEmpty
    && ((manifestKeys manifest).all fun k => k < 8) && decide (manifestKeys manifest).Nodup

/-- The first page of a module of edge memory after every page that holds a sealed line. -/
def State.firstBlankPage (s : State) (b : BulkId) : Nat :=
  s.seals.foldl (fun n l => if paBulk (l.1 * 64) = b then max n (l.1 * 64 / 4096 * 4096 + 4096) else n) (b * 2 ^ 42)

/-- Stores bytes in pages of edge memory from an address, sealed under a key. -/
def State.storePages (s : State) (pa token : Nat) (bs : List Byte) : State :=
  { s with mem := s.mem.writeN (physKey pa) bs,
           seals := (upFrom (pa / 64) ((bs.length + 63) / 64)).foldl
             (fun m l => Sparse.put m l { token := token, ok := true, minor := 1 }) s.seals }

/-- An image with its MAPGEN entry rewritten (R365). -/
def imageWithGen (img : List Byte) (gen : BitVec 32) : List Byte := img.take 0x28020 ++ toBytes 4 gen.toNat ++ img.drop 0x28024

/-- The watches and groups of a KIND 3 item. -/
def watchOfWords (ws : List Word) : Watch :=
  let w (i : Nat) : Word := ws.getD i 0
  { id := 0, home := (w 0).toNat, key := (w 1).toNat, addr := w 2, target := w 3,
    kind := .msg (tileNamed (w 4)) (BitVec.ofNat 3 (w 5).toNat) (BitVec.ofNat 16 (w 6).toNat), active := false,
    windowed := none }

/-- Groups of a KIND 3 item, for a region. -/
def groupsOfWords (r : Nat) : Nat → List Word → Sparse (List TileName)
  | 0, _ => []
  | n + 1, ws =>
    let k := (ws.getD 1 0).toNat
    Sparse.put (groupsOfWords r n (ws.drop (2 + k))) (256 * r + (ws.getD 0 0).toNat % 256) (((ws.drop 2).take k).map tileNamed)

/-- One item is stored at the destination: keys into free slots, images and pages into edge memory under the region's
first key, watches and groups with the region. -/
def State.storeItem (s : State) (r : Nat) (station : BulkId) (x : Item) : State :=
  let slot := (s.ksel.find? (8 * r)).getD 0
  let pa := s.firstBlankPage station
  if x.kind = 1 then
    let t := tileNamed x.name
    (s.storePages pa (s.token slot) (imageWithGen x.bytes s.mapgen)).onRegion r fun y =>
      { y with images := y.images ++ [t], pages := y.pages.put t ((upFrom 0 56).map fun i => pa + 4096 * i) }
  else if x.kind = 2 then
    (s.storePages pa (s.token slot) x.bytes).onRegion r fun y => { y with edge := y.edge ++ [(x.name, pa)] }
  else if x.kind = 3 then
    let ws := (upFrom 0 (x.bytes.length / 8)).map fun i => wordOf ((x.bytes.drop (8 * i)).take 8)
    let n := (ws.getD 0 0).toNat
    s.onRegion r fun y =>
      { y with watches := (upFrom 0 n).map fun i => watchOfWords (ws.drop (2 + 7 * i)),
               groups := groupsOfWords r (ws.getD 1 0).toNat (ws.drop (2 + 7 * n)) }
  else s

/-- A key that arrived wrapped, by a serial number of its own (R365). -/
def wrappedToken (secret bytes : List Byte) : Nat := 2 ^ 64 + ofBytes (Config.unwrapKey secret bytes)

/-- The keys that a manifest names are loaded into the slots reserved for them, each unwrapped under the secret of the
link. -/
def State.storeKeys (s : State) (r : Nat) (secret : List Byte) (slots : List Nat) (items : List Item) : State :=
  ((items.filter fun i => i.kind = 4).zip slots).foldl (fun s k =>
    let s := s.liveSlot r k.1.name.toNat k.2
    { s with keys := s.keys.put k.2 { token := wrappedToken secret k.1.bytes, region := r } }) s

/-- All items have arrived: every hash is checked, the items are stored, and ACCEPT is sent; a wrong hash is answered
with REFUSED. -/
def State.migAccept (s : State) (x : Mig) : State :=
  let items := itemsOf x.manifest x.got
  let bs := manifestBulks x.manifest
  let station := (bs.find? s.hasStation).getD 0
  if items.all fun i => padTo 64 (Config.sha512 i.1.bytes) == i.2 then
    let s := s.storeKeys x.region (s.port (x.port / 8) (x.port % 8)).secret x.slots (items.map (·.1))
    let s := items.foldl (fun s i => s.storeItem x.region station i.1) s
    let s := s.onRegion x.region fun y => { y with released := true, imageGen := s.mapgen, mImage := toBytes 64 0, mCode := toBytes 64 0 }
    (s.onMig false x.id fun y => { y with stage := 1, got := [] }).sendMig x.port 2 x.id x.hash
  else (s.discardMig x 4).sendMig x.port 7 x.id x.hash

/-- Bytes of channel 3 for a migration: first the manifest, whose end its hash shows, then the items. -/
def State.migBytes (s : State) (x : Mig) (bs : List Byte) : State :=
  if !x.whole then
    let manifest := x.manifest ++ bs
    if padTo 64 (Config.sha512 manifest) != x.hash then s.onMig false x.id fun y => { y with manifest := manifest }
    else if !s.migFits manifest then (s.discardMig x 4).sendMig x.port 7 x.id x.hash
    else
      let slots := s.freeSlots.take (manifestKeys manifest).length
      (s.onMig false x.id fun y => { y with manifest := manifest, whole := true, slots := slots }).onRegion x.region fun y =>
        { y with bulks := manifestBulks manifest }
  else
    let y := { x with got := x.got ++ bs }
    let s := s.onMig false x.id fun _ => y
    if itemsLength y.manifest ≤ y.got.length then s.migAccept y else s

/-- `MIGRATION_ITEM` (R367): a frame of the manifest or of an item arrives. -/
def execMigrationItem (b : BulkId) (p : Nat) (s : State) : Result :=
  .next (match (s.port b p).takeMig with
    | none => s
    | some (y, x) =>
      if y.1 != 3 then s
      else
        let s := s.onPort b p fun _ => x
        match s.migs.find? fun z => !z.source && z.port = 8 * b + p && z.stage = 0 with
        | none => s
        | some z => s.migBytes z (y.2.2.take y.2.1))

/-! ## ACCEPT, COMMIT, DONE (R365, R366) -/

/-- `MIGRATION_ACCEPT`: the point of no return. The source tears the region down and sends COMMIT; an ACCEPT of an
aborted migration is answered ABORTED, one of an unknown migration LOST. -/
def execMigrationAccept (b : BulkId) (p : Nat) (s : State) : Result :=
  .next (s.onMessage b p 2 fun s m =>
    match s.mig? true (migId m) with
    | none => s.sendMig (8 * b + p) 8 (migId m) (toBytes 64 0)
    | some x =>
      if x.stage = 4 then s.sendMig (8 * b + p) 6 x.id x.hash
      else if x.stage = 0 && x.hash = migHash m && x.device = migDevice m then
        ((s.stageMig x 2).startTeardown x.region).sendMig (8 * b + p) 3 x.id x.hash
      else s)

/-- Whether one of the first n lines of a page does not read under a key: its seal or its ECC fails. -/
def State.pageLost (s : State) (token pa n : Nat) : Bool :=
  (upFrom 0 n).any fun i => !s.lineOk (pa + 64 * i) token || s.eccBad (physKey (pa + 64 * i)) 64

/-- A source that reconnects sends the COMMIT of each migration to that module that is not done again (R366; what it sends
is a DESIGN CHOICE, log entry 89). -/
def State.askAgain (s : State) (b : BulkId) (p : Nat) : State :=
  (s.migs.filter fun x => x.source && x.stage = 2 && x.device = padTo 16 (s.port b p).peer).foldl (fun s x =>
    (s.onMig true x.id fun y => { y with port := 8 * b + p }).sendMig (8 * b + p) 3 x.id x.hash) s

/-- `LINK_TRAINING_COMPLETE` (R355, R358, R364, R366): a port that trains negotiates versions, and is UP. -/
def execLinkTrainingComplete (b : BulkId) (p : Nat) (s : State) : Result :=
  let s1 := s.onPort b p fun x => if x.st = 3 then x.trained else x
  .next (if (s.port b p).st = 3 && (s1.port b p).st = 1 then s1.askAgain b p else s1)

/-- Whether the destination's copy of a region is lost: its key slot, or a line of an image or of an edge page (R366). -/
def State.copyLost (s : State) (r : Nat) : Bool :=
  let token := s.token ((s.ksel.find? (8 * r)).getD 0)
  token = 0 || ((s.region r).pages.any fun (p : Nat × List Nat) =>
      (p.2.take 56).zipIdx.any fun a => s.pageLost token a.1 (if a.2 = 55 then 16 else 64))
    || (s.region r).edge.any fun p => s.pageLost token p.2 64

/-- The destination reports its copy lost. -/
def State.loseCopy (s : State) (x : Mig) : State :=
  ((s.answerJobs (.migrate x.region) .migrationLost []).discardMig x 5).sendMig x.port 8 x.id (toBytes 64 0)

/-- The registrar checks the copies of the migrations that it has accepted and not restored: one that is lost is reported
(R366). -/
def State.checkCopies (s : State) : State :=
  (s.migs.filter fun x => !x.source && x.stage = 1).foldl (fun s x => if s.copyLost x.region then s.loseCopy x else s) s

/-- The restore of an accepted migration begins (R338). -/
def State.migRestore (s : State) (x : Mig) : State :=
  if s.copyLost x.region then s.loseCopy x
  else if s.restoreBlocked x.region then s
  else (s.stageMig x 2).restoreStart x.region

/-- The restore ends once every tile has been loaded: DONE is sent. -/
def State.migFinish (s : State) (x : Mig) : State :=
  if s.allEnded (s.region x.region).images then
    (((s.restoreEnd x.region).stageMig x 3).answerJobs (.migrate x.region) .ok []).sendMig x.port 4 x.id x.hash
  else if (s.region x.region).images.any (fun t => (s.tile t).preErr) && s.copyLost x.region then s.loseCopy x
  else s

/-- `MIGRATION_COMMIT`: the destination restores the region, and when that is complete answers DONE. A source that
reconnects sends COMMIT again: a restored copy is answered DONE, a lost one or one of no record LOST (R366). -/
def execMigrationCommit (b : BulkId) (p : Nat) (s : State) : Result :=
  let going := s.migs.find? fun x => !x.source && x.port = 8 * b + p && x.stage = 2
  .next (match going with
    | some x => s.migFinish x
    | none => s.onMessage b p 3 fun s m =>
      match s.mig? false (migId m) with
      | some x =>
        if x.stage = 1 then s.migRestore x
        else if x.stage = 3 then s.sendMig (8 * b + p) 4 x.id x.hash
        else if x.stage = 5 then s.sendMig (8 * b + p) 8 x.id (toBytes 64 0)
        else s
      | none => s.sendMig (8 * b + p) 8 (migId m) (toBytes 64 0))

/-- `MIGRATE_RESTORE` (R366, R381): the destination owner orders the restore under the signed ACCEPT; it completes
with the last tile. -/
def execMigrateRestore (m : BitVec 2) (s : State) : Result :=
  let x? := s.mig? false (s.migArg m)
  .next (if !s.migCommand m 2 then s
    else match s.job m, x? with
      | .idle, some x => s.asOwner m
          (if x.stage = 1 then (s.setJob m (.migrate x.region)).migRestore x
           else if x.stage = 2 then s.setJob m (.migrate x.region)
           else if x.stage = 3 then s.answer m .ok []
           else if x.stage = 4 then s.answer m .aborted []
           else if x.stage = 5 then s.answer m .migrationLost []
           else s.answer m .refused [])
      | .idle, none => s.asOwner m (s.answer m .migrationLost [])
      | .migrate _, some x => if x.stage = 1 then s.migRestore x else if x.stage = 2 then s.migFinish x else s
      | _, _ => s)

/-- `MIGRATION_DONE`: the source's command completes OK. -/
def execMigrationDone (b : BulkId) (p : Nat) (s : State) : Result :=
  .next (s.onMessage b p 4 fun s m =>
    match s.mig? true (migId m) with
    | some x => if x.stage = 2 then (s.stageMig x 3).answerJobs (.migrate x.region) .ok [] else s
    | none => s)

/-! ## CANCEL, ABORTED, REFUSED, LOST (R365, R366) -/

/-- The end of a migration that the other side reports, at either side, at a stage below a bound. -/
def State.endMig (s : State) (id : List Byte) (bound stage : Nat) (st : Status) : State :=
  let s := match s.mig? false id with
    | some x => if x.stage < bound then (s.answerJobs (.migrate x.region) st []).discardMig x stage else s
    | none => s
  match s.mig? true id with
  | some x => if x.stage < bound then (s.stageMig x stage).answerJobs (.migrate x.region) st [] else s
  | none => s

/-- `MIGRATION_CANCEL`: a migration whose COMMIT has not arrived is discarded at the destination. -/
def execMigrationCancel (b : BulkId) (p : Nat) (s : State) : Result :=
  .next (s.onMessage b p 5 fun s m =>
    match s.mig? false (migId m) with
    | some x => if x.stage < 2 then (s.answerJobs (.migrate x.region) .aborted []).discardMig x 4 else s
    | none => s)

/-- `MIGRATION_ABORTED`: the migration was cancelled before its ACCEPT was served. -/
def execMigrationAborted (b : BulkId) (p : Nat) (s : State) : Result :=
  .next (s.onMessage b p 6 fun s m => match s.mig? true (migId m) with
    | some x => if x.stage = 0 then s.endMig (migId m) 2 4 .aborted else s
    | none => s.endMig (migId m) 2 4 .aborted)

/-- `MIGRATION_REFUSED`: the destination cannot reserve the bulkheads. -/
def execMigrationRefused (b : BulkId) (p : Nat) (s : State) : Result :=
  .next (s.onMessage b p 7 fun s m =>
    match s.mig? true (migId m) with
    | some x => if x.stage = 0 then (s.stageMig x 4).answerJobs (.migrate x.region) .refused [] else s
    | none => s)

/-- `MIGRATION_LOST`: the only copy of the region is lost. -/
def execMigrationLost (b : BulkId) (p : Nat) (s : State) : Result :=
  .next (s.onMessage b p 8 fun s m => s.endMig (migId m) 3 5 .migrationLost)

end Sys2Proof.Machine
end

