-- ==== Sys2Proof/Machine/Scalar.lean ====
section
/-! DEFINITION. Scalar, control and extension-register instructions (R126 to R152). -/

namespace Sys2Proof.Machine

/-! ## ALU group (R131 to R133) -/

/-- `ADD` (R131). -/
def execAdd (d a b : Reg) (s : State) : Result := .next (s.put d (s.rd a + s.rd b))

/-- `SUB` (R131). -/
def execSub (d a b : Reg) (s : State) : Result := .next (s.put d (s.rd a - s.rd b))

/-- `AND` (R131). -/
def execAnd (d a b : Reg) (s : State) : Result := .next (s.put d (s.rd a &&& s.rd b))

/-- `OR` (R131). -/
def execOr (d a b : Reg) (s : State) : Result := .next (s.put d (s.rd a ||| s.rd b))

/-- `XOR` (R131). -/
def execXor (d a b : Reg) (s : State) : Result := .next (s.put d (s.rd a ^^^ s.rd b))

/-- `ANDN` (R131). -/
def execAndn (d a b : Reg) (s : State) : Result := .next (s.put d (s.rd a &&& ~~~(s.rd b)))

/-- `SHL` (R131). -/
def execShl (d a b : Reg) (s : State) : Result := .next (s.put d (s.rd a <<< field (s.rd b) 0 6))

/-- `SHR` (R131). -/
def execShr (d a b : Reg) (s : State) : Result := .next (s.put d (s.rd a >>> field (s.rd b) 0 6))

/-- `SHA` (R131). -/
def execSha (d a b : Reg) (s : State) : Result := .next (s.put d ((s.rd a).sshiftRight (field (s.rd b) 0 6)))

/-- `ROT` (R131). -/
def execRot (d a b : Reg) (s : State) : Result := .next (s.put d ((s.rd a).rotateRight (field (s.rd b) 0 6)))

/-- `MUL` (R131). -/
def execMul (d a b : Reg) (s : State) : Result := .next (s.put d (s.rd a * s.rd b))

/-- `MULH` (R131). -/
def execMulh (d a b : Reg) (s : State) : Result := .next (s.put d (mulHigh (s.rd a) (s.rd b)))

/-- `MULHN` (R131). -/
def execMulhn (d a b : Reg) (s : State) : Result := .next (s.put d (mulHighN (s.rd a) (s.rd b)))

/-- `DIV` (R132). -/
def execDiv (d a b : Reg) (s : State) : Result := .next (s.put d ((divSigned (s.rd a) (s.rd b)).1))

/-- `DIVN` (R132). -/
def execDivn (d a b : Reg) (s : State) : Result := .next (s.put d ((divUnsigned (s.rd a) (s.rd b)).1))

/-- `REM` (R132). -/
def execRem (d a b : Reg) (s : State) : Result := .next (s.put d ((divSigned (s.rd a) (s.rd b)).2))

/-- `REMN` (R132). -/
def execRemn (d a b : Reg) (s : State) : Result := .next (s.put d ((divUnsigned (s.rd a) (s.rd b)).2))

/-- `MIN` (R131). -/
def execMin (d a b : Reg) (s : State) : Result := .next (s.put d (pickIf ((s.rd b).slt (s.rd a)) (s.rd b) (s.rd a)))

/-- `MAX` (R131). -/
def execMax (d a b : Reg) (s : State) : Result := .next (s.put d (pickIf ((s.rd a).slt (s.rd b)) (s.rd b) (s.rd a)))

/-- `MINN` (R131). -/
def execMinn (d a b : Reg) (s : State) : Result := .next (s.put d (pickIf ((s.rd b).ult (s.rd a)) (s.rd b) (s.rd a)))

/-- `MAXN` (R131). -/
def execMaxn (d a b : Reg) (s : State) : Result := .next (s.put d (pickIf ((s.rd a).ult (s.rd b)) (s.rd b) (s.rd a)))

/-- `SEQ` (R131). -/
def execSeq (d a b : Reg) (s : State) : Result := .next (s.put d (flag (s.rd a == s.rd b)))

/-- `SLT` (R131). -/
def execSlt (d a b : Reg) (s : State) : Result := .next (s.put d (flag ((s.rd a).slt (s.rd b))))

/-- `SLTN` (R131). -/
def execSltn (d a b : Reg) (s : State) : Result := .next (s.put d (flag ((s.rd a).ult (s.rd b))))

/-- `SEL` (R131). -/
def execSel (d a b : Reg) (s : State) : Result := .next (s.put d ((s.rd a &&& s.rd d) ||| (s.rd b &&& ~~~(s.rd d))))

/-- `ADDSH1` (R131). -/
def execAddsh1 (d a b : Reg) (s : State) : Result := .next (s.put d ((s.rd a <<< 1) + s.rd b))

/-- `ADDSH2` (R131). -/
def execAddsh2 (d a b : Reg) (s : State) : Result := .next (s.put d ((s.rd a <<< 2) + s.rd b))

/-- `ADDSH3` (R131). -/
def execAddsh3 (d a b : Reg) (s : State) : Result := .next (s.put d ((s.rd a <<< 3) + s.rd b))

/-- `POPC` (R131). -/
def execPopc (d a : Reg) (s : State) : Result := .next (s.put d (BitVec.ofNat 64 (popCount (s.rd a))))

/-- `CLZ` (R131). -/
def execClz (d a : Reg) (s : State) : Result := .next (s.put d (BitVec.ofNat 64 (leadingZeros (s.rd a))))

/-- `CTZ` (R131). -/
def execCtz (d a : Reg) (s : State) : Result := .next (s.put d (BitVec.ofNat 64 (trailingZeros (s.rd a))))

/-- `BEXT` (R133). -/
def execBext (d a b : Reg) (s : State) : Result := .next (s.put d (BitVec.ofNat 64 (extractField (s.rd a) (s.rd b))))

/-- `BEXTS` (R133). -/
def execBexts (d a b : Reg) (s : State) : Result := .next (s.put d (extractSigned (s.rd a) (s.rd b)))

/-- `BINS` (R133). -/
def execBins (d a b : Reg) (s : State) : Result := .next (s.put d (insertField (s.rd d) (s.rd a) (s.rd b)))

/-- `MOV` (R131). -/
def execMov (d a : Reg) (s : State) : Result := .next (s.put d (s.rd a))

/-! ## Immediates (R134) -/

/-- `ADDI` (R134). -/
def execAddi (d a : Reg) (imm : BitVec 15) (s : State) : Result := .next (s.put d (s.rd a + sext imm))

/-- `ANDI` (R134). -/
def execAndi (d a : Reg) (imm : BitVec 13) (s : State) : Result := .next (s.put d (s.rd a &&& sext imm))

/-- `ORI` (R134). -/
def execOri (d a : Reg) (imm : BitVec 13) (s : State) : Result := .next (s.put d (s.rd a ||| sext imm))

/-- `XORI` (R134). -/
def execXori (d a : Reg) (imm : BitVec 13) (s : State) : Result := .next (s.put d (s.rd a ^^^ sext imm))

/-- `SLTI` (R134). -/
def execSlti (d a : Reg) (imm : BitVec 13) (s : State) : Result := .next (s.put d (flag ((s.rd a).slt (sext imm))))

/-- `SHLI` (R134). -/
def execShli (d a : Reg) (n : BitVec 6) (s : State) : Result := .next (s.put d (s.rd a <<< n.toNat))

/-- `SHRI` (R134). -/
def execShri (d a : Reg) (n : BitVec 6) (s : State) : Result := .next (s.put d (s.rd a >>> n.toNat))

/-- `SHAI` (R134). -/
def execShai (d a : Reg) (n : BitVec 6) (s : State) : Result := .next (s.put d ((s.rd a).sshiftRight n.toNat))

/-- `ROTI` (R134). -/
def execRoti (d a : Reg) (n : BitVec 6) (s : State) : Result := .next (s.put d ((s.rd a).rotateRight n.toNat))

/-- `MOVI` (R134). -/
def execMovi (d : Reg) (imm : BitVec 20) (s : State) : Result := .next (s.put d (sext imm))

/-- `LIH` (R134). -/
def execLih (d : Reg) (imm : BitVec 20) (s : State) : Result := .next (s.put d ((sext imm <<< 20) ||| (s.rd d &&& 0xFFFFF#64)))

/-! ## Loads and stores (R136 to R144) -/

/-- `LDB` (R136, R137). -/
def execLdb (d a : Reg) (off : BitVec 12) (s : State) : Result :=
  .next (s.loadAt 1 false d (s.ea a off))

/-- `LDH` (R136, R137). -/
def execLdh (d a : Reg) (off : BitVec 12) (s : State) : Result :=
  .next (s.loadAt 2 false d (s.ea a off))

/-- `LDW` (R136, R137). -/
def execLdw (d a : Reg) (off : BitVec 12) (s : State) : Result :=
  .next (s.loadAt 4 false d (s.ea a off))

/-- `LDD` (R136, R137). -/
def execLdd (d a : Reg) (off : BitVec 12) (s : State) : Result :=
  .next (s.loadAt 8 false d (s.ea a off))

/-- `LDBS` (R136, R137). -/
def execLdbs (d a : Reg) (off : BitVec 12) (s : State) : Result :=
  .next (s.loadAt 1 true d (s.ea a off))

/-- `LDHS` (R136, R137). -/
def execLdhs (d a : Reg) (off : BitVec 12) (s : State) : Result :=
  .next (s.loadAt 2 true d (s.ea a off))

/-- `LDWS` (R136, R137). -/
def execLdws (d a : Reg) (off : BitVec 12) (s : State) : Result :=
  .next (s.loadAt 4 true d (s.ea a off))

/-- `STB` (R136, R137). -/
def execStb (c a : Reg) (off : BitVec 12) (s : State) : Result :=
  .next (s.storeAt (toBytes 1 (s.rd c).toNat) (s.ea a off))

/-- `STH` (R136, R137). -/
def execSth (c a : Reg) (off : BitVec 12) (s : State) : Result :=
  .next (s.storeAt (toBytes 2 (s.rd c).toNat) (s.ea a off))

/-- `STW` (R136, R137). -/
def execStw (c a : Reg) (off : BitVec 12) (s : State) : Result :=
  .next (s.storeAt (toBytes 4 (s.rd c).toNat) (s.ea a off))

/-- `STD` (R136, R137). -/
def execStd (c a : Reg) (off : BitVec 12) (s : State) : Result :=
  .next (s.storeAt (toBytes 8 (s.rd c).toNat) (s.ea a off))

/-! ## Branches and jumps (R145, R146) -/

/-- `BEQ` (R145). -/
def execBeq (a c : Reg) (off : BitVec 12) (s : State) : Result := .next (s.branchIf (s.rd a == s.rd c) (halfwords off))

/-- `BNE` (R145). -/
def execBne (a c : Reg) (off : BitVec 12) (s : State) : Result := .next (s.branchIf (s.rd a != s.rd c) (halfwords off))

/-- `BLT` (R145). -/
def execBlt (a c : Reg) (off : BitVec 12) (s : State) : Result := .next (s.branchIf ((s.rd a).slt (s.rd c)) (halfwords off))

/-- `BGE` (R145). -/
def execBge (a c : Reg) (off : BitVec 12) (s : State) : Result := .next (s.branchIf (!(s.rd a).slt (s.rd c)) (halfwords off))

/-- `BLTN` (R145). -/
def execBltn (a c : Reg) (off : BitVec 12) (s : State) : Result := .next (s.branchIf ((s.rd a).ult (s.rd c)) (halfwords off))

/-- `BGEN` (R145). -/
def execBgen (a c : Reg) (off : BitVec 12) (s : State) : Result := .next (s.branchIf (!(s.rd a).ult (s.rd c)) (halfwords off))

/-- `BBS` (R145). -/
def execBbs (a c : Reg) (off : BitVec 12) (s : State) : Result := .next (s.branchIf (bit (s.rd a) (field (s.rd c) 0 6)) (halfwords off))

/-- `BBC` (R145). -/
def execBbc (a c : Reg) (off : BitVec 12) (s : State) : Result := .next (s.branchIf (!bit (s.rd a) (field (s.rd c) 0 6)) (halfwords off))

/-- `B` (R146). -/
def execB (off : BitVec 25) (s : State) : Result := .next (s.branchIf true (halfwords off))

/-- `CALL`: the link is the address of the instruction plus 4 (R146). -/
def execCall (off : BitVec 25) (s : State) : Result :=
  .next ((s.wr 1 (s.pc + 4)).onCtx fun x => x.callTo (x.pc + halfwords off))

/-- `J` (R146). -/
def execJ (a : Reg) (off : BitVec 14) (s : State) : Result :=
  .next (s.onCtx fun x => x.branchTo (x.get a + sext off))

/-- `JAL`: the target comes from A before the link is written (R146). -/
def execJal (d a : Reg) (off : BitVec 14) (s : State) : Result :=
  .next ((s.wr d (s.pc + 4)).onCtx fun x => x.callTo (s.rd a + sext off))

/-! ## Loops and extension registers (R148, R152) -/

/-- Makes a level: the only level is held in LOOP0, a second one in LOOP1 (R148, R151). A core's own code
keeps the upper start bits beside it (R305). -/
def Ctx.pushLoop (c : Ctx) (high start : Word) (len count : Nat) : Ctx :=
  if loopValid c.loop0 then { c with loop1 := loopWord start len count, loopH1 := high }
  else { c with loop0 := loopWord start len count, loopH0 := high }

/-- `LOOP` (R148). With a count of 0 it must know the length of the instruction at its end; where that halfword cannot
be fetched, the spec is silent, and the model traps precisely at the `LOOP` with the cause of the fetch (log entry
103). -/
def execLoop (a : Reg) (len : BitVec 12) (s : State) : Result :=
  let x := s.pc
  let last := x + halfwords (len.zeroExtend 13)
  let start := x + 4
  let high : Word := if s.onCoreNow && s.homeTile.isNone then BitVec.ofNat 64 (start.toNat / 2 ^ 18 * 2 ^ 18) else 0
  if loopValid s.ctx.loop1 then .next (s.trap .loopDepth x)
  else if field (s.rd a) 0 32 = 0 then
    match s.fetchHalf last with
    | .error (.trap cause eval) => .next (s.trap cause eval)
    | .error (.ask a) => .next (s.askXlat a .x).retry
    | .ok h => .next (h.2.onCtx fun c => c.endAction x (last + (if isWide h.1 then 4 else 2)))
  else .next (s.onCtx fun c => { c.pushLoop high start len.toNat (field (s.rd a) 0 32) with pc := start, noEnd := false })

/-- `XSET` (R152). -/
def execXset (k : EReg) (a : Reg) (s : State) : Result := .next (s.setCtx (s.ctx.eset k (s.rd a))).retire

/-- `XGET` (R152). -/
def execXget (d : Reg) (k : EReg) (s : State) : Result := .next (s.put d (s.erd k))

/-- `NOP`, and every word of major 0x1F (R105). -/
def execNop (s : State) : Result := .next s.retire

end Sys2Proof.Machine
end

