-- ==== Sys2Proof/Machine/Dispatch.lean ====
section
/-! DEFINITION. The meaning of every instruction: one arm per constructor. -/

namespace Sys2Proof.Machine

/-- What an instruction or event does. -/
def exec (i : Instr) (s : State) : Host.Outcome State Fault Refusal :=
  match i with
  | .add d a b => Sys2Proof.Machine.execAdd d a b s
  | .sub d a b => Sys2Proof.Machine.execSub d a b s
  | .and d a b => Sys2Proof.Machine.execAnd d a b s
  | .or d a b => Sys2Proof.Machine.execOr d a b s
  | .xor d a b => Sys2Proof.Machine.execXor d a b s
  | .andn d a b => Sys2Proof.Machine.execAndn d a b s
  | .shl d a b => Sys2Proof.Machine.execShl d a b s
  | .shr d a b => Sys2Proof.Machine.execShr d a b s
  | .sha d a b => Sys2Proof.Machine.execSha d a b s
  | .rot d a b => Sys2Proof.Machine.execRot d a b s
  | .mul d a b => Sys2Proof.Machine.execMul d a b s
  | .mulh d a b => Sys2Proof.Machine.execMulh d a b s
  | .mulhn d a b => Sys2Proof.Machine.execMulhn d a b s
  | .div d a b => Sys2Proof.Machine.execDiv d a b s
  | .divn d a b => Sys2Proof.Machine.execDivn d a b s
  | .rem d a b => Sys2Proof.Machine.execRem d a b s
  | .remn d a b => Sys2Proof.Machine.execRemn d a b s
  | .min d a b => Sys2Proof.Machine.execMin d a b s
  | .max d a b => Sys2Proof.Machine.execMax d a b s
  | .minn d a b => Sys2Proof.Machine.execMinn d a b s
  | .maxn d a b => Sys2Proof.Machine.execMaxn d a b s
  | .seq d a b => Sys2Proof.Machine.execSeq d a b s
  | .slt d a b => Sys2Proof.Machine.execSlt d a b s
  | .sltn d a b => Sys2Proof.Machine.execSltn d a b s
  | .sel d a b => Sys2Proof.Machine.execSel d a b s
  | .addsh1 d a b => Sys2Proof.Machine.execAddsh1 d a b s
  | .addsh2 d a b => Sys2Proof.Machine.execAddsh2 d a b s
  | .addsh3 d a b => Sys2Proof.Machine.execAddsh3 d a b s
  | .popc d a => Sys2Proof.Machine.execPopc d a s
  | .clz d a => Sys2Proof.Machine.execClz d a s
  | .ctz d a => Sys2Proof.Machine.execCtz d a s
  | .bext d a b => Sys2Proof.Machine.execBext d a b s
  | .bexts d a b => Sys2Proof.Machine.execBexts d a b s
  | .bins d a b => Sys2Proof.Machine.execBins d a b s
  | .mov d a => Sys2Proof.Machine.execMov d a s
  | .addi d a imm => Sys2Proof.Machine.execAddi d a imm s
  | .andi d a imm => Sys2Proof.Machine.execAndi d a imm s
  | .ori d a imm => Sys2Proof.Machine.execOri d a imm s
  | .xori d a imm => Sys2Proof.Machine.execXori d a imm s
  | .slti d a imm => Sys2Proof.Machine.execSlti d a imm s
  | .shli d a n => Sys2Proof.Machine.execShli d a n s
  | .shri d a n => Sys2Proof.Machine.execShri d a n s
  | .shai d a n => Sys2Proof.Machine.execShai d a n s
  | .roti d a n => Sys2Proof.Machine.execRoti d a n s
  | .movi d imm => Sys2Proof.Machine.execMovi d imm s
  | .lih d imm => Sys2Proof.Machine.execLih d imm s
  | .ldb d a off => Sys2Proof.Machine.execLdb d a off s
  | .ldh d a off => Sys2Proof.Machine.execLdh d a off s
  | .ldw d a off => Sys2Proof.Machine.execLdw d a off s
  | .ldd d a off => Sys2Proof.Machine.execLdd d a off s
  | .ldbs d a off => Sys2Proof.Machine.execLdbs d a off s
  | .ldhs d a off => Sys2Proof.Machine.execLdhs d a off s
  | .ldws d a off => Sys2Proof.Machine.execLdws d a off s
  | .ldq d q off => Sys2Proof.Machine.execLdq d q off s
  | .stb c a off => Sys2Proof.Machine.execStb c a off s
  | .sth c a off => Sys2Proof.Machine.execSth c a off s
  | .stw c a off => Sys2Proof.Machine.execStw c a off s
  | .std c a off => Sys2Proof.Machine.execStd c a off s
  | .beq a c off => Sys2Proof.Machine.execBeq a c off s
  | .bne a c off => Sys2Proof.Machine.execBne a c off s
  | .blt a c off => Sys2Proof.Machine.execBlt a c off s
  | .bge a c off => Sys2Proof.Machine.execBge a c off s
  | .bltn a c off => Sys2Proof.Machine.execBltn a c off s
  | .bgen a c off => Sys2Proof.Machine.execBgen a c off s
  | .bbs a c off => Sys2Proof.Machine.execBbs a c off s
  | .bbc a c off => Sys2Proof.Machine.execBbc a c off s
  | .b off => Sys2Proof.Machine.execB off s
  | .call off => Sys2Proof.Machine.execCall off s
  | .j a off => Sys2Proof.Machine.execJ a off s
  | .jal d a off => Sys2Proof.Machine.execJal d a off s
  | .loop a len => Sys2Proof.Machine.execLoop a len s
  | .xset k a => Sys2Proof.Machine.execXset k a s
  | .xget d k => Sys2Proof.Machine.execXget d k s
  | .cadd a b => Sys2Proof.Machine.execCadd a b s
  | .caddf d a b => Sys2Proof.Machine.execCaddf d a b s
  | .cwait a b => Sys2Proof.Machine.execCwait a b s
  | .cwaitt d a b => Sys2Proof.Machine.execCwaitt d a b s
  | .cread d a => Sys2Proof.Machine.execCread d a s
  | .cwatch a b => Sys2Proof.Machine.execCwatch a b s
  | .redadd m a b => Sys2Proof.Machine.execRedadd m a b s
  | .redaddf a b => Sys2Proof.Machine.execRedaddf a b s
  | .redmin m a b => Sys2Proof.Machine.execRedmin m a b s
  | .redmax m a b => Sys2Proof.Machine.execRedmax m a b s
  | .redand m a b => Sys2Proof.Machine.execRedand m a b s
  | .redor m a b => Sys2Proof.Machine.execRedor m a b s
  | .redxor m a b => Sys2Proof.Machine.execRedxor m a b s
  | .fence kind scope => Sys2Proof.Machine.execFence kind scope s
  | .barw wire => Sys2Proof.Machine.execBarw wire s
  | .send lc a b d => Sys2Proof.Machine.execSend lc a b d s
  | .sends lc a b d => Sys2Proof.Machine.execSends lc a b d s
  | .commit => Sys2Proof.Machine.execCommit s
  | .abort => Sys2Proof.Machine.execAbort s
  | .fwd dir a => Sys2Proof.Machine.execFwd dir a s
  | .fwdw dir d => Sys2Proof.Machine.execFwdw dir d s
  | .llput a => Sys2Proof.Machine.execLlput a s
  | .llget d => Sys2Proof.Machine.execLlget d s
  | .arm q a b => Sys2Proof.Machine.execArm q a b s
  | .disarm q a => Sys2Proof.Machine.execDisarm q a s
  | .trig => Sys2Proof.Machine.execTrig s
  | .endI => Sys2Proof.Machine.execEnd s
  | .join a => Sys2Proof.Machine.execJoin a s
  | .leave a => Sys2Proof.Machine.execLeave a s
  | .qwait d q => Sys2Proof.Machine.execQwait d q s
  | .qadv q => Sys2Proof.Machine.execQadv q s
  | .qfree q a => Sys2Proof.Machine.execQfree q a s
  | .qpush q a b => Sys2Proof.Machine.execQpush q a b s
  | .qstat d q => Sys2Proof.Machine.execQstat d q s
  | .trap imm => Sys2Proof.Machine.execTrap imm s
  | .syscall c => Sys2Proof.Machine.execSyscall c s
  | .migrate => Sys2Proof.Machine.execMigrate s
  | .brk imm => Sys2Proof.Machine.execBrk imm s
  | .mfs c imm => Sys2Proof.Machine.execMfs c imm s
  | .mts c imm => Sys2Proof.Machine.execMts c imm s
  | .eret => Sys2Proof.Machine.execEret s
  | .wfi => Sys2Proof.Machine.execWfi s
  | .hvcall imm => Sys2Proof.Machine.execHvcall imm s
  | .atinv c => Sys2Proof.Machine.execAtinv c s
  | .dcwb c => Sys2Proof.Machine.execDcwb c s
  | .dcinv c => Sys2Proof.Machine.execDcinv c s
  | .icinv c => Sys2Proof.Machine.execIcinv c s
  | .nop => Sys2Proof.Machine.execNop s
  | .vadd ty vd va vb => Sys2Proof.Machine.execVadd ty vd va vb s
  | .vsub ty vd va vb => Sys2Proof.Machine.execVsub ty vd va vb s
  | .vmul ty vd va vb => Sys2Proof.Machine.execVmul ty vd va vb s
  | .vfma ty vd va vb => Sys2Proof.Machine.execVfma ty vd va vb s
  | .vmin ty vd va vb => Sys2Proof.Machine.execVmin ty vd va vb s
  | .vmax ty vd va vb => Sys2Proof.Machine.execVmax ty vd va vb s
  | .vand ty vd va vb => Sys2Proof.Machine.execVand ty vd va vb s
  | .vor ty vd va vb => Sys2Proof.Machine.execVor ty vd va vb s
  | .vxor ty vd va vb => Sys2Proof.Machine.execVxor ty vd va vb s
  | .vshl ty vd va vb => Sys2Proof.Machine.execVshl ty vd va vb s
  | .vshr ty vd va vb => Sys2Proof.Machine.execVshr ty vd va vb s
  | .vsha ty vd va vb => Sys2Proof.Machine.execVsha ty vd va vb s
  | .vabs ty vd va => Sys2Proof.Machine.execVabs ty vd va s
  | .vneg ty vd va => Sys2Proof.Machine.execVneg ty vd va s
  | .vrec ty vd va vb => Sys2Proof.Machine.execVrec ty vd va vb s
  | .vexp2 ty vd va => Sys2Proof.Machine.execVexp2 ty vd va s
  | .vlog2 ty vd va => Sys2Proof.Machine.execVlog2 ty vd va s
  | .vrcp ty vd va => Sys2Proof.Machine.execVrcp ty vd va s
  | .vrsq ty vd va => Sys2Proof.Machine.execVrsq ty vd va s
  | .vsig ty vd va => Sys2Proof.Machine.execVsig ty vd va s
  | .vcvt ty src mode sat vd va => Sys2Proof.Machine.execVcvt ty src mode sat vd va s
  | .vperm ty vd va vb => Sys2Proof.Machine.execVperm ty vd va vb s
  | .vshf ty vd va vb => Sys2Proof.Machine.execVshf ty vd va vb s
  | .vscan ty vd va op => Sys2Proof.Machine.execVscan ty vd va op s
  | .vmov ty vd va => Sys2Proof.Machine.execVmov ty vd va s
  | .vld v a off => Sys2Proof.Machine.execVld v a off s
  | .vst v a off => Sys2Proof.Machine.execVst v a off s
  | .vldq v q off => Sys2Proof.Machine.execVldq v q off s
  | .vbcast ty v a => Sys2Proof.Machine.execVbcast ty v a s
  | .vext ty a v lane => Sys2Proof.Machine.execVext ty a v lane s
  | .vins ty v a lane => Sys2Proof.Machine.execVins ty v a lane s
  | .vcmpeq ty a v vx => Sys2Proof.Machine.execVcmpeq ty a v vx s
  | .vcmplt ty a v vx => Sys2Proof.Machine.execVcmplt ty a v vx s
  | .vcmple ty a v vx => Sys2Proof.Machine.execVcmple ty a v vx s
  | .vsel ty v a vx => Sys2Proof.Machine.execVsel ty v a vx s
  | .vredadd ty a v => Sys2Proof.Machine.execVredadd ty a v s
  | .vredmax ty a v => Sys2Proof.Machine.execVredmax ty a v s
  | .vredmin ty a v => Sys2Proof.Machine.execVredmin ty a v s
  | .xscan ty v dirIn dirOut op role => Sys2Proof.Machine.execXscan ty v dirIn dirOut op role s
  | .vfence => Sys2Proof.Machine.execVfence s
  | .vstm v a m => Sys2Proof.Machine.execVstm v a m s
  | .gang w pos => Sys2Proof.Machine.execGang w pos s
  | .mopaAcc ty acc => Sys2Proof.Machine.execMopaAcc ty acc s
  | .mopaBlock ty a b => Sys2Proof.Machine.execMopaBlock ty a b s
  | .mopbAcc ty acc => Sys2Proof.Machine.execMopbAcc ty acc s
  | .mopbBlock ty a b => Sys2Proof.Machine.execMopbBlock ty a b s
  | .mma acc pb => Sys2Proof.Machine.execMma acc pb s
  | .mmas acc a => Sys2Proof.Machine.execMmas acc a s
  | .msca acc pb vsa vsb => Sys2Proof.Machine.execMsca acc pb vsa vsb s
  | .mzero acc => Sys2Proof.Machine.execMzero acc s
  | .mstat d => Sys2Proof.Machine.execMstat d s
  | .mwait => Sys2Proof.Machine.execMwait s
  | .dpatch cell a d => Sys2Proof.Machine.execDpatch cell a d s
  | .dset cell a => Sys2Proof.Machine.execDset cell a s
  | .dget d cell => Sys2Proof.Machine.execDget d cell s
  | .dres d cell => Sys2Proof.Machine.execDres d cell s
  | .dsave a => Sys2Proof.Machine.execDsave a s
  | .dload a => Sys2Proof.Machine.execDload a s
  | .dclk div a => Sys2Proof.Machine.execDclk div a s
  | .dstep a => Sys2Proof.Machine.execDstep a s
  | .drun => Sys2Proof.Machine.execDrun s
  | .dhalt => Sys2Proof.Machine.execDhalt s
  | .dwait => Sys2Proof.Machine.execDwait s
  | .drdc clr d cnt => Sys2Proof.Machine.execDrdc clr d cnt s
  | .dclrc cnt => Sys2Proof.Machine.execDclrc cnt s
  | .dstat d => Sys2Proof.Machine.execDstat d s
  | .dinj a => Sys2Proof.Machine.execDinj a s
  | .fetch acq rel scope lc d a b => Sys2Proof.Machine.execFetch acq rel scope lc d a b s
  | .put acq rel scope lc d a b => Sys2Proof.Machine.execPut acq rel scope lc d a b s
  | .copy acq rel scope lc d a b => Sys2Proof.Machine.execCopy acq rel scope lc d a b s
  | .mcast acq rel scope lc d a b => Sys2Proof.Machine.execMcast acq rel scope lc d a b s
  | .gather acq rel scope lc d a b => Sys2Proof.Machine.execGather acq rel scope lc d a b s
  | .scatter acq rel scope lc d a b => Sys2Proof.Machine.execScatter acq rel scope lc d a b s
  | .trec d a => Sys2Proof.Machine.execTrec d a s
  | .trinv a => Sys2Proof.Machine.execTrinv a s
  | .sfence => Sys2Proof.Machine.execSfence s
  | .cMov d b => Sys2Proof.Machine.execCMov d b s
  | .cAdd d b => Sys2Proof.Machine.execCAdd d b s
  | .cSub d b => Sys2Proof.Machine.execCSub d b s
  | .cAnd d b => Sys2Proof.Machine.execCAnd d b s
  | .cOr d b => Sys2Proof.Machine.execCOr d b s
  | .cXor d b => Sys2Proof.Machine.execCXor d b s
  | .cShl d b => Sys2Proof.Machine.execCShl d b s
  | .cShr d b => Sys2Proof.Machine.execCShr d b s
  | .cAddi d imm => Sys2Proof.Machine.execCAddi d imm s
  | .cMovi d imm => Sys2Proof.Machine.execCMovi d imm s
  | .cShli d n => Sys2Proof.Machine.execCShli d n s
  | .cLdd d a off => Sys2Proof.Machine.execCLdd d a off s
  | .cStd c a off => Sys2Proof.Machine.execCStd c a off s
  | .cLdw d a off => Sys2Proof.Machine.execCLdw d a off s
  | .cStw c a off => Sys2Proof.Machine.execCStw c a off s
  | .cBeqz a off => Sys2Proof.Machine.execCBeqz a off s
  | .cBnez a off => Sys2Proof.Machine.execCBnez a off s
  | .cB off => Sys2Proof.Machine.execCB off s
  | .cJ a => Sys2Proof.Machine.execCJ a s
  | .cEnd => Sys2Proof.Machine.execCEnd s
  | .cQadv q => Sys2Proof.Machine.execCQadv q s
  | .compactHint => Sys2Proof.Machine.execCompactHint s
  | .messageArrival p => Sys2Proof.Machine.execMessageArrival p s
  | .activationFiring t => Sys2Proof.Machine.execActivationFiring t s
  | .shareAddDeparture t n => Sys2Proof.Machine.execShareAddDeparture t n s
  | .remoteAccessAtHome p => Sys2Proof.Machine.execRemoteAccessAtHome p s
  | .counterRequestAtHome p => Sys2Proof.Machine.execCounterRequestAtHome p s
  | .reductionAtHome p => Sys2Proof.Machine.execReductionAtHome p s
  | .loadResponse p => Sys2Proof.Machine.execLoadResponse p s
  | .offTileAck p => Sys2Proof.Machine.execOffTileAck p s
  | .wakeArrival p => Sys2Proof.Machine.execWakeArrival p s
  | .cwaittTimeout ag => Sys2Proof.Machine.execCwaittTimeout ag s
  | .macResultArrival p => Sys2Proof.Machine.execMacResultArrival p s
  | .wireRelease b col n => Sys2Proof.Machine.execWireRelease b col n s
  | .fwdValueArrival p => Sys2Proof.Machine.execFwdValueArrival p s
  | .laneGateRefusal p => Sys2Proof.Machine.execLaneGateRefusal p s
  | .groupDirectoryRequest p => Sys2Proof.Machine.execGroupDirectoryRequest p s
  | .groupAckArrival p => Sys2Proof.Machine.execGroupAckArrival p s
  | .migratedActivationPlacement p c => Sys2Proof.Machine.execMigratedActivationPlacement p c s
  | .vectorCommandStart t => Sys2Proof.Machine.execVectorCommandStart t s
  | .vectorCommandComplete t n => Sys2Proof.Machine.execVectorCommandComplete t n s
  | .gangJoinCompletion t => Sys2Proof.Machine.execGangJoinCompletion t s
  | .gangAbort t => Sys2Proof.Machine.execGangAbort t s
  | .matrixArrayStart t => Sys2Proof.Machine.execMatrixArrayStart t s
  | .matrixArrayComplete t => Sys2Proof.Machine.execMatrixArrayComplete t s
  | .mscaStageStart t => Sys2Proof.Machine.execMscaStageStart t s
  | .mscaStageComplete t => Sys2Proof.Machine.execMscaStageComplete t s
  | .domainStart t => Sys2Proof.Machine.execDomainStart t s
  | .fabricStep t => Sys2Proof.Machine.execFabricStep t s
  | .domainHalt t => Sys2Proof.Machine.execDomainHalt t s
  | .streamCommandStart t => Sys2Proof.Machine.execStreamCommandStart t s
  | .streamWriteAtHome p => Sys2Proof.Machine.execStreamWriteAtHome p s
  | .streamReadResponse p => Sys2Proof.Machine.execStreamReadResponse p s
  | .streamCounterAdd t => Sys2Proof.Machine.execStreamCounterAdd t s
  | .levellingBoundary t => Sys2Proof.Machine.execLevellingBoundary t s
  | .levellingEntryArrival p => Sys2Proof.Machine.execLevellingEntryArrival p s
  | .flitForward node port merge => Sys2Proof.Machine.execFlitForward node port merge s
  | .packetPromotion node port vc => Sys2Proof.Machine.execPacketPromotion node port vc s
  | .gateRefusal p => Sys2Proof.Machine.execGateRefusal p s
  | .codeStoreRefusal p => Sys2Proof.Machine.execCodeStoreRefusal p s
  | .messageRefusal p => Sys2Proof.Machine.execMessageRefusal p s
  | .stationTranslate p => Sys2Proof.Machine.execStationTranslate p s
  | .walkRead p => Sys2Proof.Machine.execWalkRead p s
  | .stationForwardedRequest p => Sys2Proof.Machine.execStationForwardedRequest p s
  | .pageReencryption page => Sys2Proof.Machine.execPageReencryption page s
  | .trapRecordArrival p => Sys2Proof.Machine.execTrapRecordArrival p s
  | .invigilatorExpiry r => Sys2Proof.Machine.execInvigilatorExpiry r s
  | .backgroundScrub ecc => Sys2Proof.Machine.execBackgroundScrub ecc s
  | .slotResume t k => Sys2Proof.Machine.execSlotResume t k s
  | .slotKill t k => Sys2Proof.Machine.execSlotKill t k s
  | .slotRegisterWrite t k off v => Sys2Proof.Machine.execSlotRegisterWrite t k off v s
  | .integClear t => Sys2Proof.Machine.execIntegClear t s
  | .dbgCtlWrite t v => Sys2Proof.Machine.execDbgCtlWrite t v s
  | .debugStep t v => Sys2Proof.Machine.execDebugStep t v s
  | .preemptStop t => Sys2Proof.Machine.execPreemptStop t s
  | .preemptSave t v => Sys2Proof.Machine.execPreemptSave t v s
  | .preemptLoad t v => Sys2Proof.Machine.execPreemptLoad t v s
  | .preemptRun t => Sys2Proof.Machine.execPreemptRun t s
  | .preemptSaveComplete t => Sys2Proof.Machine.execPreemptSaveComplete t s
  | .preemptLoadComplete t => Sys2Proof.Machine.execPreemptLoadComplete t s
  | .queueCancel t v => Sys2Proof.Machine.execQueueCancel t v s
  | .xlateRetry b xid => Sys2Proof.Machine.execXlateRetry b xid s
  | .fabricStateWrite t off v => Sys2Proof.Machine.execFabricStateWrite t off v s
  | .stInvRegion b => Sys2Proof.Machine.execStInvRegion b s
  | .stInvPid b pid => Sys2Proof.Machine.execStInvPid b pid s
  | .stInvPage b pid => Sys2Proof.Machine.execStInvPage b pid s
  | .stInvComplete b => Sys2Proof.Machine.execStInvComplete b s
  | .registerWrite t off v => Sys2Proof.Machine.execRegisterWrite t off v s
  | .sqDoorbell q tail => Sys2Proof.Machine.execSqDoorbell q tail s
  | .hostStartDescriptor q => Sys2Proof.Machine.execHostStartDescriptor q s
  | .singleRegionReset r => Sys2Proof.Machine.execSingleRegionReset r s
  | .bulkheadReset b => Sys2Proof.Machine.execBulkheadReset b s
  | .bulkheadFailure b => Sys2Proof.Machine.execBulkheadFailure b s
  | .powerOn => Sys2Proof.Machine.execPowerOn s
  | .moduleBoot => Sys2Proof.Machine.execModuleBoot s
  | .version m => Sys2Proof.Machine.execVersion m s
  | .attest m => Sys2Proof.Machine.execAttest m s
  | .readScrubRecord m => Sys2Proof.Machine.execReadScrubRecord m s
  | .readBulkheadRecord m => Sys2Proof.Machine.execReadBulkheadRecord m s
  | .readModuleRecord m => Sys2Proof.Machine.execReadModuleRecord m s
  | .readRetirementEntry m => Sys2Proof.Machine.execReadRetirementEntry m s
  | .readLatencyHeader m => Sys2Proof.Machine.execReadLatencyHeader m s
  | .readRegionInfo m => Sys2Proof.Machine.execReadRegionInfo m s
  | .readChallenge m => Sys2Proof.Machine.execReadChallenge m s
  | .claim m => Sys2Proof.Machine.execClaim m s
  | .release m => Sys2Proof.Machine.execRelease m s
  | .assign m => Sys2Proof.Machine.execAssign m s
  | .teardown m => Sys2Proof.Machine.execTeardown m s
  | .teardownDrained r => Sys2Proof.Machine.execTeardownDrained r s
  | .keyZeroiseDone r => Sys2Proof.Machine.execKeyZeroiseDone r s
  | .scrubHallCleared b => Sys2Proof.Machine.execScrubHallCleared b s
  | .scrubBlockCleared b => Sys2Proof.Machine.execScrubBlockCleared b s
  | .scrubFinalise r => Sys2Proof.Machine.execScrubFinalise r s
  | .scrubRestart r => Sys2Proof.Machine.execScrubRestart r s
  | .preemptRelease m => Sys2Proof.Machine.execPreemptRelease m s
  | .preemptResume m => Sys2Proof.Machine.execPreemptResume m s
  | .restore m => Sys2Proof.Machine.execRestore m s
  | .windowSet m => Sys2Proof.Machine.execWindowSet m s
  | .windowWithdraw m => Sys2Proof.Machine.execWindowWithdraw m s
  | .windowRemovalComplete m => Sys2Proof.Machine.execWindowRemovalComplete m s
  | .keysAdd m => Sys2Proof.Machine.execKeysAdd m s
  | .keysFree m => Sys2Proof.Machine.execKeysFree m s
  | .retire m => Sys2Proof.Machine.execRetire m s
  | .migrateStart m => Sys2Proof.Machine.execMigrateStart m s
  | .migrateCancel m => Sys2Proof.Machine.execMigrateCancel m s
  | .migrateRestore m => Sys2Proof.Machine.execMigrateRestore m s
  | .migrationPrepare b port => Sys2Proof.Machine.execMigrationPrepare b port s
  | .migrationItem b port => Sys2Proof.Machine.execMigrationItem b port s
  | .migrationAccept b port => Sys2Proof.Machine.execMigrationAccept b port s
  | .migrationCommit b port => Sys2Proof.Machine.execMigrationCommit b port s
  | .migrationDone b port => Sys2Proof.Machine.execMigrationDone b port s
  | .migrationCancel b port => Sys2Proof.Machine.execMigrationCancel b port s
  | .migrationAborted b port => Sys2Proof.Machine.execMigrationAborted b port s
  | .migrationRefused b port => Sys2Proof.Machine.execMigrationRefused b port s
  | .migrationLost b port => Sys2Proof.Machine.execMigrationLost b port s
  | .linkFrameTransmit b port => Sys2Proof.Machine.execLinkFrameTransmit b port s
  | .linkDataReceive b port => Sys2Proof.Machine.execLinkDataReceive b port s
  | .linkMarkerReceive b port => Sys2Proof.Machine.execLinkMarkerReceive b port s
  | .linkAckReceive b port => Sys2Proof.Machine.execLinkAckReceive b port s
  | .linkNakReceive b port => Sys2Proof.Machine.execLinkNakReceive b port s
  | .linkIdleReceive b port => Sys2Proof.Machine.execLinkIdleReceive b port s
  | .linkKeepaliveExpiry b port => Sys2Proof.Machine.execLinkKeepaliveExpiry b port s
  | .linkAckTimer b port => Sys2Proof.Machine.execLinkAckTimer b port s
  | .linkKeyLoad b port gen => Sys2Proof.Machine.execLinkKeyLoad b port gen s
  | .linkTestRun b port v => Sys2Proof.Machine.execLinkTestRun b port v s
  | .linkErrorInject b port v => Sys2Proof.Machine.execLinkErrorInject b port v s
  | .telemetrySample => Sys2Proof.Machine.execTelemetrySample s
  | .modcapWrite mw => Sys2Proof.Machine.execModcapWrite mw s
  | .capWrite b mw => Sys2Proof.Machine.execCapWrite b mw s
  | .migrateReturnArrival p => Sys2Proof.Machine.execMigrateReturnArrival p s
  | .syscallRequestArrival p => Sys2Proof.Machine.execSyscallRequestArrival p s
  | .linkTrainingComplete b port => Sys2Proof.Machine.execLinkTrainingComplete b port s
  | .edgeModuleFailure b => Sys2Proof.Machine.execEdgeModuleFailure b s

end Sys2Proof.Machine
end

