-- ==== Sys2Proof/Machine/Fetch.lean ====
section
/-! DEFINITION. What stands before and after the meaning of an instruction: fetch, breakpoints, pending
registers, the count of a debug step, progress (R22, R101, R102, R103, R126, R302, R332, R333, R341). -/

namespace Sys2Proof.Machine

/-- A fetched instruction: its word, or its halfword alone. -/
structure Fetched where
  word : Word
  wide : Bool
  deriving DecidableEq, Repr

/-- The word of a first and a second halfword. -/
def wordOfHalves (lo hi : BitVec 16) : BitVec 32 := hi ++ lo

/-- Fetches the instruction at the executing agent's program counter, or gives the trap of the fetch
(R101, R102, R303). -/
def State.fetchInstr (s : State) : Except FetchStop (Fetched × State) :=
  match s.fetchHalf s.pc with
  | .error e => .error e
  | .ok (lo, s1) =>
    if !isWide lo then .ok ({ word := zext lo, wide := false }, s1)
    else match s1.fetchHalf (s.pc + 2) with
      | .error e => .error e
      | .ok (hi, s2) => .ok ({ word := zext (wordOfHalves lo hi), wide := true }, s2)

/-- The decoder's answer to a fetched instruction (R103 step 2). -/
def Fetched.instr (f : Fetched) : Except DecodeError Instr :=
  if f.wide then decodeWord (BitVec.ofNat 32 f.word.toNat) else decodeHalf (BitVec.ofNat 16 f.word.toNat)

/-- Whether the executing slot stands at an enabled breakpoint; the first instruction of a debug step is
never stopped (R332, R333). -/
def State.atBreakpoint (s : State) : Bool :=
  match s.cur with
  | .core _ _ => false
  | .slot t k =>
    let x := s.tile t
    let at' (en lo : Nat) : Bool := bit x.dbgCtl en && s.pc.toNat / 2 = field x.dbgCtl lo 17
    bit x.dbgCtl 0 && !(x.dbgActive && x.dbgFirst && x.dbgOf = k) && (at' 1 6 || at' 2 23)

/-- Whether the instruction reads or writes a register whose result is still awaited (R126, R190). -/
def State.awaitsReg (s : State) (i : Instr) : Bool :=
  (touches i).any fun r => r != 0 && s.ctx.pend.any fun p => p.reg = r

/-- The trap of a fetch; at HVENTRY itself it halts a proctor core (R102, R302). -/
def State.fetchTrap (s : State) (cause : Cause) (eval : Word) : State :=
  match s.cur with
  | .slot t _ => (if cause = .eccUe then s.foundEcc (scratchKey t eval.toNat) 2 else s).trap cause eval
  | .core b c =>
    let x := s.core b c
    if x.h && s.pc = x.hventry &&& ~~~1#64 then
      s.onCore b c fun y => { y with pcause := cause.code, pepc := s.pc, peval := eval, running := false }
    else s.trap cause eval

/-- The agent issues next: it is the executing agent, READY, and waits for nothing. -/
def State.begin (s : State) (ag : Agent) : State :=
  ({ s with cur := ag }.wakeUp ag).onCtx fun c => { c with issuedAt := none }

/-- A context with the operands that an instruction read at issue: its registers, and the extension registers, which
`MIGRATE` alone takes as they then are (R117, R182). -/
def Ctx.withOperands (c : Ctx) (i : Instr) (regs : Vector Word 32) (eregs : Vector Word 8) : Ctx :=
  { c with regs := (touches i).foldl (fun v r => v.set r.toNat (regs[r.toNat]'r.isLt) r.isLt) c.regs,
           eregs := if i = .migrate then c.eregs else eregs }

/-- An issued instruction is looked at again: the agent stands at it, with its operands and its end action made
(R117, R155). -/
def State.beginPoll (s : State) (ag : Agent) (i : Instr) (word : Word) (regs : Vector Word 32) (eregs : Vector Word 8) :
    State :=
  let at' := (s.ctxOf ag).issuedAt
  let s := (s.begin ag).onCtx fun c => { c.withOperands i regs eregs with pc := c.ipc, noEnd := true, issuedAt := at' }
  { s with iw := word }

/-- The destination of an instruction of chapter 6 that waits. -/
def awaitedReg (i : Instr) : Option Reg :=
  match i with
  | .caddf d _ _ | .cread d _ | .cwaitt d _ _ | .ldq d _ _ | .fwdw _ d | .qwait d _ | .llget d | .mfs d _ => some d
  | _ => none

/-- The context after a look at an issued instruction: the registers of before, with the result that the instruction
has written (R117, R140); or, when the instruction has trapped, which no end action has followed or level H has, with
the end action of its issue undone (R47, R149). -/
def Ctx.afterPoll (c before : Ctx) (i : Instr) : Ctx :=
  let c' := { c with regs := before.regs, eregs := before.eregs }
  if c.noEnd then c'.withLoops before.before
  else if c.issuedAt.isNone then { c'.withLoops before.before with noEnd := false }
  else match awaitedReg i with
  | some d => c'.set d (c.get d)
  | none => c'

/-- Parks the slot whose debug step is over, with CAUSE `BREAK` and a record that has STEP set (R333, R372). -/
def State.endStep (s : State) (t : TileName) (k : BitVec 2) : State :=
  let pc := (s.slot t k).ctx.pc
  let s := s.onTile t fun x => { x with dbgCount := 0, dbgActive := false, dbgOwed := false, dbgFirst := false }
  (s.onSlot t k fun x => x.trapPark Cause.brk.code pc pc).sendRecord (tileNode t)
    { slotRecord t k Cause.brk.code pc pc true with step := true }

/-- Counts the instruction of a debug step once it has issued and its wait has ended (R333). -/
def State.countStep (s : State) (t : TileName) (k : BitVec 2) : State :=
  let x := s.tile t
  if !x.dbgActive || !x.dbgOwed || x.dbgOf != k || (x.slot k).state != .ready then s
  else if x.dbgCount.toNat ≤ 1 then s.endStep t k
  else s.onTile t fun x => { x with dbgCount := x.dbgCount - 1, dbgOwed := false }

/-- What follows the issue of an instruction of slot `k` of a tile: the scheduler's pointer, the debug
step, progress (R22, R333, R341). -/
def State.issued (s : State) (t : TileName) (k : BitVec 2) : State :=
  let s := s.onTile t fun x =>
    { x with ptr := k, dbgOwed := x.dbgOwed || (x.dbgActive && x.dbgOf = k),
             dbgFirst := x.dbgFirst && x.dbgOf != k }
  (if (s.slot t k).ctx.wait = .none && (s.slot t k).state != .parked then s.retired s (.slot t k) else s).countStep t k

/-- What follows the issue of an instruction of a proctor core in state `before`: progress, for a migrated activation
(R341). -/
def State.coreIssued (s before : State) (b : BulkId) (c : BitVec 3) : State :=
  if (s.core b c).ctx.wait = .none then s.retired before (.core b c) else s

/-- Whether a tile issues and fires at all (R300, R334). -/
def State.tileRuns (s : State) (t : TileName) : Bool := (s.tile t).pre = 0 && !(s.bulk t.ret).failed

/-- The slots of a tile in the scheduler's order, from the one after the pointer (R22). -/
def Tile.order (x : Tile) : List (BitVec 2) := [x.ptr + 1, x.ptr + 2, x.ptr + 3, x.ptr]

/-- Whether a slot has an instruction to issue: it is READY, or waits with an instruction that has not issued. -/
def Slot.mayIssue (x : Slot) : Bool := x.state = .ready || (x.state = .waiting && x.ctx.wait = .retry)

end Sys2Proof.Machine
end

