-- ==== Sys2Proof/Machine/Outside.lean ====
section
/-! DEFINITION. What the outside of the module does: the clock, errors of the memories, the host's writes, the order in
which Yelk serves commands, requests of the Dean and the loader, frames and sensors (R43, R139, R306, R348, R351, R354,
R377, R378, R395). -/

namespace Sys2Proof.Machine

/-! ## Mailbox commands (R351, R377, R378, R381, R394) -/

/-- The READ of a mailbox is served by its selector (R394); none for an unknown selector. -/
def State.serveRead (s : State) (m : BitVec 2) (selector : Nat) : Option Result :=
  match selector with
  | 1 => some (execReadScrubRecord m s) | 2 => some (execReadBulkheadRecord m s) | 3 => some (execReadModuleRecord m s)
  | 4 => some (execReadRetirementEntry m s) | 5 => some (execReadLatencyHeader m s) | 6 => some (execReadRegionInfo m s)
  | 7 => some (execReadChallenge m s)
  | _ => none

/-- Yelk serves the command of a mailbox: the event of its code and operation; none for a command that it refuses. -/
def State.serveCommand (s : State) (m : BitVec 2) : Option Result :=
  let op := s.mail m 0x009 1
  match s.command m with
  | none => none
  | some .version => some (execVersion m s)
  | some .attest => some (execAttest m s)
  | some .read => s.serveRead m (s.selector m)
  | some .claim => some (execClaim m s)
  | some .release => some (execRelease m s)
  | some .assign => some (execAssign m s)
  | some .teardown => some (execTeardown m s)
  | some .preempt => if op = 0 then some (execPreemptRelease m s) else if op = 1 then some (execPreemptResume m s) else none
  | some .restore => some (execRestore m s)
  | some .window =>
    if s.mail m 0x00A 1 = 0 then some (execWindowSet m s)
    else if s.mail m 0x00A 1 = 1 then
      (match s.job m with | .withdraw _ _ _ => some (execWindowRemovalComplete m s) | _ => some (execWindowWithdraw m s))
    else none
  | some .keys => if op = 0 then some (execKeysAdd m s) else if op = 1 then some (execKeysFree m s) else none
  | some .retire => some (execRetire m s)
  | some .migrate =>
    if op = 0 then some (execMigrateStart m s) else if op = 1 then some (execMigrateCancel m s)
    else if op = 2 then some (execMigrateRestore m s) else none

/-- A command with an unlisted code, selector or operation: REFUSED, or NOT_OWNER where only the owner may issue it
(R351, R378, R394). -/
def State.refuseCommand (s : State) (m : BitVec 2) : State :=
  if !s.serves m || s.job m != .idle then s
  else match s.command m with
    | some .preempt | some .keys | some .migrate => s.asOwner m (s.answer m .refused [])
    | _ => s.answer m .refused []

/-! ## The host (R306, R354, R377) -/

/-- Whether a host master may write a byte: a mailbox byte, but DOORBELL while it reads 1, or its own memory. -/
def State.hostMayWrite (s : State) (key : Nat) : Bool :=
  if 2 ^ 66 ≤ key && key < 2 ^ 66 + 4 * 4096 then
    key % 4096 < 0xFF8 || s.mail (BitVec.ofNat 2 ((key - 2 ^ 66) / 4096)) 0xFF8 8 != 1
  else outsideKey key

/-- The commands whose DOORBELL a write has set, lower master number first. -/
def State.rung (before after : State) : List (BitVec 2) :=
  ([0, 1, 2, 3] : List (BitVec 2)).filter fun m => before.mail m 0xFF8 8 != 1 && after.mail m 0xFF8 8 = 1

/-- A host master writes bytes. -/
def State.hostWrite (s : State) (key : Nat) (bs : List Byte) : State :=
  let s1 := s.poke key ((indexed bs).filter fun x => s.hostMayWrite (key + x.1))
  { s1 with office := { s1.office with bells := s1.office.bells ++ State.rung s s1 } }

/-- A host master writes a queue's SQBASE, SQSIZE, CQBASE or CQHEAD (R354). -/
def HostQueue.write (x : HostQueue) (off : Nat) (v : Word) : HostQueue :=
  match off with
  | 0 => { x with sqbase := v }
  | 8 => { x with sqsize := BitVec.ofNat 4 v.toNat }
  | 24 => { x with cqbase := v }
  | 32 => { x with cqhead := BitVec.ofNat 16 v.toNat }
  | _ => x

/-- QINFO (R354). -/
def HostQueue.qinfo (x : HostQueue) : Word :=
  BitVec.ofNat 64 (x.owner % 64 + num (x.owner = 64) * 64 + num (x.owner != 0) * 128)

/-! ## Errors of the memories (R98, R139, R345, R393) -/

/-- An error appears in a word: one that cannot be corrected is a new error, to be counted when it is found. -/
def State.eccError (s : State) (key : Nat) (unc : Bool) : State :=
  let w := key / 8
  let seen := s.office.eccSeen
  { s with ecc := s.ecc.put w (unc || s.ecc.get false w),
           office := { s.office with eccSeen := if unc && (seen.find? w).isSome then seen.put w false else seen } }

/-- The MAC of an edge line is corrupted. -/
def State.macError (s : State) (line : Nat) : State :=
  match s.seals.find? line with
  | some l => { s with seals := s.seals.put line { l with ok := false } }
  | none => s

/-! ## The Dean and the loader (R40, R125, R292, R306, R348, R355) -/

/-- A code section is locked through Yelk: M_CODE is extended, and stores to the section are refused unless the region
has MUTCODE (R125, R137, R348). -/
def State.lockCode (s : State) (t : TileName) (off len : Nat) : State :=
  let r := s.regionOf t.ret
  if r = 0 || !s.tileExists t || len = 0 || 0x28000 < off + len then s
  else
    let bytes := s.mem.readN (scratchKey t off) len
    (s.onTile t fun x => { x with code := x.code ++ [(off, off + len - 1)] }).onRegion r fun x =>
      { x with mCode := Config.sha512 (x.mCode ++ Config.sha512 bytes ++ bytesOf (tileId t) ++ toBytes 8 off),
               locks := x.locks ++ [(t, off, off + len - 1)] }

/-- The tenant image accepts the oldest request of an island (R40, R181). -/
def State.acceptCall (s : State) (b : BulkId) : State :=
  match (s.island b).calls with
  | [] => s
  | c :: rest => (s.onIsland b fun x => { x with calls := rest }).onTile c.1 fun x => { x with sysOut := x.sysOut - 1 }

/-- The Dean asks for a port to train: a port reset, after which it reads TRAINING (R355, R364). What the registrars have
agreed stands. -/
def Port.train (x : Port) : Port :=
  if x.st = 0 then
    { Port.reset with st := 3, out := x.out, peer := x.peer, secret := x.secret, salt := x.salt, offer := x.offer,
                      peerReport := x.peerReport, peerCert := x.peerCert }
  else x

/-- This side's X25519 key of a serial number, for the other registrar: the public key is that of the base point 9, and the
device key signs it (R360). -/
def offerOf (serial : Nat) : Nat × List Byte × List Byte :=
  let pub := Config.x25519 serial (toBytes 32 9)
  (serial, pub, Config.ed25519Sign deviceKey pub)

/-- The registrar sends the other one a fresh public key, unless one has been sent; it does so when the port is asked to
train or the other side's key arrives (R360; when is a DESIGN CHOICE, log entry 150). -/
def State.offerKey (s : State) (b : BulkId) (p : Nat) : State :=
  if (s.port b p).offer.isSome then s else s.bump.onPort b p fun x => { x with offer := some (offerOf s.serial) }

/-- The other registrar's public key arrives: signed with its device key, it gives with this side's key the link's secret,
and SALT where the link has none yet (R359, R360). -/
def State.linkAgree (s : State) (b : BulkId) (p : Nat) (device pub sig : List Byte) : State :=
  if !Config.ed25519Verify (deviceKeyOf device) pub sig then s
  else
    let s := s.offerKey b p
    let x := s.port b p
    let w := s.freeWord
    w.2.onPort b p fun _ =>
      { x with peer := device, secret := Config.x25519 ((x.offer.map (·.1)).getD 0) pub, salt := if x.peer = [] then w.1.truncate 32 else x.salt }

/-! ## The office die (R346, R347, R350) -/

/-- The flash-update path: an image is written while the office die is in RECOVERY (R346). -/
def Office.flash (o : Office) (yelk sig : List Byte) (svn : Nat) : Office :=
  if o.recovery then { o with yelk := yelk, yelkSig := sig, svn := svn } else o

/-- A replacement Dean is kept for the next module reset when its signature verifies (R347). -/
def Office.stage (o : Office) (image sig : List Byte) : Office :=
  if Config.ed25519Verify o.rootKey image sig then { o with deanNext := some (image, sig) } else o

/-- A master's mailbox in RECOVERY: a status word answers, whatever the command. Its value and its place, that of STATUS,
are the model's choice (DESIGN CHOICE, log entry 131). -/
def State.statusWord (s : State) (m : BitVec 2) : State :=
  if s.mail m 0xFF8 8 != 1 then s
  else
    let w := s.freeWord
    let s := (w.2.mailWrite m 0x040 (bytesOf w.1)).mailWrite m 0xFF8 (toBytes 8 0)
    { s with office := { s.office with bells := s.office.bells.filter fun x => x != m } }

/-- A master fetches the certificate, into its mailbox after the data of a report (R350; the place is a DESIGN CHOICE, log
entry 131). -/
def State.fetchCert (s : State) (m : BitVec 2) : State := if s.hostUp m then s.mailWrite m 0x400 s.office.cert else s

/-- Frame times pass at a port: frames sent have left, and the ages rise (R361, R362). -/
def Port.time (x : Port) (n : Nat) : Port :=
  { x with wire := [], quiet := x.quiet + n, age := if x.unacked = 0 then 0 else x.age + n }

/-- The gates of a region's LIVE bulkheads take a mode; those of the others stand as their state has them (R289, R292,
R298). -/
def State.gatesTo (s : State) (r : Nat) (mode : BitVec 2) : State :=
  if mode = 0 then s.closeGates (s.liveOf r) else if mode = 3 then s else s.setGates (s.liveOf r) mode

/-! ## Turns -/

/-- A turn of the outside that is no instruction and no event. -/
def State.outside (s : State) : Turn → State
  | .tick n => (s.ageAll n).tickAll n
  | .eccError key unc => s.eccError key unc
  | .macError line => s.macError line
  | .hostWrite key bs => s.hostWrite key bs
  | .hostReg q off v => if q < 256 then s.onHostQueue q fun x => x.write off v else s
  | .assignQueue q owner =>
    if q < 256 && (owner = 0 || owner = 64 || (s.regions.find? owner).isSome)
    then s.onHostQueue q fun x => { x with owner := owner } else s
  | .setGates r mode => if r = 0 then s else s.gatesTo r mode
  | .lockCode t off len => s.lockCode t off len
  | .tenantImage r bytes =>
    if (s.regions.find? r).isSome then s.onRegion r fun x => { x with mImage := Config.sha512 bytes } else s
  | .acceptCall b => s.acceptCall b
  | .flashUpdate yelk sig svn => { s with office := s.office.flash yelk sig svn }
  | .stageDean image sig => { s with office := s.office.stage image sig }
  | .fetchCert m => s.fetchCert m
  | .memVersion b w => { s with office := { s.office with memVersions := s.office.memVersions.put b w } }
  | .hostVersion i w => { s with office := { s.office with hostVersions := s.office.hostVersions.set i.toNat w i.isLt } }
  | .linkVersion b p w => s.onPort b p fun x => { x with version := some w }
  | .linkAgree b p device pub sig => s.linkAgree b p device pub sig
  | .linkConfirm b p gen => s.onPort b p fun x => { x with confirmed := some gen }
  | .peerReport b p report cert => s.onPort b p fun x => { x with peerReport := report, peerCert := cert }
  | .checkCopies => s.checkCopies
  | .trainPort b p => if isEdgeBulk b && p < 8 then (s.onPort b p Port.train).offerKey b p else s
  | .frame b p f => if isEdgeBulk b && p < 8 then s.onPort b p fun x => { x with inbox := x.inbox ++ [f] } else s
  | .frameTimes b p n => s.onPort b p fun x => x.time n
  | .sense b power vrail irail hot avg energy =>
    s.onPower b fun x => { x with power := power, vrail := vrail, irail := irail, hot := hot, avg := avg, energy := energy }
  | .senseModule power inlet outlet flow energy =>
    { s with office := { s.office with power := power, inlet := inlet, outlet := outlet, flow := flow, energy := energy } }
  | .event _ | .issue _ | .core _ _ | .poll _ _ | .serve _ => s

end Sys2Proof.Machine
end

