-- ==== Sys2Proof/Machine/Issue.lean ====
section
/-! DEFINITION. One turn of the machine: an agent issues an instruction, an issued wait is looked at, or an
event happens (R22, R103, R155). -/

namespace Sys2Proof.Machine

/-- The outcome of an outcome. -/
def andThen (r : Result) (f : State → Result) : Result :=
  match r with
  | .next s => f s
  | .fault e => .fault e
  | .refused e => .refused e

/-- The executing agent's next instruction: fetch, breakpoint, decoding, pending registers, meaning (R103). -/
def State.attempt (s : State) : Result :=
  match s.fetchInstr with
  | .error (.trap cause eval) => .next (s.fetchTrap cause eval)
  | .error (.ask a) => .next (s.askXlat a .x).retry
  | .ok (f, s1) =>
    let s2 := { s1 with iw := f.word }
    if s2.atBreakpoint then .next (s2.trap .brk s2.pc)
    else match f.instr with
      | .error _ => .next s2.illegal
      | .ok i => if s2.awaitsReg i then .next s2.retry else exec i s2

/-- Whether an agent's wait is an issued instruction that is looked at again. -/
def State.polled (s : State) (ag : Agent) : Bool :=
  match (s.ctxOf ag).wait with
  | .issued _ _ _ _ => true
  | _ => false

/-- Whether a command of a unit, issued before number n, is not complete (R193, R228, R269). -/
def State.olderLeft (s : State) (ag : Agent) (u : CmdUnit) (n : Nat) : Bool :=
  match ag with
  | .core _ _ => false
  | .slot t _ =>
    let x := s.tile t
    match u with
    | .vec => x.vq.any fun c => c.id < n
    | .mat => x.mat.open.any fun c => c.id < n
    | .stream => x.sq.any fun c => c.id < n

/-- A wait that was looked at in state `before` has ended: its instruction retires, unless it waits on or has trapped
(R341). -/
def State.pollDone (s before : State) (ag : Agent) : State :=
  if (s.ctxOf ag).wait = .none && (match ag with | .slot t k => (s.slot t k).state != .parked | .core _ _ => true)
  then s.retired before ag else s

/-- Looks at an issued wait: the state in which it has ended, or none while it goes on (R155). -/
def State.poll (s : State) (ag : Agent) : Option Result :=
  match (s.ctxOf ag).wait with
  | .issued i w regs eregs =>
    (match exec i (s.beginPoll ag i w regs eregs) with
     | .next s' =>
       if s'.polled ag || (s'.ctxOf ag).wait = .retry then none
       else some (.next ((s'.setCtxOf ag ((s'.ctxOf ag).afterPoll (s.ctxOf ag) i)).pollDone s ag))
     | r => some r)
  | .older u n => if s.olderLeft ag u n then none else some (.next (s.endsWait ag))
  | _ => none

/-- The first slot of a list that issues, or whose wait ends (R22). -/
def State.issueFrom (s : State) (t : TileName) : List (BitVec 2) → Result
  | [] => .next s
  | k :: rest =>
    let s := s.countStep t k
    if (s.slot t k).mayIssue then
      andThen (s.begin (.slot t k)).attempt fun s' =>
        if (s'.slot t k).ctx.wait = .retry then State.issueFrom s' t rest else .next (s'.issued t k)
    else if (s.slot t k).state = .waiting then
      match s.poll (.slot t k) with
      | some r => andThen r fun s' => .next (s'.countStep t k)
      | none => State.issueFrom s t rest
    else State.issueFrom s t rest

/-- A tile issues by its scheduler (R22). -/
def State.issueTile (s : State) (t : TileName) : Result :=
  if s.tileRuns t then s.issueFrom t (s.tile t).order else .next s

/-- A proctor core issues. -/
def State.issueCore (s : State) (b : BulkId) (c : BitVec 3) : Result :=
  let x := s.core b c
  if !x.running || (s.bulk b).failed then .next s
  else match x.ctx.wait with
    | .none | .retry =>
      andThen (s.begin (.core b c)).attempt fun s' =>
        if (s'.core b c).ctx.wait = .retry then .next s' else .next (s'.coreIssued s b c)
    | .issued _ _ _ _ => (s.poll (.core b c)).getD (.next s)
    | _ => .next s

/-- One turn of the schedule. -/
def State.runTurn (s : State) : Turn → Result
  | .event e => exec e s
  | .issue t => s.issueTile t
  | .core b c => s.issueCore b c
  | .poll t k => (s.poll (.slot t k)).getD (.next s)
  | .serve m => if s.office.recovery then .next (s.statusWord m) else (s.serveCommand m).getD (.next (s.refuseCommand m))
  | turn => .next (s.outside turn)

/-- Whether an office die in RECOVERY takes a turn: it answers the host with a status word and the flash-update path, and
power-on ends RECOVERY (R346). -/
def Turn.inRecovery (turn : Turn) : Bool :=
  match turn with
  | .event .powerOn | .flashUpdate _ _ _ | .hostWrite _ _ | .serve _ | .tick _ => true
  | _ => false

/-- The next turn of the agenda, or the issue of the tile in focus. -/
def State.runAgenda (s : State) : Result :=
  match s.agenda with
  | [] => if s.office.recovery then .fault .inRecovery else s.issueTile s.focus
  | turn :: rest =>
    if s.office.recovery && !turn.inRecovery then .fault .inRecovery else { s with agenda := rest }.runTurn turn

/-! ## An instruction placed for the next step -/

/-- The slot from which the tile in focus issues next: a READY activation at `pc`, with no other claim on it. -/
def Slot.placed (x : Slot) (pc : Word) : Slot :=
  { x with state := .ready,
           ctx := { x.ctx with pc := pc, wait := .none, noEnd := false, pend := [], out := [] } }

/-- The tile with an activation placed in slot 0, which issues next. -/
def Tile.placed (x : Tile) (pc : Word) : Tile :=
  { x.onSlot 0 (·.placed pc) with ptr := 3, pre := 0, dbgCtl := 0, dbgActive := false }

end Sys2Proof.Machine
end

