-- ==== Sys2Proof/Machine/Step.lean ====
section
/-! DEFINITION. One step of the module, and an instruction placed where the next step fetches. -/

namespace Sys2Proof.Machine

/-- One step: the next turn of the agenda; with an empty agenda the tile in focus issues. -/
def step (s : State) : Host.Outcome State Fault Refusal := s.runAgenda

/-- The state with an instruction of `nbits` bits placed at offset 0 of the scratch of the tile in focus, in an
activation of its slot 0 that issues next: what a loader and a start message do together. -/
def State.withFetchWord (s : State) (nbits w : Nat) : State :=
  let t := s.focus
  let s := { s with agenda := [], office := { s.office with recovery := false },
                    mem := s.mem.writeN (scratchKey t 0) (bytesOfNat 4 (w % 2 ^ nbits)),
                    ecc := s.ecc.del (scratchKey t 0 / 8) }
  (s.onBulk t.ret fun x => { x with failed := false }).onTile t (·.placed 0)

end Sys2Proof.Machine
end

