-- ==== Sys2Proof/Safety.lean ====
section
/-! DEFINITION. What the statements speak of: completion, frames, invariants, and the values that the rules give to
scalar instructions, written from the rules and not from the meanings. -/

namespace Sys2Proof.Machine

/-! ## Completion -/

/-- The instruction answers a next state that has a property. -/
def Completes (i : Instr) (s : State) (P : State → Prop) : Prop := ∃ t, exec i s = .next t ∧ P t

/-! ## Frames -/

/-- The parts of the module that a frame may except. -/
inductive Part where
  | mem | ecc | seals | majors | cores | mapgen | tiles | blank | islands | stations | bulks | domains | packets | routers | routes
  | stationOf | lanes | watches | wires | groups | keys | ksel | regions | scrubs | migs | office | jobs | hostQueues | ports | power
  | progress | time | serial | free | cur | iw | agenda
  deriving DecidableEq, Repr

/-- The module with one part forgotten. -/
def Part.forget (p : Part) (s : State) : State :=
  match p with
  | .mem => { s with mem := [] } | .ecc => { s with ecc := [] } | .seals => { s with seals := [] }
  | .majors => { s with majors := [] } | .cores => { s with cores := [] } | .mapgen => { s with mapgen := 0 }
  | .tiles => { s with tiles := [] } | .blank => { s with blank := [] } | .islands => { s with islands := [] }
  | .stations => { s with stations := [] }
  | .bulks => { s with bulks := [] } | .domains => { s with domains := [] } | .packets => { s with packets := [] }
  | .routers => { s with routers := [] } | .routes => { s with routes := [] } | .stationOf => { s with stationOf := [] }
  | .lanes => { s with lanes := [] } | .watches => { s with watches := [] }
  | .wires => { s with wires := [] } | .groups => { s with groups := [] }
  | .keys => { s with keys := [] } | .ksel => { s with ksel := [] } | .regions => { s with regions := [] }
  | .scrubs => { s with scrubs := [] } | .migs => { s with migs := [] } | .office => { s with office := Office.reset }
  | .jobs => { s with jobs := Vector.replicate 4 .idle } | .hostQueues => { s with hostQueues := [] }
  | .ports => { s with ports := [] } | .power => { s with power := [] } | .progress => { s with progress := [] }
  | .time => { s with time := 0 }
  | .serial => { s with serial := 0 } | .free => { s with free := 0 } | .cur => { s with cur := .slot 0 0 }
  | .iw => { s with iw := 0 } | .agenda => { s with agenda := [] }

/-- Every part of the module outside a list is the same in two states: memory byte by byte, every register of every
tile, island, station and port, every packet, table and record. -/
def SameBut (ps : List Part) (s t : State) : Prop := ps.foldr Part.forget s = ps.foldr Part.forget t

/-- Every byte of memory outside a range of keys reads as before. -/
def SameBytes (lo n : Nat) (s t : State) : Prop := ∀ k, (k < lo ∨ lo + n ≤ k) → t.mem.read k = s.mem.read k

/-- Every byte of memory reads as before. -/
def SameMem (s t : State) : Prop := ∀ k, t.mem.read k = s.mem.read k

/-- One tile is as given; every other tile is as before. -/
def OneTile (u : TileName) (x : Tile) (s t : State) : Prop := t.tile u = x ∧ ∀ v, v ≠ u → t.tile v = s.tile v

/-- One bulkhead's island, station, owner registers, or one port is as given; every other is as before. -/
def OneIsland (b : BulkId) (x : Island) (s t : State) : Prop := t.island b = x ∧ ∀ c, c ≠ b → t.island c = s.island c
def OneStation (b : BulkId) (x : Station) (s t : State) : Prop := t.station b = x ∧ ∀ c, c ≠ b → t.station c = s.station c
def OneBulk (b : BulkId) (x : Bulk) (s t : State) : Prop := t.bulk b = x ∧ ∀ c, c ≠ b → t.bulk c = s.bulk c

/-- One packet of a number is in the network; every other packet is as before. -/
def OnePacket (n : Nat) (k : Packet) (s t : State) : Prop :=
  t.packets.find? n = some k ∧ ∀ m, m ≠ n → t.packets.find? m = s.packets.find? m

/-- One packet is gone; every other is as before. -/
def NoPacket (n : Nat) (s t : State) : Prop :=
  t.packets.find? n = none ∧ ∀ m, m ≠ n → t.packets.find? m = s.packets.find? m

/-- A packet that has just been injected (R277, R293). -/
def newPacket (src dst vc flits stamp : Nat) (marked : Bool) (body : Body) : Packet :=
  { vc := vc, stamp := stamp, src := src, dst := dst, marked := marked, windowed := none, flits := flits, got := 0,
    order := 0, entry := none, body := body, place := .moving, retried := false, ranges := none, span := none }

/-! ## The issuing agent -/

/-- A tile whose slot `k` has passed its instruction (R101, R149). -/
def Tile.passed (x : Tile) (k : BitVec 2) (len : Nat) : Tile :=
  x.onSlot k fun y => { y with ctx := y.ctx.advance len }

/-- A tile whose slot `k` has passed its instruction, with a result in a register (R126). -/
def Tile.passedWith (x : Tile) (k : BitVec 2) (len : Nat) (d : Reg) (v : Word) : Tile :=
  x.onSlot k fun y => { y with ctx := (y.ctx.set d v).advance len }

/-- A tile whose slot `k` has issued a `FWDW` with a number in the issue order of the tile (R19). -/
def Tile.numbered (x : Tile) (k : BitVec 2) (n : Nat) : Tile :=
  x.onSlot k fun y => { y with ctx := { y.ctx with popNo := n } }

/-- A tile whose slot `k` has issued an instruction, at TIMER `now`, and waits (R155). -/
def Tile.waits (x : Tile) (k : BitVec 2) (len : Nat) (w : Wait) (now : Word) : Tile :=
  x.onSlot k fun y =>
    { y with state := if y.state = .ready then .waiting else y.state,
             ctx := { y.ctx.advance len with ipc := y.ctx.pc, issuedAt := some now, before := y.ctx.loops, wait := w } }

/-- The register file, the extension registers and everything else of the executing agent but its program counter and
loop levels are as before, its program counter and loop levels are those of an instruction that is passed, and nothing
else in the module has changed. -/
def Passes (s t : State) : Prop := t = s.setCtx (s.ctx.advance s.len)

/-- `t` is `s` after an instruction that writes a value to a register and completes: `s0` reads 0, every other register
is as before, the context is otherwise that of an instruction that is passed, and nothing else has changed. -/
structure Writes (d : Reg) (v : Word) (s t : State) : Prop where
  value : d ≠ 0 → t.rd d = v
  zero : t.rd 0 = 0
  others : ∀ r, r ≠ d → t.rd r = s.rd r
  ctx : t.ctx = { s.ctx.advance s.len with regs := t.ctx.regs }
  rest : t = s.setCtx t.ctx
  mem : SameMem s t

/-- `t` is `s` after a jump to an address that pops the levels which a branch leaves: no register is written (R150). -/
structure Jumps (target : Word) (s t : State) : Prop where
  pc : t.pc = target
  regs : t.ctx.regs = s.ctx.regs
  ctx : t.ctx = { s.ctx.popLeft target with pc := target, noEnd := false }
  rest : t = s.setCtx t.ctx
  mem : SameMem s t

/-- `t` is `s` after a precise trap of the instruction that the READY slot `k` of tile `u` issues, where PARKALL is 0
and no debug step runs: the slot is PARKED with its trap registers set and its program counter at the instruction,
every other slot of the tile and every other tile is as before, and a trap record leaves for the island (R46, R47,
R322, R323, R329). -/
structure Traps (u : TileName) (k : BitVec 2) (cause : Cause) (eval : Word) (s t : State) : Prop where
  tile : OneTile u ((s.tile u).onSlot k fun x => { x with state := .parked, cause := cause.code, epc := s.pc, eval := eval }) s t
  record : OnePacket s.serial
    (newPacket (tileNode u) (s.islandNode u.ret (tileNode u)) 5 2 (s.stampOf (tileNode u / 4096) false) false
      (.trapRec (slotRecord u k cause.code s.pc eval true))) s t
  rest : SameBut [.tiles, .packets, .routers, .serial] s t

/-- The hypotheses of `Traps` on the state. -/
structure TrapReady (u : TileName) (k : BitVec 2) (s : State) : Prop where
  cur : s.cur = .slot u k
  ready : (s.slot u k).state = .ready
  noParkAll : bit (s.tile u).trapctl 0 = false
  noStep : (s.tile u).dbgActive = false

/-- `t` is `s` after core `c` of an island has entered level H: PCAUSE, PEPC, PEVAL and PSAVED are written, the core
is at level H with interrupts off and goes on at HVENTRY, and nothing else has changed (R302, R305). -/
structure EntersH (b : BulkId) (c : BitVec 3) (cause : BitVec 8) (epc eval : Word) (hvimm : BitVec 12) (s t : State) :
    Prop where
  island : OneIsland b ((s.island b).setCore c
    { s.core b c with pcause := cause, pepc := epc, peval := eval, hvimm := hvimm,
                      psaved := BitVec.ofNat 2 ((if (s.core b c).h then 1 else 0) + if (s.core b c).ien then 2 else 0),
                      h := true, ien := false,
                      ctx := { (s.core b c).ctx with pc := (s.core b c).hventry &&& ~~~1#64, wait := .none,
                                                     issuedAt := none, noEnd := false } }) s t
  rest : SameBut [.islands] s t

/-- A trap of the instruction of a core that runs proctor code. -/
def CoreTraps (b : BulkId) (c : BitVec 3) (cause : Cause) (eval : Word) (s t : State) : Prop :=
  EntersH b c cause.code s.pc eval (s.core b c).hvimm s t

/-- `t` is `s` after a core's instruction that is passed and has changed the core and nothing else: `x` is the core. -/
def CoreBecomes (b : BulkId) (c : BitVec 3) (x : PCore) (s t : State) : Prop :=
  OneIsland b ((s.island b).setCore c x) s t ∧ SameBut [.islands] s t

/-! ## Values of scalar instructions, from R131 to R134 -/

/-- The quotient of the division group, as an integer (R132). -/
def quotient (sg : Bool) (a b : Word) : Int :=
  if b = 0 then 2 ^ 64 - 1
  else if sg then (if a.toInt = -(2 ^ 63) ∧ b.toInt = -1 then a.toInt else a.toInt.tdiv b.toInt)
  else (a.toNat / b.toNat : Nat)

/-- The remainder of the division group, as an integer (R132). -/
def remainder (sg : Bool) (a b : Word) : Int :=
  if b = 0 then a.toInt
  else if sg then (if a.toInt = -(2 ^ 63) ∧ b.toInt = -1 then 0 else a.toInt - a.toInt.tdiv b.toInt * b.toInt)
  else (a.toNat : Int) - (a.toNat / b.toNat : Nat) * (b.toNat : Int)

/-- The number of the bits of a word, from bit 63 downward, before the first 1 (R131). -/
def zerosAbove (a : Word) : Nat := ((List.range 64).reverse.takeWhile fun i => !a.getLsbD i).length

/-- The number of the bits of a word, from bit 0 upward, before the first 1 (R131). -/
def zerosBelow (a : Word) : Nat := ((List.range 64).takeWhile fun i => !a.getLsbD i).length

/-- pos and len of a bit-field operand (R133). -/
def bitPos (b : Word) : Nat := b.toNat % 64
def bitLen (b : Word) : Nat := min (b.toNat / 64 % 128) 64

/-- What R131 to R134 and R116 give the instructions of the ALU group, the immediate forms, `XGET` aside: the register
written and its value, from the values of the registers before the instruction. -/
def aluRule (r : Reg → Word) : Instr → Option (Reg × Word)
  | .add d a b => some (d, BitVec.ofNat 64 ((r a).toNat + (r b).toNat))
  | .sub d a b => some (d, BitVec.ofInt 64 ((r a).toNat - (r b).toNat))
  | .and d a b => some (d, r a &&& r b)
  | .or d a b => some (d, r a ||| r b)
  | .xor d a b => some (d, r a ^^^ r b)
  | .andn d a b => some (d, r a &&& ~~~r b)
  | .shl d a b => some (d, BitVec.ofNat 64 ((r a).toNat * 2 ^ ((r b).toNat % 64)))
  | .shr d a b => some (d, BitVec.ofNat 64 ((r a).toNat / 2 ^ ((r b).toNat % 64)))
  | .sha d a b => some (d, BitVec.ofInt 64 ((r a).toInt / 2 ^ ((r b).toNat % 64)))
  | .rot d a b => some (d, (r a >>> ((r b).toNat % 64)) ||| (r a <<< (64 - (r b).toNat % 64)))
  | .mul d a b => some (d, BitVec.ofInt 64 ((r a).toInt * (r b).toInt))
  | .mulh d a b => some (d, BitVec.ofInt 64 ((r a).toInt * (r b).toInt / 2 ^ 64))
  | .mulhn d a b => some (d, BitVec.ofNat 64 ((r a).toNat * (r b).toNat / 2 ^ 64))
  | .div d a b => some (d, BitVec.ofInt 64 (quotient true (r a) (r b)))
  | .divn d a b => some (d, BitVec.ofInt 64 (quotient false (r a) (r b)))
  | .rem d a b => some (d, BitVec.ofInt 64 (remainder true (r a) (r b)))
  | .remn d a b => some (d, BitVec.ofInt 64 (remainder false (r a) (r b)))
  | .min d a b => some (d, BitVec.ofInt 64 (min (r a).toInt (r b).toInt))
  | .max d a b => some (d, BitVec.ofInt 64 (max (r a).toInt (r b).toInt))
  | .minn d a b => some (d, BitVec.ofNat 64 (min (r a).toNat (r b).toNat))
  | .maxn d a b => some (d, BitVec.ofNat 64 (max (r a).toNat (r b).toNat))
  | .seq d a b => some (d, if r a = r b then 1 else 0)
  | .slt d a b => some (d, if (r a).toInt < (r b).toInt then 1 else 0)
  | .sltn d a b => some (d, if (r a).toNat < (r b).toNat then 1 else 0)
  | .sel d a b => some (d, (r a &&& r d) ||| (r b &&& ~~~r d))
  | .addsh1 d a b => some (d, BitVec.ofNat 64 (2 * (r a).toNat + (r b).toNat))
  | .addsh2 d a b => some (d, BitVec.ofNat 64 (4 * (r a).toNat + (r b).toNat))
  | .addsh3 d a b => some (d, BitVec.ofNat 64 (8 * (r a).toNat + (r b).toNat))
  | .popc d a => some (d, BitVec.ofNat 64 ((List.range 64).countP fun i => (r a).getLsbD i))
  | .clz d a => some (d, BitVec.ofNat 64 (zerosAbove (r a)))
  | .ctz d a => some (d, BitVec.ofNat 64 (zerosBelow (r a)))
  | .bext d a b => some (d, BitVec.ofNat 64 ((r a).toNat / 2 ^ bitPos (r b) % 2 ^ bitLen (r b)))
  | .bexts d a b =>
    let f := (r a).toNat / 2 ^ bitPos (r b) % 2 ^ bitLen (r b)
    some (d, if bitLen (r b) = 0 then 0
             else BitVec.ofInt 64 (if f.testBit (bitLen (r b) - 1) then (f : Int) - 2 ^ bitLen (r b) else f))
  | .bins d a b =>
    let m : Word := BitVec.ofNat 64 ((2 ^ bitLen (r b) - 1) * 2 ^ bitPos (r b))
    some (d, (r d &&& ~~~m) ||| ((r a <<< bitPos (r b)) &&& m))
  | .mov d a => some (d, r a)
  | .addi d a imm => some (d, BitVec.ofInt 64 ((r a).toNat + imm.toInt))
  | .andi d a imm => some (d, r a &&& BitVec.ofInt 64 imm.toInt)
  | .ori d a imm => some (d, r a ||| BitVec.ofInt 64 imm.toInt)
  | .xori d a imm => some (d, r a ^^^ BitVec.ofInt 64 imm.toInt)
  | .slti d a imm => some (d, if (r a).toInt < imm.toInt then 1 else 0)
  | .shli d a n => some (d, BitVec.ofNat 64 ((r a).toNat * 2 ^ n.toNat))
  | .shri d a n => some (d, BitVec.ofNat 64 ((r a).toNat / 2 ^ n.toNat))
  | .shai d a n => some (d, BitVec.ofInt 64 ((r a).toInt / 2 ^ n.toNat))
  | .roti d a n => some (d, (r a >>> n.toNat) ||| (r a <<< (64 - n.toNat)))
  | .movi d imm => some (d, BitVec.ofInt 64 imm.toInt)
  | .lih d imm => some (d, BitVec.ofInt 64 (imm.toInt * 2 ^ 20 + ((r d).toNat % 2 ^ 20 : Nat)))
  | .cMov d b => some (creg d, r (creg b))
  | .cAdd d b => some (creg d, BitVec.ofNat 64 ((r (creg d)).toNat + (r (creg b)).toNat))
  | .cSub d b => some (creg d, BitVec.ofInt 64 ((r (creg d)).toNat - (r (creg b)).toNat))
  | .cAnd d b => some (creg d, r (creg d) &&& r (creg b))
  | .cOr d b => some (creg d, r (creg d) ||| r (creg b))
  | .cXor d b => some (creg d, r (creg d) ^^^ r (creg b))
  | .cShl d b => some (creg d, BitVec.ofNat 64 ((r (creg d)).toNat * 2 ^ ((r (creg b)).toNat % 64)))
  | .cShr d b => some (creg d, BitVec.ofNat 64 ((r (creg d)).toNat / 2 ^ ((r (creg b)).toNat % 64)))
  | .cAddi d imm => some (creg d, BitVec.ofInt 64 ((r (creg d)).toNat + imm.toInt))
  | .cMovi d imm => some (creg d, BitVec.ofInt 64 imm.toInt)
  | .cShli d n => some (creg d, BitVec.ofNat 64 ((r (creg d)).toNat * 2 ^ n.toNat))
  | _ => none

/-! ## Branch conditions, from R145 and R116 -/

/-- The condition and the target of a branch or jump at an address. Addresses of instructions are even, so clearing bit
0 of a target changes nothing but in `J` and `C.J`. -/
def branchRule (r : Reg → Word) (pc : Word) : Instr → Option (Bool × Word)
  | .beq a c off => some (r a = r c, (pc + BitVec.ofInt 64 (2 * off.toInt)) &&& ~~~1#64)
  | .bne a c off => some (r a ≠ r c, (pc + BitVec.ofInt 64 (2 * off.toInt)) &&& ~~~1#64)
  | .blt a c off => some ((r a).toInt < (r c).toInt, (pc + BitVec.ofInt 64 (2 * off.toInt)) &&& ~~~1#64)
  | .bge a c off => some ((r c).toInt ≤ (r a).toInt, (pc + BitVec.ofInt 64 (2 * off.toInt)) &&& ~~~1#64)
  | .bltn a c off => some ((r a).toNat < (r c).toNat, (pc + BitVec.ofInt 64 (2 * off.toInt)) &&& ~~~1#64)
  | .bgen a c off => some ((r c).toNat ≤ (r a).toNat, (pc + BitVec.ofInt 64 (2 * off.toInt)) &&& ~~~1#64)
  | .bbs a c off => some ((r a).getLsbD ((r c).toNat % 64), (pc + BitVec.ofInt 64 (2 * off.toInt)) &&& ~~~1#64)
  | .bbc a c off => some (!(r a).getLsbD ((r c).toNat % 64), (pc + BitVec.ofInt 64 (2 * off.toInt)) &&& ~~~1#64)
  | .cBeqz a off => some (r (creg a) = 0, (pc + BitVec.ofInt 64 (2 * off.toInt)) &&& ~~~1#64)
  | .cBnez a off => some (r (creg a) ≠ 0, (pc + BitVec.ofInt 64 (2 * off.toInt)) &&& ~~~1#64)
  | .b off => some (true, (pc + BitVec.ofInt 64 (2 * off.toInt)) &&& ~~~1#64)
  | .cB off => some (true, (pc + BitVec.ofInt 64 (2 * off.toInt)) &&& ~~~1#64)
  | .j a off => some (true, (r a + BitVec.ofInt 64 off.toInt) &&& ~~~1#64)
  | .cJ a => some (true, r (creg a) &&& ~~~1#64)
  | _ => none

/-! ## Loads and stores, from R136 and R116 -/

/-- Width, sign extension, destination and effective address of a scalar load. -/
def loadRule (r : Reg → Word) : Instr → Option (Nat × Bool × Reg × Word)
  | .ldb d a off => some (1, false, d, r a + BitVec.ofInt 64 off.toInt)
  | .ldh d a off => some (2, false, d, r a + BitVec.ofInt 64 off.toInt)
  | .ldw d a off => some (4, false, d, r a + BitVec.ofInt 64 off.toInt)
  | .ldd d a off => some (8, false, d, r a + BitVec.ofInt 64 off.toInt)
  | .ldbs d a off => some (1, true, d, r a + BitVec.ofInt 64 off.toInt)
  | .ldhs d a off => some (2, true, d, r a + BitVec.ofInt 64 off.toInt)
  | .ldws d a off => some (4, true, d, r a + BitVec.ofInt 64 off.toInt)
  | .cLdd d a off => some (8, false, creg d, r (creg a) + BitVec.ofNat 64 (8 * off.toNat))
  | .cLdw d a off => some (4, false, creg d, r (creg a) + BitVec.ofNat 64 (4 * off.toNat))
  | _ => none

/-- Width, stored register value and effective address of a scalar store. -/
def storeRule (r : Reg → Word) : Instr → Option (Nat × Word × Word)
  | .stb c a off => some (1, r c, r a + BitVec.ofInt 64 off.toInt)
  | .sth c a off => some (2, r c, r a + BitVec.ofInt 64 off.toInt)
  | .stw c a off => some (4, r c, r a + BitVec.ofInt 64 off.toInt)
  | .std c a off => some (8, r c, r a + BitVec.ofInt 64 off.toInt)
  | .cStd c a off => some (8, r (creg c), r (creg a) + BitVec.ofNat 64 (8 * off.toNat))
  | .cStw c a off => some (4, r (creg c), r (creg a) + BitVec.ofNat 64 (4 * off.toNat))
  | _ => none

/-- The value that n loaded bytes give (R136). -/
def loadedValue (sg : Bool) (bs : List Byte) : Word :=
  let v := ofBytes bs
  if sg && 2 ^ (8 * bs.length) ≤ 2 * v then BitVec.ofInt 64 ((v : Int) - 2 ^ (8 * bs.length)) else BitVec.ofNat 64 v

/-- Bytes of own tile scratch are read at issue: no STRONG access of the agent and no `CADDF` is outstanding, and no
queued vector command and no request of the agent on its way names the bytes (R19, R82, R83, R89, R191). -/
structure ReadFree (u : TileName) (off n : Nat) (s : State) : Prop where
  noStrong : s.strongOut = false
  noAcquire : s.acquiring = false
  noVec : s.vecOverlap u off n = false
  noFlight : s.inFlight (scratchKey u off) n = false

/-- An access of own tile scratch is performed at issue: nothing holds it back, and none of its words holds an
uncorrectable error (R139, R141). -/
structure OwnFree (u : TileName) (off n : Nat) (s : State) : Prop extends ReadFree u off n s where
  noEcc : s.eccBad (scratchKey u off) n = false

/-- A write of own tile scratch is performed at issue: besides, no leader's `MMAS` that waits to join has the bytes in its
metadata (R19, R224). -/
structure WriteFree (u : TileName) (off n : Nat) (s : State) : Prop extends OwnFree u off n s where
  noMeta : s.metaBefore s.serial u off n = false

/-- An address off the issuing tile: it names something, and neither a tile state space nor the tile's own scratch. -/
structure OffTile (u : TileName) (a : Word) (n : Nat) (s : State) : Prop where
  named : s.loc a n ≠ .bad
  noState : ∀ v off, s.loc a n ≠ .state v off
  notOwn : ∀ off, s.loc a n ≠ .scratch u off

/-- An address of n bytes of another tile's scratch, by the tag 0x1 that names the tile (R72, R73). -/
structure Elsewhere (u v : TileName) (a : Word) (off n : Nat) (s : State) : Prop where
  addr : a.toNat = 2 ^ 60 + v * 2 ^ 24 + off
  name : v < 2 ^ 19
  tile : s.tileExists v = true
  other : v ≠ u
  inside : off + n ≤ 0x28000

/-- Nothing holds back a load of another tile's scratch: gates not at HOLD, no `CADDF` outstanding, no queued vector access
of the slot to the same bytes (R82, R89, R292). -/
structure MayLeave (u v : TileName) (a : Word) (off n : Nat) (s : State) : Prop where
  gate : (s.bulk u.ret).gate ≠ 2
  noAcquire : s.acquiring = false
  noVec : s.behindVec a (.scratch v off) n = false

/-- Nor a write, which is a release point: no check is outstanding or has failed, and fewer than 16 requests of the tile
are unacknowledged (R99, R141). -/
structure MayWrite (u v : TileName) (a : Word) (off n : Nat) (s : State) : Prop extends MayLeave u v a off n s where
  outst : (s.tile u).outst = 0
  fails : (s.tile u).fails = 0
  room : (s.tile u).offTile.length < 16

/-- `t` is `s` after slot `k` of tile `u` has passed an access to tile `v`'s scratch that leaves as a request of one flit on
VC0: the access is outstanding, one that returns data has its destination pending, one that writes is among the tile's
16 requests (R77, R126, R141, R278, R293). -/
structure Sends (u : TileName) (k : BitVec 2) (acc : Access) (a : Word) (v : TileName) (dest : Option Reg) (s t : State) :
    Prop where
  request : OnePacket (s.serial + 1)
    (newPacket (tileNode u) (tileNode v) 0 1 (s.bulk u.ret).region.toNat false
      (.req { acc := acc, addr := a, who := s.ticket, also := [], pid := (s.tile u).pid, hLevel := false, dest := dest,
              counted := false, lc := false })) s t
  tile : OneTile u
    (Tile.passed { (s.tile u).onSlot k fun y =>
        { y with ctx := { y.ctx with
            out := y.ctx.out ++ [{ id := s.serial, load := acc.isLoad, returns := acc.returns, acquire := acc.isAcquire,
                                   strong := false }],
            pend := match dest with
                    | some d => if d = 0 then y.ctx.pend
                                else y.ctx.pend ++ [{ reg := d, id := s.serial, failed := false }]
                    | none => y.ctx.pend } } with
       offTile := if acc.isLimited then (s.tile u).offTile ++ [s.serial] else (s.tile u).offTile } k s.len) s t
  rest : SameBut [.tiles, .packets, .routers, .serial] s t

/-- An address of a counter that passes the checks of R157. -/
structure CounterNamed (a : Word) (s : State) : Prop where
  aligned : a.toNat % 16 = 0
  named : s.loc a 16 ≠ .bad
  noState : ∀ v off, s.loc a 16 ≠ .state v off

/-- A release point lets the instruction act: no check result is outstanding and none has failed (R99), and every
earlier access of the agent is performed (R88). -/
structure Released (u : TileName) (s : State) : Prop where
  outst : (s.tile u).outst = 0
  fails : (s.tile u).fails = 0
  done : s.released = true

/-- The word that a reduction leaves at its address, from R162. -/
def reductionRule (op : RedOp) (mod : BitVec 2) (m b : Nat) : Nat :=
  let w := if op = .addf ∨ mod ≠ 0 then 32 else 64
  let sg (x : Nat) : Int := if 2 ^ w ≤ 2 * x then (x : Int) - 2 ^ w else x
  match op with
  | .add => (m + b) % 2 ^ w
  | .addf => fadd m b
  | .and => m &&& b
  | .or => m ||| b
  | .xor => m ^^^ b
  | .min => if mod = 2 then fp32.pick false m b else if sg b < sg m then b else m
  | .max => if mod = 2 then fp32.pick true m b else if sg m < sg b then b else m

/-- Operator, modifier and registers of a reduction. -/
def reductionForm : Instr → Option (RedOp × BitVec 2 × Reg × Reg)
  | .redadd m a b => some (.add, m, a, b)
  | .redaddf a b => some (.addf, 0, a, b)
  | .redmin m a b => some (.min, m, a, b)
  | .redmax m a b => some (.max, m, a, b)
  | .redand m a b => some (.and, m, a, b)
  | .redor m a b => some (.or, m, a, b)
  | .redxor m a b => some (.xor, m, a, b)
  | _ => none

/-! ## Counters in own scratch (R93, R94, R157 to R161) -/

/-- An address of own tile scratch, by tag 0x0 or by the tag 0x1 that names the tile, at an offset (R72, R73, R157). -/
abbrev OwnAt (u : TileName) (a : Word) (off : Nat) (s : State) : Prop :=
  a.toNat = off ∨ (a.toNat = 2 ^ 60 + u * 2 ^ 24 + off ∧ u < 2 ^ 19 ∧ s.tileExists u = true)

/-- A counter instruction of slot `k` at a counter in its tile's own scratch acts at issue: the checks of R157 pass and
nothing of R83, R88, R99, R139 and R191 holds it back. -/
structure CounterHere (u : TileName) (k : BitVec 2) (a : Word) (off : Nat) (s : State) : Prop where
  cur : s.cur = .slot u k
  name : u < 2 ^ 19
  own : OwnAt u a off s
  aligned : off % 16 = 0
  inside : off + 16 ≤ 0x28000
  free : OwnFree u off 16 s
  done : Released u s

/-- No watch belongs to the home of a tile or to a counter of it. -/
def unwatched (u : TileName) (key : Nat) (s : State) : Bool := s.watches.all fun w => w.home != u && w.key != key

/-- No slot of a tile waits on a counter in its own scratch. -/
def unwaited (u : TileName) (key : Nat) (s : State) : Bool :=
  allSlots.all fun k => match (s.slot u k).ctx.wait with | .counter key' _ _ => key' != key | _ => true

/-- A slot after a counter has reached a value: a wait on it with a target that is reached has ended, and `CWAITT` has
its flag, 1 when its timeout had not expired before TIMER `now` (R94, R158). -/
def Slot.reached (x : Slot) (key v : Nat) (now : Word) : Slot :=
  match x.ctx.wait with
  | .counter key' target flag =>
    if key' = key ∧ target.toNat ≤ v then
      { x with state := if x.state = .waiting then .ready else x.state,
               ctx := { (match flag with
                          | some d => x.ctx.set d.1 (if now.toNat ≤ d.2.toNat then 1 else 0)
                          | none => x.ctx) with wait := .none } }
    else x
  | _ => x

/-- A counter instruction of slot `k` at a counter in another tile's scratch leaves the tile at issue: the checks of R157
pass and nothing of R88, R99, R141 and R292 holds it back. -/
structure CounterThere (u : TileName) (k : BitVec 2) (v : TileName) (a : Word) (off : Nat) (s : State) : Prop
    extends Elsewhere u v a off 16 s where
  cur : s.cur = .slot u k
  aligned : off % 16 = 0
  done : Released u s
  gate : (s.bulk u.ret).gate ≠ 2
  room : (s.tile u).offTile.length < 16

/-- A counter in memory after an add: its value, its status, every other byte (R93, R157). -/
structure Counted (key : Nat) (n : Nat) (s t : State) : Prop where
  value : (t.mem.word key).toNat = min ((s.mem.word key).toNat + n) (2 ^ 64 - 1)
  status : t.mem.word (key + 8) = s.mem.word (key + 8) ||| (if 2 ^ 64 ≤ (s.mem.word key).toNat + n then 1 else 0)
  bytes : SameBytes key 16 s t

/-! ## Messages and queues -/

/-- A message of the executing slot, as its operands give it (R28, R166). -/
def slotMessage (u : TileName) (e0 : Word) (off n : Nat) (dest : TileName) (lc : Bool) (who : Ticket) (s : State) : Msg :=
  { dest := dest, q := BitVec.ofNat 3 (e0.toNat / 2 ^ 16), tag := BitVec.ofNat 16 e0.toNat, len := n,
    payload := s.mem.readN (scratchKey u off) n, sender := BitVec.ofNat 64 (2 ^ 60 + u * 2 ^ 24), ext := false,
    lc := lc, wake := false, who := some who }

/-- The operands of a message pass the checks of R166: its length, its alignment, its place in own scratch, and a tile
that exists as its destination. -/
structure MessageOk (u : TileName) (off : Nat) (dest : TileName) (A B D : Word) (s : State) : Prop where
  len : D.toNat ≤ 256
  payload : D ≠ 0 → off % 8 = 0 ∧ off + D.toNat ≤ 0x28000 ∧ OwnAt u B off s
  empty : D = 0 → off = 0
  dest : (A.toNat < 2 ^ 60 ∧ dest = u)
    ∨ (A.toNat / 2 ^ 24 = 2 ^ 36 + dest ∧ dest < 2 ^ 19 ∧ s.tileExists dest = true)

/-- The described queue of an instruction, whose read entry is `i` and not taken by another activation (R143, R175). -/
structure QueueReady (u : TileName) (k : BitVec 2) (qn : QNum) (q : Queue) (i : Nat) (s : State) : Prop where
  cur : s.cur = .slot u k
  here : (s.tile u).queue qn = q
  valid : q.valid = true
  entry : q.readEntry = some i
  mine : (q.entry i).takenByOther k = false

/-- The write of n bytes of own scratch by the executing instruction follows what issued before it on the tile: no queued
vector command and no `MMAS` that waits to join names the bytes (R19, R191, R224). -/
abbrev Behind (u : TileName) (off n : Nat) (s : State) : Prop := s.vecOverlap u off n = false ∧ s.metaBefore s.serial u off n = false

/-! ## The stream engine (R257 to R267) -/

/-- The acquire flag and the registers of a transfer command. -/
def streamForm : Instr → Option (Bool × Reg × Reg × Reg)
  | .fetch acq _ _ _ d a b | .put acq _ _ _ d a b | .copy acq _ _ _ d a b | .mcast acq _ _ _ d a b
  | .gather acq _ _ _ d a b | .scatter acq _ _ _ d a b => some (acq, d, a, b)
  | _ => none

/-- The transfer command that slot `k` of tile `u` names (R262, R263), with the records of its handles. -/
def namedCommand (u : TileName) (k : BitVec 2) (i : Instr) (acq : Bool) (d a b : Reg) (src dst : Option TRec) (total : Nat)
    (s : State) : SCmd :=
  { id := s.serial, instr := i, slot := k, act := (s.slot u k).act, epc := s.pc, iw := s.iw, d := s.rd d, a := s.rd a,
    b := s.rd b, e0 := s.erd 0, e1 := s.erd 1, e2 := s.erd 2, recSrc := src, recDst := dst,
    after := if acq then s.outIds else [], started := false, pos := 0, total := total, chunks := [], entries := [],
    order := [], members := none, engine := 0, engineOf := [], checks := 0, addsLeft := none }

/-- That command with the bytes of its records. -/
def transfer (u : TileName) (k : BitVec 2) (i : Instr) (acq : Bool) (d a b : Reg) (src dst : Option TRec) (s : State) : SCmd :=
  namedCommand u k i acq d a b src dst (namedCommand u k i acq d a b src dst 0 s).size s

/-! ## Release points (R99) -/

/-- A transfer command passes the checks of R264, with the records of its handles. -/
structure TransferOk (u : TileName) (k : BitVec 2) (i : Instr) (acq : Bool) (d a b : Reg) (src dst : Option TRec) (s : State) :
    Prop where
  form : streamForm i = some (acq, d, a, b)
  records :
    let mode := (s.erd 1).toNat % 4
    let record (h : Nat) (r : Option TRec) : Prop := ∃ v, (s.tile u).handle (h % 2 ^ 32) = some v ∧ r = some v
    if isListed i ∨ mode = 0 then src = none ∧ dst = none
    else if mode = 1 then record (s.erd 0).toNat src ∧ dst = none
    else if mode = 2 then src = none ∧ record (s.erd 0).toNat dst
    else record (s.erd 0).toNat src ∧ record ((s.erd 0).toNat / 2 ^ 32) dst
  counter : CounterNamed (s.rd b) s
  mcast : isMcast i = true → (s.rd b).toNat + 16 ≤ 0x28000
  mode : (transfer u k i acq d a b src dst s).badMode = false
  aligned : ∀ y ∈ (transfer u k i acq d a b src dst s).aligned, y.toNat % 8 = 0
  size : isListed i = false → (s.erd 1).toNat % 4 = 0 → (transfer u k i acq d a b src dst s).size % 8 = 0
  sides : ∀ y ∈ (transfer u k i acq d a b src dst s).direct, s.sideBad u y = false ∧ s.sidePriv u y = false

/-- The instructions that are a release point as they issue (R99), where their other checks pass. -/
inductive IsRelease (u : TileName) (k : BitVec 2) (s : State) : Instr → Prop where
  | fence (kind : BitVec 2) (scope : BitVec 3) : kind ≠ 0 → IsRelease u k s (.fence kind scope)
  | commit : IsRelease u k s .commit
  | theEnd (i : Instr) : i = .endI ∨ i = .cEnd → s.shareClosed u k = false → IsRelease u k s i
  | trig : (s.slot u k).shared = true ∨ CounterNamed (s.slot u k).counter s → IsRelease u k s .trig
  | add (i : Instr) (a : Reg) : ((∃ b, i = .cadd a b) ∨ ∃ d b, i = .caddf d a b) → CounterNamed (s.rd a) s → IsRelease u k s i
  | send (i : Instr) (lc : Bool) (a b d : Reg) (off : Nat) (dest : TileName) : i = .send lc a b d ∨ i = .sends lc a b d →
      MessageOk u off dest (s.rd a) (s.rd b) (s.rd d) s → IsRelease u k s i
  | fwd (dir : BitVec 2) (a : Reg) (n : TileName) : neighbour u dir = some n → s.tileExists n = true → IsRelease u k s (.fwd dir a)
  | syscall (c : Reg) (off : Nat) : OwnAt u (s.rd c) off s → off % 64 = 0 → off + 64 ≤ 0x28000 → (s.erd 1).toNat % 16 = 0 →
      s.loc (s.erd 1) 16 ≠ .bad → IsRelease u k s (.syscall c)
  | migrate : (s.tile u).draftsOf k = [] → IsRelease u k s .migrate
  | store (i : Instr) (n : Nat) (v ea : Word) : storeRule s.rd i = some (n, v, ea) → ea.toNat % n = 0 → OffTile u ea n s →
      IsRelease u k s i
  | reduction (i : Instr) (op : RedOp) (mod : BitVec 2) (a b : Reg) (n : Nat) : reductionForm i = some (op, mod, a, b) →
      n = (if op = .addf ∨ mod ≠ 0 then 4 else 8) → (s.rd a).toNat % n = 0 → OffTile u (s.rd a) n s → IsRelease u k s i
  | transfer (i : Instr) (acq : Bool) (d a b : Reg) (src dst : Option TRec) : TransferOk u k i acq d a b src dst s →
      IsRelease u k s i

/-! ## The vector unit (R190, R196, R205) -/

/-- The scalar operand and the scalar destination of a vector instruction that acts on rows, from R112 and R113. -/
def vecForm (r : Reg → Word) : Instr → Option (Word × Option Reg)
  | .vadd _ _ _ _ | .vsub _ _ _ _ | .vmul _ _ _ _ | .vfma _ _ _ _ | .vmin _ _ _ _ | .vmax _ _ _ _ | .vand _ _ _ _
  | .vor _ _ _ _ | .vxor _ _ _ _ | .vshl _ _ _ _ | .vshr _ _ _ _ | .vsha _ _ _ _ | .vabs _ _ _ | .vneg _ _ _
  | .vrec _ _ _ _ | .vexp2 _ _ _ | .vlog2 _ _ _ | .vrcp _ _ _ | .vrsq _ _ _ | .vsig _ _ _ | .vcvt _ _ _ _ _ _
  | .vperm _ _ _ _ | .vshf _ _ _ _ | .vscan _ _ _ _ | .vmov _ _ _ => some (0, none)
  | .vbcast _ _ a | .vins _ _ a _ | .vsel _ _ a _ => some (r a, none)
  | .vext _ a _ _ | .vcmpeq _ a _ _ | .vcmplt _ a _ _ | .vcmple _ a _ _ | .vredadd _ a _ | .vredmax _ a _
  | .vredmin _ a _ => some (0, some a)
  | _ => none

/-- `t` is `s` after a command has joined the vector queue of tile `x` as its youngest, with the operands `a` and `m`
and the bytes it has read, and the instruction has been passed; a scalar destination other than `s0` awaits its result
from now on (R190). -/
structure Enqueues (u : TileName) (k : BitVec 2) (x : Tile) (i : Instr) (a m : Word) (dest : Option Reg)
    (data : Option (List Byte)) (s t : State) : Prop where
  tile : OneTile u
    (Tile.passed { x.onSlot k fun y =>
        { y with ctx := { y.ctx with pend := match dest with
                                       | some d => if d = 0 then y.ctx.pend
                                                   else y.ctx.pend ++ [{ reg := d, id := s.serial, failed := false }]
                                       | none => y.ctx.pend } } with
       vq := x.vq ++ [{ id := s.serial, instr := i, slot := k, act := (s.slot u k).act, epc := s.pc, iw := s.iw, a := a,
                        m := m, started := false, sent := false, data := data, carry := none, forwarded := false }] }
      k s.len) s t
  rest : SameBut [.tiles, .serial] s t

/-- A row command's result, from R196 to R201, R205, R206 and R208: the row written, the rows read in order, the width and
number of the lanes written, and the value of a lane from the rows read. -/
structure RowRule where
  dest : VReg
  reads : List VReg
  width : Nat
  lanes : Nat
  value : Nat → List Row → Nat

/-- A lane of R196: the exact value of a floating-point lane rounded once to nearest, ties to even, or the integer. -/
def laneArith (ty : Ty) (fp : FP → FP → FP → FP) (int : Int → Int → Int → Int) (d x y : Nat) : Nat :=
  match fmtOf ty.toNat with
  | some f => f.round 0 false (fp (f.value d) (f.value x) (f.value y))
  | none => (int (signed ty.width d) (signed ty.width x) (signed ty.width y) % 2 ^ ty.width).toNat

/-- The smaller or larger of two lanes (R196). -/
def laneExtreme (ty : Ty) (largest : Bool) (x y : Nat) : Nat :=
  match fmtOf ty.toNat with
  | some f => f.pick largest x y
  | none => if (if largest then signed ty.width x < signed ty.width y else signed ty.width y < signed ty.width x) then y else x

/-- A lane with its sign removed or inverted (R196). -/
def laneSign (ty : Ty) (invert : Bool) (x : Nat) : Nat :=
  let half := 2 ^ (ty.width - 1)
  match fmtOf ty.toNat with
  | some f => if (f.value x).isNan then f.nan else if invert && x < half then x + half else x % half
  | none => ((if invert then -signed ty.width x else |signed ty.width x|) % 2 ^ ty.width).toNat

/-- A lane function of a floating-point type (R198). -/
def laneFn (ty : Ty) (g : Fmt → Nat → Nat) (x : Nat) : Nat := match fmtOf ty.toNat with | some f => g f x | none => x

/-- The rule of a lane-by-lane instruction of two sources, and of one. -/
def binaryRule (ty : Ty) (d a b : VReg) (g : Nat → Nat → Nat) : RowRule :=
  { dest := d, reads := [a, b], width := ty.width, lanes := ty.lanes,
    value := fun j r => g (lane ty.width (r.getD 0 0) j) (lane ty.width (r.getD 1 0) j) }
def unaryRule (ty : Ty) (d a : VReg) (g : Nat → Nat) : RowRule :=
  { dest := d, reads := [a], width := ty.width, lanes := ty.lanes, value := fun j r => g (lane ty.width (r.getD 0 0) j) }

/-- The result of a row command that writes one row, with its scalar operand. -/
def rowRule (i : Instr) (scalar : Word) : Option RowRule :=
  match i with
  | .vadd ty d a b => some (binaryRule ty d a b (laneArith ty (fun _ x y => x.add y) (fun _ x y => x + y) 0))
  | .vsub ty d a b => some (binaryRule ty d a b (laneArith ty (fun _ x y => x.add y.neg) (fun _ x y => x - y) 0))
  | .vmul ty d a b => some (binaryRule ty d a b (laneArith ty (fun _ x y => x.mul y) (fun _ x y => x * y) 0))
  | .vfma ty d a b => some { binaryRule ty d a b fun _ _ => 0 with
      reads := [d, a, b],
      value := fun j r => laneArith ty (fun z x y => (x.mul y).add z) (fun z x y => x * y + z) (lane ty.width (r.getD 0 0) j)
        (lane ty.width (r.getD 1 0) j) (lane ty.width (r.getD 2 0) j) }
  | .vmin ty d a b => some (binaryRule ty d a b (laneExtreme ty false))
  | .vmax ty d a b => some (binaryRule ty d a b (laneExtreme ty true))
  | .vand ty d a b => some (binaryRule ty d a b fun x y => x &&& y)
  | .vor ty d a b => some (binaryRule ty d a b fun x y => x ||| y)
  | .vxor ty d a b => some (binaryRule ty d a b fun x y => x ^^^ y)
  | .vshl ty d a b => some (binaryRule ty d a b fun x y => x * 2 ^ (y % ty.width))
  | .vshr ty d a b => some (binaryRule ty d a b fun x y => x / 2 ^ (y % ty.width))
  | .vsha ty d a b => some (binaryRule ty d a b fun x y => (signed ty.width x / 2 ^ (y % ty.width) % 2 ^ ty.width).toNat)
  | .vabs ty d a => some (unaryRule ty d a (laneSign ty false))
  | .vneg ty d a => some (unaryRule ty d a (laneSign ty true))
  | .vexp2 ty d a => some (unaryRule ty d a (laneFn ty fun f => f.exp2 ty.toNat))
  | .vlog2 ty d a => some (unaryRule ty d a (laneFn ty fun f => f.log2 ty.toNat))
  | .vrcp ty d a => some (unaryRule ty d a (laneFn ty Fmt.recip))
  | .vrsq ty d a => some (unaryRule ty d a (laneFn ty Fmt.rsqrt))
  | .vsig ty d a => some (unaryRule ty d a (laneFn ty fun f => f.sigmoid ty.toNat))
  | .vmov ty d a => some (unaryRule ty d a id)
  | .vperm ty d a b => some { binaryRule ty d a b fun _ _ => 0 with
      value := fun j r => lane ty.width (r.getD 0 0) (lane ty.width (r.getD 1 0) j % ty.lanes) }
  | .vshf ty d a b => some { binaryRule ty d a b fun _ _ => 0 with
      value := fun j r => lane ty.width (r.getD (j % 2) 0) (j / 2) }
  | .vrec ty d a b => match fmtOf ty.toNat with
    | none => none
    | some f => some
      { dest := d, reads := [d, a, b], width := 32, lanes := 16,
        value := fun j r => toFP32 (((f.value (lane ty.width (r.getD 1 0) j)).mul (fp32.value (lane 32 (r.getD 0 0) j))).add
          (f.value (lane ty.width (r.getD 2 0) j))) }
  | .vscan ty d a op => if op = 3 then none else some
      { unaryRule ty d a id with
        width := 32, lanes := 16, value := fun j r => (koggeStone ty op.toNat ((List.range 16).map (lane 32 (r.getD 0 0)))).getD j 0 }
  | .vbcast ty d _ => some { unaryRule ty d d id with reads := [], value := fun _ _ => scalar.toNat }
  | .vins ty d _ k => some { unaryRule ty d d id with
      value := fun j r => if j = k.toNat then scalar.toNat else lane ty.width (r.getD 0 0) j }
  | .vsel ty v _ x => some { binaryRule ty v v x fun _ _ => 0 with
      value := fun j r => lane ty.width (r.getD (if scalar.getLsbD j then 1 else 0) 0) j }
  | _ => none

/-- Whether two lanes compare equal, less, or less or equal: never with a NaN (R206). -/
def laneTest (ty : Ty) (test : Int → Int → Bool) (x y : Nat) : Bool :=
  match fmtOf ty.toNat with
  | some f => !(f.value x).isNan && !(f.value y).isNan && test (f.key x) (f.key y)
  | none => test (signed ty.width x) (signed ty.width y)

/-- The result of a compare: a bit for each lane (R206). -/
def compareRule (ty : Ty) (test : Int → Int → Bool) (r : List Row) : Word :=
  BitVec.ofNat 64 ((List.range ty.lanes).map fun j =>
    if laneTest ty test (lane ty.width (r.getD 0 0) j) (lane ty.width (r.getD 1 0) j) then 2 ^ j else 0).sum

/-- A vector command with a scalar result, from R205 to R207: its register, the rows read, and the result. -/
def scalarRule : Instr → Option (Reg × List VReg × (List Row → Word))
  | .vext ty a v k => some (a, [v], fun r =>
      let x := lane ty.width (r.getD 0 0) k.toNat
      if ty.isInt then BitVec.ofInt 64 (signed ty.width x) else BitVec.ofNat 64 x)
  | .vcmpeq ty a v x => some (a, [v, x], compareRule ty fun p q => p = q)
  | .vcmplt ty a v x => some (a, [v, x], compareRule ty fun p q => p < q)
  | .vcmple ty a v x => some (a, [v, x], compareRule ty fun p q => p ≤ q)
  | .vredadd ty a v => some (a, [v], fun r =>
      let l := (List.range ty.lanes).map (lane ty.width (r.getD 0 0))
      match fmtOf ty.toNat with
      | some f => BitVec.ofNat 64 (halve fadd 7 (l.map fun x => toFP32 (f.value x)))
      | none => BitVec.ofInt 64 (signed 32 ((l.map (signed ty.width)).sum % 2 ^ 32).toNat))
  | .vredmax ty a v => some (a, [v], fun r =>
      let x := halve (laneExtreme ty true) 7 ((List.range ty.lanes).map (lane ty.width (r.getD 0 0)))
      match fmtOf ty.toNat with | some f => BitVec.ofNat 64 (toFP32 (f.value x)) | none => BitVec.ofInt 64 (signed ty.width x))
  | .vredmin ty a v => some (a, [v], fun r =>
      let x := halve (laneExtreme ty false) 7 ((List.range ty.lanes).map (lane ty.width (r.getD 0 0)))
      match fmtOf ty.toNat with | some f => BitVec.ofNat 64 (toFP32 (f.value x)) | none => BitVec.ofInt 64 (signed ty.width x))
  | _ => none

/-- An element of a floating-point accumulator after a gang operation: the groups along K in ascending order, the products
of each summed exactly and rounded, then added and rounded (R219, R224). -/
def gangElement (groups : Nat) (terms : Nat → List FP) (acc : Nat) : Nat :=
  (List.range groups).foldl (fun v g => toFP32 ((fp32.value v).add (fp32.value (toFP32 (FP.sum (terms g)))))) acc

/-- The products of a group: four of a dense operation, or those of the two kept elements, at the positions that the
metadata gives (R219, R224). -/
def denseTerms (fa fb : Fmt) (a b : Row) (g : Nat) : List FP :=
  (List.range 4).map fun k => (fa.value (lane fa.width a (4 * g + k))).mul (fb.value (lane fb.width b (4 * g + k)))
def sparseTerms (fa fb : Fmt) (a b : Row) (positions : Word) (g : Nat) : List FP :=
  let at' (n : Nat) : Nat := 4 * g + positions.toNat / 2 ^ (4 * g + 2 * n) % 4
  (List.range 2).map fun n => (fa.value (lane fa.width a (2 * g + n))).mul (fb.value (lane fb.width b (at' n)))

/-- An E2M1 code in units of 0.5 (R48, R59). -/
def e2m1Halves (code : Nat) : Int :=
  let m : Int := ([0, 1, 2, 3, 4, 6, 8, 12].getD (code % 8) 0 : Nat)
  if code < 8 then m else -m

/-- A row of a tile's accumulator file (R18). -/
def Tile.row (x : Tile) (n : Nat) : Row := x.rows.get 0 n

/-- A lane of the scan of the rows of a tile from row `v` on: the value in [31:0], for `rec` the a component there and the b
component, from the next row, in [63:32] (R63, R208, R209). -/
def scanRule (ty : Ty) (op : Nat) (x : Tile) (v j : Nat) : Nat :=
  (koggeStone ty op ((List.range 16).map fun i =>
    lane 32 (x.row v) i + if op = 3 then 2 ^ 32 * lane 32 (x.row (v + 1)) i else 0)).getD j 0

/-- What an `XSCAN` of a tile takes before it combines: no carry where its role expects none, the carry that it keeps, or
the oldest of its mailbox, once no `FWDW` that issued before waits there; and the tile with it taken. None while it waits
for its carry (R19, R209, R210). -/
def scanTakes (x : Tile) (c : VCmd) (dirIn role : BitVec 2) : Option (Option Word × Tile) :=
  if ¬(role = 0 ∨ role = 2) then some (none, x)
  else match c.carry, x.box dirIn with
    | some w, _ => some (some w, x)
    | none, [] => none
    | none, w :: _ =>
      if x.waitPops dirIn c.id then none else some (some w, (x.popBox dirIn).onVec c.id fun e => { e with carry := some w })

/-- The only command of a tile's vector unit has started, and no matrix command waits on it. -/
structure OneCommand (u : TileName) (c : VCmd) (s : State) : Prop where
  only : (s.tile u).vq = [c]
  started : c.started = true
  noZeros : (s.tile u).mat.zeros = []

/-! ## The fabric (R155, R252) -/

/-- A slot after the fabric of its tile has halted: a `DWAIT` that waited is complete. -/
def Slot.dwaited (x : Slot) : Slot :=
  match x.ctx.wait with
  | .issued .dwait _ _ _ =>
    { x with state := if x.state = .waiting then .ready else x.state, ctx := { x.ctx with wait := .none } }
  | _ => x

/-! ## Packets and what they bring (R78, R126, R139, R140, R278, R293, R324) -/

/-- A packet that stands whole at its destination; the activation that it concerns is not on its way between its slot
and a proctor core (R182). -/
structure Arrived (p : Nat) (k : Packet) (s : State) : Prop where
  here : s.packets.find? p = some k
  place : k.place = .arrived
  old : p < s.serial
  settled : s.forTransit k.body = false

/-- The request of a packet is performed and answered: the packet is gone, its answer travels to the request's issuer
with the request's stamp, and of the module nothing but packets and the listed parts has changed. -/
structure Answers (p : Nat) (k : Packet) (r : Req) (a : Reply) (ps : List Part) (s t : State) : Prop where
  gone : t.packets.find? p = none
  reply : t.packets.find? s.serial =
    some { newPacket k.dst r.who.origin.node 1 (a.flits r.acc) k.stamp r.lc (.reply r a) with windowed := k.windowed }
  others : ∀ m, m ≠ p → m ≠ s.serial → t.packets.find? m = s.packets.find? m
  rest : SameBut ([.packets, .routers, .serial] ++ ps) s t

/-- A slot that holds the activation `act`, is READY and awaits nothing, on a tile without PARKALL and without a debug
step. -/
structure Quiet (u : TileName) (j : BitVec 2) (act : Nat) (s : State) : Prop where
  act : (s.slot u j).act = act
  ready : (s.slot u j).state = .ready
  noWait : (s.slot u j).ctx.wait = .none
  noParkAll : bit (s.tile u).trapctl 0 = false
  noStep : (s.tile u).dbgActive = false

/-- A trap of an earlier instruction of a quiet slot: the slot parks with its trap registers set and every register as
it was, and a record that is not precise leaves for the island (R47, R322 to R324). -/
structure TrapsLate (u : TileName) (j : BitVec 2) (cause : Cause) (epc eval : Word) (s t : State) : Prop where
  parked : (t.slot u j).state = .parked
  causeIs : (t.slot u j).cause = cause.code
  epcIs : (t.slot u j).epc = epc
  evalIs : (t.slot u j).eval = eval
  regs : (t.slot u j).ctx.regs = (s.slot u j).ctx.regs
  pc : (t.slot u j).ctx.pc = (s.slot u j).ctx.pc
  slots : ∀ i, i ≠ j → t.slot u i = s.slot u i
  tiles : ∀ v, v ≠ u → t.tile v = s.tile v
  record : t.packets.find? s.serial =
    some (newPacket (tileNode u) (s.islandNode u.ret (tileNode u)) 5 2 (s.stampOf (tileNode u / 4096) false) false
      (.trapRec (slotRecord u j cause.code epc eval false)))
  rest : SameBut [.tiles, .packets, .routers, .serial] s t

/-! ## The Dean's tables (R303, R309, R313, R325, R334, R337) -/

/-- Whether a watch was registered by the instruction that a context waits in (R155). -/
def Ctx.watchedBy (c : Ctx) (w : Watch) : Bool :=
  match c.wait, w.kind with
  | .remote rid _, .wake who => who.rid = rid
  | _, _ => false

/-- The leaf of the Dean's tables to which a walk from HROOT of core 0 comes gives level H a right at every address of a
range: `pa` is the physical address of the first. The station keeps no leaf of level H, and the walk need not wait for its
turn there (R312). -/
structure DeanMaps (b : BulkId) (a : Word) (n pa : Nat) (need : Right) (s : State) : Prop where
  leaf : ∃ l, s.walkAll true 0 (field a 0 56) 6
      (s.walkStart (s.coreStation b true) true (s.core b 0).hroot 0 (field a 0 56)) = .ok l
    ∧ l.va ≤ field a 0 56 ∧ field a 0 56 + n ≤ l.va + 2 ^ l.log ∧ bit l.pte need.bit = true ∧ field l.pte 6 2 ≠ 3 ∧ field l.pte 8 3 = 0
    ∧ pa = field l.pte 12 40 * 4096 + (field a 0 56 - l.va)
  fresh : ∀ l ∈ (s.station (s.coreStation b true)).cache, l.h = false
  turn : s.walkWaits (s.coreStation b true) = false
  tagged : field a 56 8 = 0x80
  inside : field a 0 56 + n ≤ 2 ^ 56

/-! ## The invariant of memory -/

/-- Memory is in its canonical form. -/
abbrev MemCanonical (s : State) : Prop := s.mem.wf = true

/-! ## Mailboxes (R351, R377, R378) -/

/-- A command of a code stands in the mailbox that Yelk serves next. -/
structure Rings (m : BitVec 2) (code : Nat) (s : State) : Prop where
  booted : s.office.open8 = true
  up : s.office.hostFailed.getLsbD (m.toNat / 2) = false
  bell : s.mail m 0xFF8 8 = 1
  code : s.mail m 0x000 2 = code
  next : s.office.bells.head? = some m
  idle : s.job m = .idle
  memory : MemCanonical s

/-- A mailbox's command has completed: status, ID and result data are written, DOORBELL reads 0, the mailbox waits for
nothing; the office die is otherwise as given, and of memory and module nothing but a range of keys and the listed parts
has changed. -/
structure Answered (m : BitVec 2) (status : Nat) (data : List Byte) (o : Office) (lo n : Nat) (ps : List Part) (s t : State) :
    Prop where
  status : t.mailBytes m 0x040 4 = toBytes 4 status
  id : t.mailBytes m 0x044 4 = s.mailBytes m 0x004 4
  data : t.mailBytes m 0x048 56 = padTo 56 data
  bell : t.mail m 0xFF8 8 = 0
  job : t.job m = .idle
  jobs : ∀ j, j ≠ m → t.job j = s.job j
  office : t.office = { o with bells := s.office.bells.filter fun j => j ≠ m }
  bytes : ∀ k, (k < mailKey m 0x040 ∨ mailKey m 0x080 ≤ k) → (k < mailKey m 0xFF8 ∨ mailKey m 0x1000 ≤ k) →
    (k < lo ∨ lo + n ≤ k) → t.mem.read k = s.mem.read k
  rest : SameBut ([.mem, .jobs, .office] ++ ps) s t

/-- A mailbox's command goes on: nothing is written to the mailbox, the job is as given. -/
structure GoesOn (m : BitVec 2) (j : Job) (ps : List Part) (s t : State) : Prop where
  job : t.job m = j
  jobs : ∀ i, i ≠ m → t.job i = s.job i
  office : t.office = { s.office with bells := s.office.bells.filter fun i => i ≠ m }
  rest : SameBut ([.jobs, .office] ++ ps) s t

/-! ## Ports (R359 to R363) -/

/-- One port is as given; every other port and the rest of the module are as before. -/
def OnePort (b : BulkId) (p : Nat) (x : Port) (s t : State) : Prop :=
  t.port b p = x ∧ (∀ c q, 8 * c + q ≠ 8 * b + p → t.port c q = s.port c q) ∧ SameBut [.ports] s t

/-- A port that has sent a frame under its ACTIVE key `g`, with its invocation counter (R361). -/
def Port.sent (x : Port) (g : BitVec 32) (type : BitVec 4) (chan : Byte) (seq : BitVec 16) (len : Nat) (payload : List Byte) :
    Port :=
  { x with wire := x.wire ++ [{ type := type, ksel := x.active, chan := chan, seq := seq, inv := x.counter, len := len,
                                payload := payload, gen := g, tag := true }],
           counter := x.counter + 1, quiet := 0 }

end Sys2Proof.Machine
end

