-- ==== Sys2Proof/Certificates/Slice0/Obligations.lean ====
section
/-! DEFINITION. The statements for the provers. -/

open Sys2Proof Sys2Proof.Machine

/-! ## Encoding (R101 to R116) -/

/-- Every well-formed instruction that has a word decodes from its own bytes, with every operand at every value that the
encoding admits, whatever bytes follow. -/
def Obligations.DecodeEncode : Prop :=
  ∀ (i : Instr) (rest : List Byte), i.wf = true → i.hasWord = true →
    decode (encodeBytes i ++ rest) = .ok (i, (encodeBytes i).length)

/-- What the decoder accepts is well formed: every reserved field value is refused. -/
def Obligations.DecodedIsWellFormed : Prop :=
  (∀ (w : BitVec 32) (i : Instr), decodeWord w = .ok i → i.wf = true)
    ∧ ∀ (h : BitVec 16) (i : Instr), decodeHalf h = .ok i → i.wf = true

/-- Words written out from the encoding tables decode to the instructions they stand for: R131, R134, R136, R145, R146,
R148, R152, R157, R105, R116. -/
def Obligations.DecodedWords : Prop :=
  decodeWord (BitVec.ofNat 32 (1 * 2 ^ 22 + 3 * 2 ^ 17 + 2 * 2 ^ 12 + 1 * 2 ^ 7 + 0x03)) = .ok (.sub 1 2 3)
    ∧ decodeWord (BitVec.ofNat 32 (0x7FFF * 2 ^ 17 + 2 * 2 ^ 12 + 1 * 2 ^ 7 + 0x07)) = .ok (.addi 1 2 (-1))
    ∧ decodeWord (BitVec.ofNat 32 (8 * 2 ^ 20 + 3 * 2 ^ 17 + 2 * 2 ^ 12 + 1 * 2 ^ 7 + 0x1B)) = .ok (.ldd 1 2 8)
    ∧ decodeWord (BitVec.ofNat 32 (0xFF8 * 2 ^ 20 + 3 * 2 ^ 17 + 2 * 2 ^ 12 + 1 * 2 ^ 7 + 0x1F)) = .ok (.std 1 2 (-8))
    ∧ decodeWord (BitVec.ofNat 32 (4 * 2 ^ 20 + 1 * 2 ^ 17 + 2 * 2 ^ 12 + 3 * 2 ^ 7 + 0x23)) = .ok (.bne 2 3 4)
    ∧ decodeWord (BitVec.ofNat 32 (100 * 2 ^ 7 + 0x27)) = .ok (.b 100)
    ∧ decodeWord (BitVec.ofNat 32 (2 ^ 31 + 4 * 2 ^ 17 + 2 * 2 ^ 12 + 1 * 2 ^ 7 + 0x2F)) = .ok (.jal 1 2 4)
    ∧ decodeWord (BitVec.ofNat 32 (16 * 2 ^ 20 + 2 * 2 ^ 12 + 0x33)) = .ok (.loop 2 16)
    ∧ decodeWord (BitVec.ofNat 32 (2 ^ 22 + 5 * 2 ^ 12 + 1 * 2 ^ 7 + 0x5F)) = .ok (.xget 1 5)
    ∧ decodeWord 0x0000007F#32 = .ok .nop
    ∧ decodeHalf 0xC001#16 = .ok .compactHint
    ∧ decodeHalf 0x0000#16 = .error .zeroHalfword

/-! ## The step (R22, R101 to R103) -/

/-- A step with an empty agenda runs the decoded instruction: when the first slot in the scheduler's order of the
tile in focus is READY, no debug step or breakpoint is enabled, no result is awaited, and the bytes at its
program counter in tile scratch, free of uncorrectable errors, are those of a well-formed instruction, the step
is that instruction at that slot. Where it does not issue, the step looks at the other slots; else the
scheduler's pointer and the region's progress follow. That the tile in focus issues is the model's choice of
what happens next (log entry 1). -/
def Obligations.StepRunsDecoded : Prop :=
  ∀ (s : State) (i : Instr) (k : BitVec 2), s.agenda = [] → s.office.recovery = false → s.tileRuns s.focus = true →
    (s.tile s.focus).ptr + 1 = k → (s.slot s.focus k).state = .ready → (s.slot s.focus k).ctx.pend = [] →
    (s.tile s.focus).dbgActive = false → (s.tile s.focus).dbgCtl = 0 →
    i.wf = true → i.hasWord = true →
    (s.slot s.focus k).ctx.pc.toNat + (encodeBytes i).length ≤ 0x28000 →
    s.mem.readN (scratchKey s.focus (s.slot s.focus k).ctx.pc.toNat) (encodeBytes i).length = encodeBytes i →
    s.eccBad (scratchKey s.focus (s.slot s.focus k).ctx.pc.toNat) (encodeBytes i).length = false →
    step s = andThen (exec i { s.begin (.slot s.focus k) with iw := BitVec.ofNat 64 (ofBytes (encodeBytes i)) }) fun t =>
      if (t.slot s.focus k).ctx.wait = .retry
      then t.issueFrom s.focus [(s.tile s.focus).ptr + 2, (s.tile s.focus).ptr + 3, (s.tile s.focus).ptr]
      else .next (t.issued s.focus k)

/-- With an agenda, a step takes its first turn: an event of the module is the event's meaning, an issue turn is the
issue of a tile, and a core's turn is the issue of that core. In RECOVERY the office die stores what comes over the
flash-update path, answers a master that has rung with a status word, and powers on anew (R346); time and the host's
writes go on, and any other turn stops the step. The agenda is the model's own order of what happens, the place and
value of the status word are its choice (log entries 1, 131). -/
def Obligations.StepTakesTurn : Prop :=
  (∀ (s : State) (rest : List Turn), s.office.recovery = false →
    (∀ e, s.agenda = .event e :: rest → step s = exec e { s with agenda := rest })
      ∧ (∀ u, s.agenda = .issue u :: rest → step s = ({ s with agenda := rest } : State).issueTile u)
      ∧ (∀ b c, s.agenda = .core b c :: rest → step s = ({ s with agenda := rest } : State).issueCore b c))
    ∧ (∀ (s : State), s.office.recovery = true →
    (s.agenda = [] → step s = .fault .inRecovery)
      ∧ (∀ turn rest, s.agenda = turn :: rest → turn ≠ .event .powerOn → (∀ y g v, turn ≠ .flashUpdate y g v) →
          (∀ a bs, turn ≠ .hostWrite a bs) → (∀ m, turn ≠ .serve m) → (∀ n, turn ≠ .tick n) → step s = .fault .inRecovery)
      ∧ (∀ rest, s.agenda = .event .powerOn :: rest → step s = exec .powerOn { s with agenda := rest })
      ∧ (∀ image sig version rest, s.agenda = .flashUpdate image sig version :: rest → step s = .next
          { s with agenda := rest, office := { s.office with yelk := image, yelkSig := sig, svn := version } })
      ∧ ∀ m rest, s.agenda = .serve m :: rest → MemCanonical s → s.mail m 0xFF8 8 = 1 → ∃ t, step s = .next t
          ∧ t.mail m 0xFF8 8 = 0 ∧ t.mailBytes m 0x040 8 = bytesOf (Config.freeWord s.free)
          ∧ (∀ k, (k < mailKey m 0x040 ∨ mailKey m 0x048 ≤ k) → (k < mailKey m 0xFF8 ∨ mailKey m 0x1000 ≤ k) →
              t.mem.read k = s.mem.read k)
          ∧ SameBut [.mem, .office, .free, .agenda] s t)

/-! ## Memory -/

/-- The reset state's memory is in canonical form. What an unlisted byte reads as is the model's choice (log entry
3). -/
def Obligations.ResetMemoryCanonical : Prop := MemCanonical State.reset

/-- Every step keeps memory in canonical form, from every state. -/
def Obligations.StepKeepsMemoryCanonical : Prop :=
  ∀ (s t : State), MemCanonical s → step s = .next t → MemCanonical t

/-! ## The ALU group and the immediate forms (R131 to R134, R116) -/

/-- Each instruction of the ALU group, the immediate forms and the compact arithmetic forms completes for every agent
and every operand, writes the value of its rule, and changes nothing else. -/
def Obligations.AluResult : Prop :=
  ∀ (i : Instr) (s : State) (d : Reg) (v : Word), aluRule s.rd i = some (d, v) → Completes i s (Writes d v s)

/-- The division group computes as R132 gives: q for `DIV` and `DIVN`, r for `REM` and `REMN`. -/
def Obligations.DivisionGroup : Prop :=
  ∀ (s : State) (d a b : Reg),
    let A := s.rd a
    let B := s.rd b
    let signedCorner := A.toInt = -(2 ^ 63) ∧ B.toInt = -1
    Completes (.div d a b) s (fun t => d ≠ 0 →
        (B = 0 → t.rd d = BitVec.allOnes 64) ∧ (signedCorner → t.rd d = A)
          ∧ (B ≠ 0 → ¬signedCorner → (t.rd d).toInt = A.toInt.tdiv B.toInt))
      ∧ Completes (.rem d a b) s (fun t => d ≠ 0 →
        (B = 0 → t.rd d = A) ∧ (signedCorner → t.rd d = 0)
          ∧ (B ≠ 0 → ¬signedCorner → (t.rd d).toInt = A.toInt - A.toInt.tdiv B.toInt * B.toInt))
      ∧ Completes (.divn d a b) s (fun t => d ≠ 0 →
        (B = 0 → t.rd d = BitVec.allOnes 64) ∧ (B ≠ 0 → (t.rd d).toNat = A.toNat / B.toNat))
      ∧ Completes (.remn d a b) s (fun t => d ≠ 0 →
        (B = 0 → t.rd d = A) ∧ (B ≠ 0 → (t.rd d).toNat = A.toNat - A.toNat / B.toNat * B.toNat))

/-- The bit-field instructions take pos from B[5:0] and len from min(B[12:6], 64), ignore B[63:13], and compute as R133
gives, bit by bit. -/
def Obligations.BitFields : Prop :=
  ∀ (s : State) (d a b : Reg), d ≠ 0 →
    let A := s.rd a
    let pos := (s.rd b).toNat % 2 ^ 6
    let len := min ((s.rd b).toNat / 2 ^ 6 % 2 ^ 7) 64
    let fieldBit (j : Nat) : Bool := A.getLsbD (pos + j)
    Completes (.bext d a b) s (fun t => ∀ j < 64, (t.rd d).getLsbD j = (decide (j < len) && fieldBit j))
      ∧ Completes (.bexts d a b) s (fun t => ∀ j < 64,
          (t.rd d).getLsbD j = (decide (len ≠ 0) && fieldBit (min j (len - 1))))
      ∧ Completes (.bins d a b) s (fun t => ∀ j < 64,
          (t.rd d).getLsbD j = if pos ≤ j ∧ j < pos + len then A.getLsbD (j - pos) else (s.rd d).getLsbD j)

/-- `NOP`, every word of major 0x1F and the compact hint complete and change nothing but the program counter and loop
levels of the agent (R105). `XSET` writes one extension register and `XGET` reads one; every other register is as
before (R152). -/
def Obligations.ExtensionRegisters : Prop :=
  ((∀ s : State, Completes .nop s (Passes s) ∧ Completes .compactHint s (Passes s))
    ∧ (∀ w : BitVec 32, w.toNat % 2 ^ 7 = 0x7F → decodeWord w = .ok .nop)
    ∧ ∀ h : BitVec 16, h.toNat % 4 = 1 → h.toNat / 2 ^ 13 = 6 → decodeHalf h = .ok .compactHint)
    ∧ (∀ (s : State) (k : EReg) (a d : Reg),
    Completes (.xset k a) s (fun t =>
        t.erd k = s.rd a ∧ (∀ j, j ≠ k → t.erd j = s.erd j) ∧ t.ctx.regs = s.ctx.regs
          ∧ t.ctx = { s.ctx.advance s.len with eregs := t.ctx.eregs } ∧ t = s.setCtx t.ctx ∧ SameMem s t)
      ∧ Completes (.xget d k) s (Writes d (s.erd k) s))

/-! ## Branches, jumps and loops (R145 to R151) -/

/-- A branch or jump is taken to its target when its condition holds, with the levels popped that it leaves, and falls
through otherwise. A taken branch or jump pops every active level whose range holds its address but not its target,
and keeps the others: a level that stays alone is the first. -/
def Obligations.Branches : Prop :=
  (∀ (i : Instr) (s : State) (c : Bool) (target : Word), branchRule s.rd s.pc i = some (c, target) →
    Completes i s fun t => if c then Jumps target s t else Passes s t)
    ∧ (∀ (i : Instr) (s : State) (target : Word), branchRule s.rd s.pc i = some (true, target) →
    let inside (w h x : Word) : Prop := (loopStart w h).toNat ≤ x.toNat ∧ x.toNat ≤ (loopEnd w h).toNat
    let c := s.ctx
    let out0 := loopValid c.loop0 = true ∧ inside c.loop0 c.loopH0 s.pc ∧ ¬inside c.loop0 c.loopH0 target
    let out1 := loopValid c.loop1 = true ∧ inside c.loop1 c.loopH1 s.pc ∧ ¬inside c.loop1 c.loopH1 target
    Completes i s fun t =>
      (¬out0 → ¬out1 → t.ctx.loop0 = c.loop0 ∧ t.ctx.loop1 = c.loop1)
        ∧ (¬out0 → out1 → t.ctx.loop0 = c.loop0 ∧ t.ctx.loop1 = 0)
        ∧ (out0 → ¬out1 → t.ctx.loop0 = c.loop1 ∧ t.ctx.loop1 = 0)
        ∧ (out0 → out1 → t.ctx.loop0 = 0 ∧ t.ctx.loop1 = 0))

/-- `CALL` and `JAL` write the address of the instruction plus 4 to the link register, jump to a target that is computed
before that, and pop no level (R146, R150). -/
def Obligations.Calls : Prop :=
  ∀ (s : State),
    let links (d : Reg) (target : Word) (t : State) : Prop :=
      t.pc = target &&& ~~~1#64 ∧ (d ≠ 0 → t.rd d = s.pc + 4) ∧ t.rd 0 = 0 ∧ (∀ r, r ≠ d → t.rd r = s.rd r)
        ∧ t.ctx = { s.ctx with pc := t.ctx.pc, regs := t.ctx.regs, noEnd := false } ∧ t = s.setCtx t.ctx ∧ SameMem s t
    (∀ off, Completes (.call off) s (links 1 (s.pc + BitVec.ofInt 64 (2 * off.toInt))))
      ∧ ∀ d a off, Completes (.jal d a off) s (links d (s.rd a + BitVec.ofInt 64 off.toInt))

/-- `LOOP` on a tile with fewer than two levels: a trip count other than 0 makes the innermost level, with start at the
next instruction, end at L + 2·len12 and that count, and goes on at start; 0 makes none and goes on behind the end
instruction; with two levels it traps with its address (R148). -/
def Obligations.LoopMakesLevel : Prop :=
  ∀ (s : State) (u : TileName) (k : BitVec 2) (a : Reg) (len : BitVec 12), s.cur = .slot u k →
    s.pc.toNat % 2 = 0 → s.pc.toNat + 4 < 0x28000 → len ≠ 0 →
    let count := (s.rd a).toNat % 2 ^ 32
    let isLevel (w : Word) : Prop :=
      loopValid w = true ∧ loopStart w 0 = s.pc + 4 ∧ loopEnd w 0 = s.pc + BitVec.ofNat 64 (2 * len.toNat) ∧ loopCount w = count
    (loopValid s.ctx.loop1 = false → count ≠ 0 → Completes (.loop a len) s fun t =>
        t.pc = s.pc + 4 ∧ t.ctx.regs = s.ctx.regs ∧ t.ctx.eregs = s.ctx.eregs ∧ t = s.setCtx t.ctx ∧ SameMem s t
          ∧ (loopValid s.ctx.loop0 = false → isLevel t.ctx.loop0 ∧ t.ctx.loop1 = s.ctx.loop1)
          ∧ (loopValid s.ctx.loop0 = true → isLevel t.ctx.loop1 ∧ t.ctx.loop0 = s.ctx.loop0))
      ∧ (loopValid s.ctx.loop0 = false → loopValid s.ctx.loop1 = false → s.ctx.noEnd = false → count = 0 →
          s.pc.toNat + 2 * len.toNat + 2 ≤ 0x28000 →
          s.eccBad (scratchKey u (s.pc.toNat + 2 * len.toNat)) 2 = false → Completes (.loop a len) s fun t =>
            let h := (s.mem.read (scratchKey u (s.pc.toNat + 2 * len.toNat))).toNat
            t.pc = s.pc + BitVec.ofNat 64 (2 * len.toNat + if h % 4 = 3 then 4 else 2)
              ∧ t.ctx = { s.ctx with pc := t.pc } ∧ t = s.setCtx t.ctx ∧ SameMem s t)
      ∧ (loopValid s.ctx.loop1 = true → TrapReady u k s → Completes (.loop a len) s (Traps u k .loopDepth s.pc s))

/-- The end action of R149, for an instruction that is no taken branch: the innermost level that ends at it goes back to
its start with its count lowered, or is popped at the last pass, and only then is the outer level examined. -/
def Obligations.EndAction : Prop :=
  ∀ (s : State), s.ctx.noEnd = false →
    let c := s.ctx
    let ends (w h : Word) : Prop := loopValid w = true ∧ s.pc = loopEnd w h
    let next := s.pc + BitVec.ofNat 64 s.len
    let lowered (w w' : Word) : Prop :=
      w'.toNat % 2 ^ 32 = w.toNat % 2 ^ 32 ∧ loopCount w' = (loopCount w + (2 ^ 32 - 1)) % 2 ^ 32
    Completes .nop s fun t =>
      (ends c.loop1 c.loopH1 → loopCount c.loop1 ≠ 1 →
          t.pc = loopStart c.loop1 c.loopH1 ∧ lowered c.loop1 t.ctx.loop1 ∧ t.ctx.loop0 = c.loop0)
        ∧ (loopValid c.loop1 = true → ¬ends c.loop1 c.loopH1 → t.pc = next ∧ t.ctx.loop1 = c.loop1 ∧ t.ctx.loop0 = c.loop0)
        ∧ (ends c.loop1 c.loopH1 → loopCount c.loop1 = 1 → t.ctx.loop1 = 0)
        ∧ (loopValid c.loop1 = false → t.ctx.loop1 = c.loop1)
        ∧ ((loopValid c.loop1 = false ∨ (ends c.loop1 c.loopH1 ∧ loopCount c.loop1 = 1)) →
            (¬ends c.loop0 c.loopH0 → t.pc = next ∧ t.ctx.loop0 = c.loop0)
              ∧ (ends c.loop0 c.loopH0 → loopCount c.loop0 ≠ 1 →
                  t.pc = loopStart c.loop0 c.loopH0 ∧ lowered c.loop0 t.ctx.loop0)
              ∧ (ends c.loop0 c.loopH0 → loopCount c.loop0 = 1 → t.pc = next ∧ t.ctx.loop0 = 0))

/-! ## Loads and stores (R136, R137, R139) -/

/-- A scalar load from own tile scratch, with fewer than four loads outstanding (R129), writes the bytes at its address,
zero- or sign-extended, and changes nothing else; one from another tile's scratch completes as its request leaves, with
its destination pending (R126, R141). -/
def Obligations.LoadsOwnScratch : Prop :=
  ∀ (i : Instr) (s : State) (u : TileName) (k : BitVec 2) (n : Nat) (sg : Bool) (d : Reg) (ea : Word),
    s.cur = .slot u k → loadRule s.rd i = some (n, sg, d, ea) → ea.toNat % n = 0 → s.loadsFull = false →
    (ea.toNat + n ≤ 0x28000 → OwnFree u ea.toNat n s →
        Completes i s (Writes d (loadedValue sg (s.mem.readN (scratchKey u ea.toNat) n)) s))
      ∧ ∀ v off, Elsewhere u v ea off n s → MayLeave u v ea off n s →
          Completes i s (Sends u k (.load n sg) ea v (some d) s)

/-- A scalar store to own tile scratch, outside locked code, writes the low bytes of its register, least significant
first, and changes no other byte, no register, and no other tile; one to another tile's scratch completes as its request,
with those bytes, leaves (R141). -/
def Obligations.StoresOwnScratch : Prop :=
  ∀ (i : Instr) (s : State) (u : TileName) (k : BitVec 2) (n : Nat) (v ea : Word),
    s.cur = .slot u k → storeRule s.rd i = some (n, v, ea) → ea.toNat % n = 0 →
    let byte (j : Nat) : Byte := BitVec.ofNat 8 (v.toNat / 2 ^ (8 * j))
    (ea.toNat + n ≤ 0x28000 → WriteFree u ea.toNat n s → s.codeLocked u ea.toNat n = false → MemCanonical s →
        Completes i s fun t =>
          (∀ j < n, t.mem.read (scratchKey u ea.toNat + j) = byte j)
            ∧ SameBytes (scratchKey u ea.toNat) n s t
            ∧ OneTile u ((s.tile u).passed k s.len) s t ∧ SameBut [.mem, .ecc, .tiles] s t)
      ∧ ∀ w off, Elsewhere u w ea off n s → MayWrite u w ea off n s →
          Completes i s (Sends u k (.store n ((List.range n).map fun j => (j, byte j))) ea w none s)

/-- The checks of R137 on a scalar load or store of a READY slot, in their order: a misaligned address, a tag 0x0
address beyond tile scratch, a reserved tag, then the tile state space, then a store to a locked code section of own
scratch. -/
def Obligations.AccessChecks : Prop :=
  ∀ (i : Instr) (s : State) (u : TileName) (k : BitVec 2) (n : Nat) (ea : Word), TrapReady u k s →
    ((∃ sg d, loadRule s.rd i = some (n, sg, d, ea)) ∨ ∃ v, storeRule s.rd i = some (n, v, ea)) →
    (ea.toNat % n ≠ 0 → Completes i s (Traps u k .misalign ea s))
      ∧ (ea.toNat % n = 0 → ea.toNat < 2 ^ 60 → 0x28000 < ea.toNat + n → Completes i s (Traps u k .noname ea s))
      ∧ (ea.toNat % n = 0 → 4 * 2 ^ 60 ≤ ea.toNat → ea.toNat < 8 * 2 ^ 60 → Completes i s (Traps u k .noname ea s))
      ∧ (∀ (v : TileName) (off : Nat), ea.toNat % n = 0 → ea.toNat = 2 ^ 60 + v * 2 ^ 24 + off → v < 2 ^ 19 →
          s.tileExists v = true → 0x800000 ≤ off → off + n ≤ 0x1000000 → Completes i s (Traps u k .priv (zext s.iw) s))
      ∧ (∀ v off, storeRule s.rd i = some (n, v, ea) → ea.toNat % n = 0 → OwnAt u ea off s → off + n ≤ 0x28000 →
          s.codeLocked u off n = true → Completes i s (Traps u k .priv (zext s.iw) s))

/-! ## Counters (R92 to R97, R157 to R161) -/

/-- `CADD`, `CADDF` and a first `TRIG` at a counter in own scratch add to its value, saturate with SAT, and change no
other byte; `CADDF` writes the old value, `TRIG` marks its share. At a counter in another tile's scratch each completes as
its request leaves, `CADDF` with its destination pending (R89, R126, R157). -/
def Obligations.CounterAdds : Prop :=
  (∀ (s : State) (u : TileName) (k : BitVec 2) (off : Nat) (A : Word), CounterHere u k A off s → MemCanonical s →
    s.metaBefore s.serial u off 16 = false → unwatched u (scratchKey u off) s = true → unwaited u (scratchKey u off) s = true →
    let key := scratchKey u off
    let rest (t : State) : Prop := SameBut [.mem, .tiles] s t
    (∀ a b, s.rd a = A → Completes (.cadd a b) s fun t =>
        Counted key (s.rd b).toNat s t ∧ OneTile u ((s.tile u).passed k s.len) s t ∧ rest t)
      ∧ (∀ d a b, s.rd a = A → Completes (.caddf d a b) s fun t =>
        Counted key (s.rd b).toNat s t ∧ OneTile u ((s.tile u).passedWith k s.len d (s.mem.word key)) s t ∧ rest t)
      ∧ ((s.slot u k).counter = A → (s.slot u k).shared = false → Completes .trig s fun t =>
        Counted key (s.slot u k).share.toNat s t ∧ rest t
          ∧ OneTile u (((s.tile u).onSlot k fun x => { x with shared := true }).passed k s.len) s t))
    ∧ (∀ (s : State) (u v : TileName) (k : BitVec 2) (off : Nat) (A : Word), CounterThere u k v A off s →
    (∀ a b, s.rd a = A → Completes (.cadd a b) s (Sends u k (.cadd (s.rd b) 0) A v none s))
      ∧ (∀ d a b, s.rd a = A → Completes (.caddf d a b) s (Sends u k (.caddf (s.rd b)) A v (some d) s))
      ∧ ((s.slot u k).counter = A → (s.slot u k).shared = false → Completes .trig s fun t =>
        (t.slot u k).shared = true ∧ (t.tile u).offTile = (s.tile u).offTile ++ [s.serial]
          ∧ (t.packets.find? (s.serial + 1)).map (·.body) = some (.req
              { acc := .cadd (BitVec.ofNat 64 (s.slot u k).share.toNat) 0, addr := A, who := s.ticket, also := [],
                pid := (s.tile u).pid, hLevel := false, dest := none, counted := false, lc := false })
          ∧ (∀ w, w ≠ u → t.tile w = s.tile w) ∧ SameBut [.tiles, .packets, .routers, .serial] s t))

/-- `CREAD` writes the value of a counter; `CWAIT` and `CWAITT` complete at once where it has reached their target, and
wait where it has not, a `CWAITT` until its timeout after it issued; a `CWAITT` with timeout 0 compares once, and one
whose timeout is over before it could compare gives flag 0. That the cycles of a timeout are counted by TIMER, so that
the due time is the TIMER of the issue plus the timeout, is the model's reading (log entry 46). -/
def Obligations.CounterReads : Prop :=
  ∀ (s : State) (u : TileName) (k : BitVec 2) (off : Nat) (A : Word), CounterHere u k A off s →
    let key := scratchKey u off
    let v := (s.mem.word key).toNat
    let timeout := (s.erd 0).toNat % 2 ^ 32
    let waits (w : Wait) (t : State) : Prop :=
      OneTile u ((s.tile u).waits k s.len w s.issueTime) s t ∧ SameBut [.tiles] s t
    let late := timeout ≠ 0 ∧ timeout < ((s.bulk u.ret).timer - s.issueTime).toNat
    (∀ d a, s.rd a = A → Completes (.cread d a) s (Writes d (s.mem.word key) s))
      ∧ (∀ a b, s.rd a = A →
          ((s.rd b).toNat ≤ v → Completes (.cwait a b) s (Passes s))
            ∧ (v < (s.rd b).toNat → Completes (.cwait a b) s (waits (.counter key (s.rd b) none))))
      ∧ (∀ d a b, s.rd a = A →
          (late → Completes (.cwaitt d a b) s (Writes d 0 s))
            ∧ (¬late → (s.rd b).toNat ≤ v → Completes (.cwaitt d a b) s (Writes d 1 s))
            ∧ (v < (s.rd b).toNat → timeout = 0 → Completes (.cwaitt d a b) s (Writes d 0 s))
            ∧ (¬late → v < (s.rd b).toNat → timeout ≠ 0 → Completes (.cwaitt d a b) s
                (waits (.counter key (s.rd b) (some (d, s.issueTime + BitVec.ofNat 64 timeout))))))

/-- A counter add completes exactly the waits of its tile's slots whose target the new value reaches: a slot that is
WAITING becomes READY, a slot that is PARKED stays so, and `CWAITT` has its flag: 1 while TIMER has not passed its due
value and 0 later, as the model counts its cycles (log entry 46). `CWATCH` on a counter of own scratch
whose value is short of the target leaves a watch; one that has reached it sends the wake message of 16 bytes, the
counter's address and value, to the tile, queue and tag that `e0` names. -/
def Obligations.WatchesAndWakes : Prop :=
  (∀ (s : State) (u : TileName) (k j : BitVec 2) (off : Nat) (a b : Reg), CounterHere u k (s.rd a) off s → MemCanonical s →
    s.metaBefore s.serial u off 16 = false → unwatched u (scratchKey u off) s = true → s.ctx.wait = .none → j ≠ k →
    Completes (.cadd a b) s fun t =>
      t.slot u j = (s.slot u j).reached (scratchKey u off)
          (min ((s.mem.word (scratchKey u off)).toNat + (s.rd b).toNat) (2 ^ 64 - 1)) (s.bulk u.ret).timer
        ∧ t.slot u k = ((s.tile u).passed k s.len).slot k)
    ∧ (∀ (s : State) (u : TileName) (k : BitVec 2) (off : Nat) (a b : Reg) (v : TileName) (q : QNum) (tag : BitVec 16),
    CounterHere u k (s.rd a) off s → v < 2 ^ 19 → s.tileExists v = true →
    (s.erd 0).toNat = 2 ^ 60 + v * 2 ^ 24 + q.toNat * 2 ^ 16 + tag.toNat →
    let key := scratchKey u off
    let value := s.mem.word key
    (value.toNat < (s.rd b).toNat → Completes (.cwatch a b) s fun t =>
        t.watches = s.watches ++ [{ id := s.serial, home := u, key := key, addr := s.rd a, target := s.rd b,
                                    kind := .msg v q tag,
                                    active := decide (s.watches.countP (fun w => w.home = u && w.active) < 8),
                                    windowed := none }]
          ∧ OneTile u ((s.tile u).passed k s.len) s t ∧ SameBut [.tiles, .watches, .serial] s t)
      ∧ ((s.rd b).toNat ≤ value.toNat → Completes (.cwatch a b) s fun t =>
        OnePacket (s.serial + 1)
            (newPacket (tileNode u) (tileNode v) 2 2 (s.bulk u.ret).region.toNat false
              (.msg { dest := v, q := q, tag := tag, len := 16, payload := bytesOf (s.rd a) ++ bytesOf value,
                      sender := BitVec.ofNat 64 (2 ^ 60 + u * 2 ^ 24), ext := false, lc := false, wake := true,
                      who := none })) s t
          ∧ OneTile u ((s.tile u).passed k s.len) s t ∧ SameBut [.tiles, .packets, .routers, .serial] s t))

/-! ## Reductions and fences (R162 to R165, R99) -/

/-- A reduction on own scratch writes its word and no other byte; one on another tile's scratch completes as its request
leaves (R141, R162). -/
def Obligations.ReductionResult : Prop :=
  ∀ (i : Instr) (s : State) (u : TileName) (k : BitVec 2) (off : Nat) (op : RedOp) (mod : BitVec 2) (a b : Reg),
    reductionForm i = some (op, mod, a, b) → s.cur = .slot u k →
    let n := if op = .addf ∨ mod ≠ 0 then 4 else 8
    off % n = 0 →
    let key := scratchKey u off
    (OwnAt u (s.rd a) off s → off + n ≤ 0x28000 → WriteFree u off n s → MemCanonical s → Completes i s fun t =>
        ofBytes (t.mem.readN key n)
            = reductionRule op mod (ofBytes (s.mem.readN key n)) ((s.rd b).toNat % 2 ^ (8 * n)) % 2 ^ (8 * n)
          ∧ SameBytes key n s t ∧ OneTile u ((s.tile u).passed k s.len) s t ∧ SameBut [.mem, .tiles] s t)
      ∧ ∀ v, Elsewhere u v (s.rd a) off n s → MayWrite u v (s.rd a) off n s →
          Completes i s (Sends u k (.red op mod (s.rd b)) (s.rd a) v none s)

/-- An acquire fence waits for the loads and acquires of the agent, a release or full fence for all its accesses, as the
model counts what is outstanding (log entry 99); `BARW` on no wire that its tile belongs to completes, and on others
arrives and waits, and a wire whose last member arrives is to release. A release point takes `INTEGRITY`, with the
number of failures, while one is pending and no check is outstanding, and it waits while one is: the fences of release
at every scope, `COMMIT`, `END`, `C.END`, `TRIG`, `CADD`, `CADDF`, `SEND`, `SENDS`, `FWD`, `SYSCALL`, `MIGRATE`, the
transfers of the stream engine, and a store or reduction off the tile, each once its other checks have passed. -/
def Obligations.FencesAndWires : Prop :=
  (∀ (s : State) (u : TileName) (k : BitVec 2), s.cur = .slot u k →
    let waits (x : Tile) (w : Wait) (t : State) : Prop := OneTile u (x.waits k s.len w s.issueTime) s t ∧ SameBut [.tiles] s t
    let issued (i : Instr) : Wait := .issued i s.iw s.ctx.regs s.ctx.eregs
    (∀ scope,
        (s.acquired = true → Completes (.fence 0 scope) s (Passes s))
          ∧ (s.acquired = false → Completes (.fence 0 scope) s (waits (s.tile u) (issued (.fence 0 scope)))))
      ∧ (∀ kind scope, kind ≠ 0 → (s.tile u).outst = 0 → (s.tile u).fails = 0 →
          (s.released = true → Completes (.fence kind scope) s (Passes s))
            ∧ (s.released = false →
                Completes (.fence kind scope) s (waits (s.tile u) (issued (.fence kind scope)))))
      ∧ ∀ wire, s.released = true →
          let row := bit (s.tile u).rcMask 0 && decide (wire ≠ 1)
          let col := bit (s.tile u).rcMask 1 && decide (wire ≠ 0)
          let rowKey := wireKey u.ret false (tileY u)
          let colKey := wireKey u.ret true (tileX u)
          (row = false → col = false → Completes (.barw wire) s (Passes s))
            ∧ (row = true ∨ col = true → Completes (.barw wire) s fun t =>
                OneTile u (Tile.waits { s.tile u with arrived := (s.tile u).arrived ||| BitVec.ofNat 2 (num row + 2 * num col) }
                    k s.len (.wire row col) s.issueTime) s t
                  ∧ (row = true → (∀ v ∈ s.wireMembers u.ret false (tileY u), v ≠ u → bit (s.tile v).arrived 0 = true) →
                      (t.wires.find? rowKey).isSome = true)
                  ∧ (col = true → (∀ v ∈ s.wireMembers u.ret true (tileX u), v ≠ u → bit (s.tile v).arrived 1 = true) →
                      (t.wires.find? colKey).isSome = true)
                  ∧ (∀ w, w ≠ rowKey → w ≠ colKey → t.wires.find? w = s.wires.find? w) ∧ SameBut [.tiles, .wires] s t))
    ∧ (∀ (s : State) (u : TileName) (k : BitVec 2) (i : Instr), TrapReady u k s → IsRelease u k s i →
    ((s.tile u).outst = 0 → (s.tile u).fails ≠ 0 →
        Completes i s (Traps u k .integrity (BitVec.ofNat 64 (s.tile u).fails.toNat) s))
      ∧ ((s.tile u).outst ≠ 0 → Completes i s fun t =>
          (t.ctx.wait = .retry ∨ t.ctx.wait = .issued i s.iw s.ctx.regs s.ctx.eregs) ∧ t.ctx.regs = s.ctx.regs
            ∧ (∀ v, v ≠ u → t.tile v = s.tile v) ∧ SameBut [.tiles] s t))

/-! ## Messages (R166 to R168) -/

/-- `SEND` and `SEND.lc` send the message that their operands form, on VC2 and VC4. -/
def Obligations.SendMessage : Prop :=
  ∀ (s : State) (u : TileName) (k : BitVec 2) (off : Nat) (lc : Bool) (a b d : Reg) (dest : TileName),
    s.cur = .slot u k → Released u s → (s.bulk u.ret).gate ≠ 2 →
    MessageOk u off dest (s.rd a) (s.rd b) (s.rd d) s → (s.rd d ≠ 0 → ReadFree u off (s.rd d).toNat s) →
    let n := (s.rd d).toNat
    Completes (.send lc a b d) s fun t =>
      OnePacket (s.serial + 1)
          (newPacket (tileNode u) (tileNode dest) (if lc then 4 else 2) (1 + (n + 31) / 32) (s.bulk u.ret).region.toNat
            false (.msg (slotMessage u (s.erd 0) off n dest lc s.ticket s))) s t
        ∧ OneTile u ((s.tile u).passed k s.len) s t ∧ SameBut [.tiles, .packets, .routers, .serial] s t

/-- `SENDS` keeps the message as a draft in the first free entry, last in its slot's order; with no entry free it waits.
`ABORT` drops the slot's drafts and no others. `COMMIT` sends the slot's drafts in the order written, each as its own
message, and frees them. -/
def Obligations.Drafts : Prop :=
  (∀ (s : State) (u : TileName) (k : BitVec 2), s.cur = .slot u k →
    let x := s.tile u
    (∀ lc a b d off dest, Released u s → MessageOk u off dest (s.rd a) (s.rd b) (s.rd d) s →
        (s.rd d ≠ 0 → ReadFree u off (s.rd d).toNat s) →
        (∀ i, i < 16 → x.drafts.toList[i]? = some none → (∀ j < i, x.drafts.toList[j]? ≠ some none) →
          Completes (.sends lc a b d) s fun t =>
            let y : Draft :=
              { msg := slotMessage u (s.erd 0) off (s.rd d).toNat dest lc s.ticket s, dest := s.rd a, slot := k,
                order := (x.draftsOf k).length }
            OneTile u (Tile.passed { x with drafts := x.drafts.setIfInBounds i (some y) } k s.len) s t
              ∧ SameBut [.tiles] s t)
          ∧ (x.drafts.toList.all (·.isSome) = true → Completes (.sends lc a b d) s fun t =>
            OneTile u (x.waits k s.len (.issued (.sends lc a b d) s.iw s.ctx.regs s.ctx.eregs) s.issueTime) s t ∧ SameBut [.tiles] s t))
      ∧ Completes .abort s fun t =>
          OneTile u (Tile.passed { x with drafts := x.drafts.map fun d => d.filter fun y => y.slot ≠ k } k s.len) s t
            ∧ SameBut [.tiles] s t)
    ∧ (∀ (s : State) (u : TileName) (k : BitVec 2), s.cur = .slot u k → (s.tile u).outst = 0 → (s.tile u).fails = 0 →
    let ds := (s.tile u).draftsOf k
    (ds = [] → Completes .commit s (Passes s))
      ∧ (ds ≠ [] → (s.bulk u.ret).gate ≠ 2 → Completes .commit s fun t =>
          (∀ (i : Nat) (y : Draft), ds[i]? = some y → t.packets.find? (s.serial + 2 * i + 1) = some
              (newPacket (tileNode u) (tileNode y.msg.dest) (if y.msg.lc then 4 else 2) (1 + (min y.msg.len 256 + 31) / 32)
                (s.bulk u.ret).region.toNat false
                (.msg { y.msg with len := min y.msg.len 256, payload := y.msg.payload.take (min y.msg.len 256),
                                   who := some { s.ticket with rid := s.serial + 2 * i } })))
            ∧ (∀ m, (∀ i < ds.length, m ≠ s.serial + 2 * i + 1) → t.packets.find? m = s.packets.find? m)
            ∧ t.serial = s.serial + 2 * ds.length
            ∧ OneTile u (((s.tile u).dropDrafts k).passed k s.len) s t
            ∧ SameBut [.tiles, .packets, .routers, .serial] s t))

/-! ## Forwarding lanes and the work list (R169 to R171) -/

/-- `FWD` puts its value on the lane to the neighbour, when the facing mailbox has room; a position that holds no tile
traps. `FWDW` takes the oldest value of a mailbox, and waits on an empty one, or behind a pop of the mailbox that issued
before on the tile. -/
def Obligations.ForwardingLanes : Prop :=
  ∀ (s : State) (u n : TileName) (k : BitVec 2) (dir : BitVec 2), s.cur = .slot u k → neighbour u dir = some n →
    (∀ a, s.tileExists n = true → (s.tile u).outst = 0 → (s.tile u).fails = 0 → (s.bulk u.ret).gate ≠ 2 →
        ((s.tile n).box (dir + 2)).length + s.lanes.countP (fun l => l.2.dst = n && l.2.dir + 2 = dir + 2) < 4 →
        Completes (.fwd dir a) s fun t =>
          t.lanes.find? s.serial = some { src := u, dst := n, dir := dir, value := s.rd a, who := s.ticket }
            ∧ (∀ m, m ≠ s.serial → t.lanes.find? m = s.lanes.find? m)
            ∧ OneTile u ((s.tile u).passed k s.len) s t ∧ SameBut [.tiles, .lanes, .serial] s t)
      ∧ (∀ a, s.tileExists n = false → TrapReady u k s →
          Completes (.fwd dir a) s (Traps u k .noname (BitVec.ofNat 64 (2 ^ 60 + n * 2 ^ 24)) s))
      ∧ (∀ d, s.tileExists n = true →
          (∀ v rest, (s.tile u).box dir = v :: rest → (s.tile u).scanPops dir s.popNo = false →
              (s.tile u).waitPops dir s.popNo = false → Completes (.fwdw dir d) s fun t =>
              (t.tile u).box dir = rest ∧ OneTile u (((s.tile u).popBox dir).passedWith k s.len d v) s t
                ∧ SameBut [.tiles] s t)
            ∧ ((s.tile u).box dir = [] ∨ (s.tile u).scanPops dir s.popNo = true ∨ (s.tile u).waitPops dir s.popNo = true →
              Completes (.fwdw dir d) s fun t =>
              OneTile u (((s.tile u).numbered k s.popNo).waits k s.len (.issued (.fwdw dir d) s.iw s.ctx.regs s.ctx.eregs)
                s.issueTime) s t ∧ SameBut [.tiles, .serial] s t))

/-- `LLPUT` copies 32 bytes of own scratch behind the list's tail; `LLGET` takes the entry at its head, and gives 0 on
an empty list. -/
def Obligations.WorkList : Prop :=
  ∀ (s : State) (u : TileName) (k : BitVec 2), s.cur = .slot u k →
    let x := s.tile u
    let l := x.lvl
    (∀ a off, OwnAt u (s.rd a) off s → off % 32 = 0 → off + 32 ≤ 0x28000 → ReadFree u off 32 s → l.size ≠ 0 →
        Behind u (l.base + 32 * ((l.head + l.depth) % l.size)) 32 s → x.listFull = false → MemCanonical s → Completes (.llput a) s fun t =>
          let slot := scratchKey u (l.base + 32 * ((l.head + l.depth) % l.size))
          (∀ j < 32, t.mem.read (slot + j) = s.mem.read (scratchKey u off + j)) ∧ SameBytes slot 32 s t
            ∧ OneTile u (Tile.passed { x with lvl := { l with depth := l.depth + 1 } } k s.len) s t
            ∧ SameBut [.mem, .tiles] s t)
      ∧ (∀ d, l.size ≠ 0 → l.depth ≠ 0 → Completes (.llget d) s fun t =>
          OneTile u (Tile.passedWith
              { x.onSlot k fun y => { y with taken := some l.head } with
                lvl := { l with head := (l.head + 1) % l.size, depth := l.depth - 1 } }
              k s.len d (BitVec.ofNat 64 (l.base + 32 * l.head))) s t ∧ SameBut [.tiles] s t)
      ∧ (∀ d, l.size = 0 ∨ l.depth = 0 → Completes (.llget d) s fun t =>
          OneTile u (Tile.passedWith (x.onSlot k fun y => { y with taken := none }) k s.len d 0) s t ∧ SameBut [.tiles] s t)

/-! ## The end of an activation, and groups (R29, R173, R174) -/

/-- `END` and `C.END` free the slot with its loop levels, drafts and held queue entries; a share that has not been added
is queued behind the activation's accesses, which is the model's reading (log entry 23). Its registers stay (R326). A
`TRIG` whose share has been added does nothing. `JOIN` and `LEAVE` send their request to the group directory at the island of the region's anchor and wait
for its answer; a 17th group, with those asked for counted, traps. A share that would go to a counter in a tile state
space takes `PRIV` at the end instead, which is the model's reading of R74 (log entry 25). -/
def Obligations.ActivationEnds : Prop :=
  (∀ (i : Instr) (s : State) (u : TileName) (k : BitVec 2), i = .endI ∨ i = .cEnd → s.cur = .slot u k →
    (s.tile u).outst = 0 → (s.tile u).fails = 0 → s.shareClosed u k = false →
    let x := s.slot u k
    Completes i s fun t =>
      t.slot u k = { x with state := .free, taken := none,
                            ctx := { x.ctx with loop0 := 0, loop1 := 0, wait := .none, noEnd := false, pend := [], out := [] } }
        ∧ (∀ j, j ≠ k → t.slot u j = s.slot u j)
        ∧ (t.tile u).drafts = (s.tile u).drafts.map (fun d => d.filter fun y => y.slot ≠ k)
        ∧ (t.tile u).queues = ((s.tile u).freeHeld k).queues
        ∧ (t.tile u).shareAdds = (s.tile u).shareAdds ++ (if x.shared then [] else
            [{ counter := x.counter, share := x.share, status := 0, after := s.outIds, no := s.serial, epc := s.pc }])
        ∧ t.tile u = { s.tile u with slots := (t.tile u).slots, drafts := (t.tile u).drafts, queues := (t.tile u).queues,
                                     shareAdds := (t.tile u).shareAdds, dbgCount := (t.tile u).dbgCount,
                                     dbgActive := (t.tile u).dbgActive, dbgFirst := (t.tile u).dbgFirst,
                                     dbgOwed := (t.tile u).dbgOwed }
        ∧ (∀ v, v ≠ u → t.tile v = s.tile v) ∧ SameBut [.tiles] s t)
    ∧ (∀ (i : Instr) (s : State) (u v : TileName) (k : BitVec 2) (off : Nat), i = .endI ∨ i = .cEnd → TrapReady u k s →
    (s.slot u k).shared = false → v < 2 ^ 19 → s.tileExists v = true → 0x800000 ≤ off → off + 16 ≤ 0x1000000 →
    (s.slot u k).counter.toNat = 2 ^ 60 + v * 2 ^ 24 + off →
    Completes i s (Traps u k .priv (BitVec.ofNat 64 s.iw.toNat) s))
    ∧ (∀ (s : State) (u : TileName) (k : BitVec 2), s.cur = .slot u k →
    let node := s.islandNode (s.anchor (s.bulk u.ret).region.toNat) (tileNode u)
    let asked (g : BitVec 8) (join : Bool) (t : State) : Prop :=
      OnePacket s.serial
          (newPacket (tileNode u) node 0 1 (s.bulk u.ret).region.toNat false
            (.group u g join (.slot u k) (s.slot u k).act)) s t
        ∧ OneTile u ((s.tile u).waits k s.len .group s.issueTime) s t ∧ SameBut [.tiles, .packets, .routers, .serial] s t
    ((s.slot u k).shared = true → (s.tile u).outst = 0 → (s.tile u).fails = 0 → Completes .trig s (Passes s))
      ∧ (∀ a, (s.bulk u.ret).gate ≠ 2 →
          let g : BitVec 8 := BitVec.ofNat 8 (s.rd a).toNat
          let gs := (s.tile u).groups ++ s.joining u
          (gs.contains g = true ∨ gs.length < 16 → Completes (.join a) s (asked g true))
            ∧ Completes (.leave a) s (asked g false))
      ∧ ∀ a, TrapReady u k s →
          let g : BitVec 8 := BitVec.ofNat 8 (s.rd a).toNat
          let gs := (s.tile u).groups ++ s.joining u
          gs.contains g = false → 16 ≤ gs.length → Completes (.join a) s (Traps u k .queueErr (BitVec.ofNat 64 g.toNat) s))

/-! ## Queues and bindings (R24, R26, R143, R172, R175 to R179) -/

/-- `LDQ`, `QWAIT`, `QADV` and `C.QADV` on a queue with a readable entry. The queue instructions stop with `QUEUE_ERR`
and the queue's number on a queue that is not described; `QWAIT`, `LDQ` and `QADV` wait on a described queue with
nothing to read. -/
def Obligations.QueueReads : Prop :=
  (∀ (s : State) (u : TileName) (k : BitVec 2) (qn : QNum) (q : Queue) (i : Nat), QueueReady u k qn q i s →
    let x := s.tile u
    let e := q.entry i
    let mine : Entry := { e with taken := true, held := true, holder := k }
    let place := q.base.toNat + 64 * 2 ^ q.esize.toNat * i
    (∀ d (off : BitVec 12), off.toNat % 8 = 0 → off.toNat < 2 ^ 11 → off.toNat + 8 ≤ 64 * 2 ^ q.esize.toNat →
        OwnFree u (place + off.toNat) 8 s → s.loadsFull = false → Completes (.ldq d qn off) s fun t =>
          OneTile u ((x.setQueue qn (q.setEntry i mine)).passedWith k s.len d
              (s.mem.word (scratchKey u (place + off.toNat)))) s t ∧ SameBut [.tiles] s t)
      ∧ (∀ d, Completes (.qwait d qn) s fun t =>
          OneTile u ((x.setQueue qn (q.setEntry i { mine with passed := true })).passedWith k s.len d
              (BitVec.ofNat 64 (place + e.tag.toNat * 2 ^ 32 + e.len.toNat * 2 ^ 48))) s t ∧ SameBut [.tiles] s t)
      ∧ ∀ j : Instr, j = .qadv qn ∨ j = .cQadv qn → Completes j s fun t =>
          OneTile u ((x.setQueue qn (if e.taken then q.setEntry i { e with passed := true } else q.freeEntry i)).passed
              k s.len) s t ∧ SameBut [.tiles] s t)
    ∧ (∀ (s : State) (u : TileName) (k : BitVec 2) (qn : QNum),
    (TrapReady u k s → ((s.tile u).queue qn).valid = false →
        ∀ i : Instr, ((∃ d off, i = .ldq d qn off) ∨ (∃ d, i = .qwait d qn) ∨ i = .qadv qn ∨ i = .cQadv qn
            ∨ (∃ a, i = .qfree qn a) ∨ (∃ a b, i = .qpush qn a b) ∨ (∃ d, i = .qstat d qn) ∨ (∃ a b, i = .arm qn a b)
            ∨ (∃ a, i = .disarm qn a)) →
          Completes i s (Traps u k .queueErr (BitVec.ofNat 64 qn.toNat) s))
      ∧ (s.cur = .slot u k → ((s.tile u).queue qn).valid = true → ((s.tile u).queue qn).readEntry = none →
        ∀ i : Instr, ((∃ d, i = .ldq d qn 0) ∨ (∃ d, i = .qwait d qn) ∨ i = .qadv qn ∨ i = .cQadv qn) →
          Completes i s fun t => OneTile u ((s.tile u).waits k s.len (.issued i s.iw s.ctx.regs s.ctx.eregs) s.issueTime) s t
            ∧ SameBut [.tiles] s t))

/-- `QFREE` frees the entry that its slot holds at an offset, `QPUSH` writes a message into the next entry, `QSTAT`
counts, `ARM` sets a binding and `DISARM` removes one. -/
def Obligations.QueueWrites : Prop :=
  ∀ (s : State) (u : TileName) (k : BitVec 2) (qn : QNum), s.cur = .slot u k →
    let x := s.tile u
    let q := x.queue qn
    let bytes := 64 * 2 ^ q.esize.toNat
    (∀ a i, q.valid = true → (∃ pre post, q.inUse = pre ++ i :: post ∧ ∀ j ∈ pre, q.base.toNat + bytes * j ≠ (s.rd a).toNat % 2 ^ 18) →
        q.base.toNat + bytes * i = (s.rd a).toNat % 2 ^ 18 → (q.entry i).held = true → (q.entry i).holder = k →
        Completes (.qfree qn a) s fun t =>
          OneTile u ((x.setQueue qn (q.freeEntry i)).passed k s.len) s t ∧ SameBut [.tiles] s t)
      ∧ (∀ a b off, q.valid = true → q.free ≠ 0 → s.released = true → Behind u (q.base.toNat + bytes * q.write.toNat) bytes s →
          let n := (s.rd b).toNat % 2 ^ 9
          n ≤ 256 → n ≤ bytes → (n ≠ 0 → off % 8 = 0 ∧ off + n ≤ 0x28000 ∧ OwnAt u (s.rd a) off s ∧ ReadFree u off n s) → MemCanonical s →
          Completes (.qpush qn a b) s fun t =>
            let w := q.write.toNat
            let key := scratchKey u (q.base.toNat + bytes * w)
            let e := ((t.tile u).queue qn).entry w
            (∀ j < bytes, t.mem.read (key + j) = if j < n then s.mem.read (scratchKey u off + j) else 0)
              ∧ SameBytes key bytes s t
              ∧ e.full = true ∧ e.here = true ∧ e.fired = false ∧ e.passed = false ∧ e.taken = false ∧ e.held = false
              ∧ e.tag = BitVec.ofNat 16 ((s.rd b).toNat / 2 ^ 16) ∧ e.len.toNat = n ∧ e.seq = q.nextSeq
              ∧ e.order = (s.bulk u.ret).timer.toNat ∧ e.ext = false
              ∧ ((t.tile u).queue qn).nextSeq = q.nextSeq + 1
              ∧ (∀ j, j ≠ w → ((t.tile u).queue qn).entry j = q.entry j)
              ∧ OneTile u ((x.setQueue qn ((t.tile u).queue qn)).passed k s.len) s t ∧ SameBut [.mem, .tiles] s t)
      ∧ (∀ d, q.valid = true → Completes (.qstat d qn) s (Writes d (BitVec.ofNat 64
            (q.inUse.countP (fun i => (q.entry i).full && (q.entry i).here && !(q.entry i).fired && !(q.entry i).passed)
              + q.inUse.countP (fun i => (q.entry i).held) * 2 ^ 9 + (2 ^ q.logn.toNat - q.used) * 2 ^ 18
              + (if s.blocked u qn then 2 ^ 27 else 0))) s))
      ∧ (∀ a b i, q.valid = true → (s.rd a).toNat % 2 = 0 → (s.rd a).toNat < 0x28000 → (s.rd b).toNat % 16 = 0 →
          s.loc (s.rd b) 16 ≠ .bad →
          let tag := BitVec.ofNat 16 (s.erd 0).toNat
          (x.bindingOf qn tag = some i ∨ (x.bindingOf qn tag = none ∧ x.freeBinding = some i)) →
          Completes (.arm qn a b) s fun t =>
            OneTile u ((x.setBinding i { valid := true, queue := qn, tag := tag, entry := s.rd a, counter := s.rd b,
                                         share := BitVec.ofNat 32 ((s.erd 0).toNat / 2 ^ 32) }).passed k s.len) s t
              ∧ SameBut [.tiles] s t)
      ∧ ∀ a, q.valid = true → let tag := BitVec.ofNat 16 (s.rd a).toNat
          (x.bindingOf qn tag = none → Completes (.disarm qn a) s (Passes s))
            ∧ ∀ i, x.bindingOf qn tag = some i → Completes (.disarm qn a) s fun t =>
              OneTile u ((x.setBinding i Binding.none).passed k s.len) s t ∧ SameBut [.tiles] s t

/-! ## Traps of a slot (R45, R46, R180, R322, R323) -/

/-- `TRAP` parks its slot behind itself with its operand in EVAL, `BRK` at itself; both send a trap record. Under
PARKALL a trap parks every slot of its tile that holds an activation on it, and no slot's trap registers but the
trapping one's change. That `TRAP` makes no end action is the model's reading (log entry 20). -/
def Obligations.SoftwareTraps : Prop :=
  (∀ (s : State) (u : TileName) (k : BitVec 2) (imm : BitVec 12), TrapReady u k s →
    Completes (.trap imm) s (fun t =>
        OneTile u ((s.tile u).onSlot k fun x =>
            { x with state := .parked, cause := 0x0C, epc := s.pc, eval := BitVec.ofNat 64 imm.toNat,
                     ctx := { x.ctx with pc := s.pc + 4, noEnd := false } }) s t
          ∧ OnePacket s.serial
              (newPacket (tileNode u) (s.islandNode u.ret (tileNode u)) 5 2 (s.stampOf (tileNode u / 4096) false) false
                (.trapRec { island := u.ret, tile := BitVec.ofNat 64 (2 ^ 60 + u * 2 ^ 24), epc := s.pc,
                            eval := BitVec.ofNat 64 imm.toNat, cause := 0x0C, slot := k, noSlot := false, precise := true,
                            late := false, step := false, away := false, xreason := 0, xid := 0, station := 0 })) s t
          ∧ SameBut [.tiles, .packets, .routers, .serial] s t)
      ∧ Completes (.brk imm) s (Traps u k .brk s.pc s))
    ∧ (∀ (s : State) (u : TileName) (k : BitVec 2) (imm : BitVec 12), s.cur = .slot u k → (s.slot u k).state = .ready →
    bit (s.tile u).trapctl 0 = true →
    Completes (.brk imm) s fun t =>
      (t.slot u k).state = .parked ∧ (t.slot u k).cause = 0x0D ∧ (t.slot u k).epc = s.pc ∧ (t.slot u k).eval = s.pc
        ∧ (t.slot u k).ctx = (s.slot u k).ctx
        ∧ (∀ j, j ≠ k →
          let x := s.slot u j
          (x.state = .ready ∨ x.state = .waiting → (t.slot u j).state = .parked)
            ∧ (x.state ≠ .ready → x.state ≠ .waiting → t.slot u j = x)
            ∧ (t.slot u j).cause = x.cause ∧ (t.slot u j).epc = x.epc ∧ (t.slot u j).eval = x.eval
            ∧ (t.slot u j).ctx.regs = x.ctx.regs ∧ (t.slot u j).ctx.pc = x.ctx.pc
            ∧ (x.ctx.wait ≠ .retry → (t.slot u j).ctx = x.ctx))
        ∧ (∀ v, v ≠ u → t.tile v = s.tile v) ∧ SameBut [.tiles, .packets, .routers, .serial] s t)

/-- `SYSCALL` sends its 64-byte block to the island and passes; `MIGRATE` sends the context of its slot, 12 flits on
VC6, and leaves the slot MIGRATED (R40, R181, R182). `MIGRATE` with drafts held traps, and so does a `SYSCALL`
whose block is misaligned or whose counter names nothing. When the accesses of its activation let `MIGRATE` go on
(R130) is the model's reading (log entry 22). -/
def Obligations.SyscallAndMigrate : Prop :=
  (∀ (s : State) (u : TileName) (k : BitVec 2), s.cur = .slot u k → (s.tile u).outst = 0 → (s.tile u).fails = 0 →
    (s.bulk u.ret).gate ≠ 2 →
    let sends (flits : Nat) (body : Body) (t : State) : Prop :=
      OnePacket s.serial
          (newPacket (tileNode u) (s.islandNode u.ret (tileNode u)) 6 flits (s.bulk u.ret).region.toNat false body) s t
        ∧ SameBut [.tiles, .packets, .routers, .serial] s t
    (∀ c off, OwnAt u (s.rd c) off s → off % 64 = 0 → off + 64 ≤ 0x28000 → ReadFree u off 64 s →
        (s.erd 1).toNat % 16 = 0 → s.loc (s.erd 1) 16 ≠ .bad → (s.tile u).sysOut < 8 → Completes (.syscall c) s fun t =>
          sends 3 (.syscall u (s.mem.readN (scratchKey u off) 64) (BitVec.ofNat 16 (s.erd 0).toNat) (s.erd 1)) t
            ∧ OneTile u (Tile.passed { s.tile u with sysOut := (s.tile u).sysOut + 1 } k s.len) s t)
      ∧ ((s.tile u).draftsOf k = [] → s.settled = true → Completes .migrate s fun t =>
          let c := s.ctx.advance s.len
          sends 12 (.migrate { tile := u, slot := k, act := (s.slot u k).act, regs := s.ctx.regs, eregs := s.ctx.eregs,
                               pc := c.pc, loop0 := c.loop0, loop1 := c.loop1, noEnd := c.noEnd, pend := c.pend }) t
            ∧ OneTile u ((s.tile u).onSlot k fun x =>
                { x with state := .migrated, ctx := { x.ctx.advance s.len with wait := .none, pend := [] } }) s t))
    ∧ (∀ (s : State) (u : TileName) (k : BitVec 2), TrapReady u k s →
    ((s.tile u).draftsOf k ≠ [] → Completes .migrate s (Traps u k .queueErr 0 s))
      ∧ ∀ c, let C := s.rd c
          let E := s.erd 1
          (C.toNat % 64 ≠ 0 → Completes (.syscall c) s (Traps u k .misalign C s))
            ∧ (C.toNat % 64 = 0 → C.toNat < 2 ^ 60 → 0x28000 < C.toNat + 64 → Completes (.syscall c) s (Traps u k .noname C s))
            ∧ (C.toNat % 64 = 0 → C.toNat + 64 ≤ 0x28000 → E.toNat % 16 ≠ 0 →
                Completes (.syscall c) s (Traps u k .misalign E s))
            ∧ (C.toNat % 64 = 0 → C.toNat + 64 ≤ 0x28000 → E.toNat % 16 = 0 → 4 * 2 ^ 60 ≤ E.toNat →
                E.toNat < 8 * 2 ^ 60 → Completes (.syscall c) s (Traps u k .noname E s)))

/-! ## State registers (R41 to R45, R100, R183) -/

/-- `MFS` of a tile register writes its value; `MTS` of TRAPCTL and RC_MASK writes their two bits, that of DDA_STAT clears
the sticky bits named by 1s, that of DDA_CTL enrols a HALTED tile, that of LL_CTL writes its fields where R270 allows
them; every register that is marked "no" and every index that is not listed take `ILLEGAL`, a privileged one `PRIV`. -/
def Obligations.TileRegisters : Prop :=
  ∀ (s : State) (u : TileName) (k : BitVec 2) (c : Reg), s.cur = .slot u k →
    let x := s.tile u
    let y := s.slot u k
    let o := s.bulk u.ret
    let f := x.fab
    let dom := s.domain (s.domainOf u)
    let v := s.rd c
    let reads (i : BitVec 12) (v : Nat) : Prop := Completes (.mfs c i) s (Writes c (BitVec.ofNat 64 v) s)
    let becomes (i : BitVec 12) (x' : Tile) : Prop :=
      Completes (.mts c i) s fun t => OneTile u (x'.passed k s.len) s t ∧ SameBut [.tiles] s t
    reads 0x000 (2 ^ 60 + u * 2 ^ 24) ∧ reads 0x001 o.region.toNat
      ∧ reads 0x002 (o.region.toNat + o.key.toNat * 2 ^ 8 + (if o.mutcode then 2 ^ 16 else 0) + (if o.scrub then 2 ^ 17 else 0)
          + o.epoch.toNat * 2 ^ 24)
      ∧ reads 0x003 x.pid.toNat ∧ reads 0x004 s.mapgen.toNat ∧ reads 0x005 o.timer.toNat
      ∧ reads 0x010 (k.toNat + (if y.shared then 4 else 0) + (if y.state = .migrated then 8 else 0) + y.queue.toNat * 2 ^ 4
          + y.binding.toNat * 2 ^ 8 + y.tag.toNat * 2 ^ 16)
      ∧ reads 0x011 y.cause.toNat ∧ reads 0x012 y.epc.toNat ∧ reads 0x013 y.eval.toNat ∧ reads 0x014 x.trapctl.toNat
      ∧ reads 0x020 x.rcMask.toNat ∧ reads 0x022 x.mat.status.toNat ∧ reads 0x040 x.lvl.ctl.toNat
      ∧ reads 0x021 ((if x.vq = [] then 0 else 1) + x.vq.countP (fun e => !e.started) * 2 + (if s.unitHeld u then 2 ^ 5 else 0))
      ∧ reads 0x030 (dom.div.toNat + f.domain.toNat * 2 ^ 4 + (if dom.policy then 2 ^ 10 else 0) + f.steps.toNat * 2 ^ 32)
      ∧ reads 0x031 (f.state.toNat + (if f.sat then 4 else 0) + (if f.flt then 8 else 0) + (if f.xdom then 16 else 0)
          + (if f.badsrc then 32 else 0) + (if f.inj = [] then 0 else 64) + (if f.eccu then 128 else 0) + f.ovcell.toNat * 2 ^ 8
          + f.stepn.toNat * 2 ^ 32)
      ∧ reads 0x041 (x.lvl.depth % 2 ^ 16 + x.lvl.shipped.toNat * 2 ^ 16 + x.lvl.received.toNat * 2 ^ 32)
      ∧ reads 0x050 (x.fails.toNat + x.outst.toNat * 2 ^ 16)
      ∧ becomes 0x014 { x with trapctl := BitVec.ofNat 2 (s.rd c).toNat }
      ∧ (s.barwWaits u = false → Completes (.mts c 0x020) s fun t =>
          OneTile u (Tile.passed { x with rcMask := BitVec.ofNat 2 v.toNat } k s.len) s t
            ∧ (∀ w, w ≠ wireKey u.ret false (tileY u) → w ≠ wireKey u.ret true (tileX u) → t.wires.find? w = s.wires.find? w)
            ∧ SameBut [.tiles, .wires] s t)
      ∧ becomes 0x031 { x with fab := { f with sat := f.sat && !bit v 2, flt := f.flt && !bit v 3, xdom := f.xdom && !bit v 4,
                                               badsrc := f.badsrc && !bit v 5, eccu := f.eccu && !bit v 7 } }
      ∧ (let d : BitVec 6 := BitVec.ofNat 6 (v.toNat / 2 ^ 4)
         let key := domainKey u d
         f.state = 0 → f.domain = 0 ∨ f.domain = d → (s.domain key).run = none → Completes (.mts c 0x030) s fun t =>
           t.domain key = { s.domain key with div := BitVec.ofNat 4 v.toNat, policy := bit v 10 }
             ∧ (∀ j, j ≠ key → t.domain j = s.domain j)
             ∧ OneTile u (Tile.passed { x with fab := { f with domain := d, steps := BitVec.ofNat 32 (v.toNat / 2 ^ 32) } } k s.len) s t
             ∧ SameBut [.tiles, .domains] s t)
      ∧ (let size := v.toNat / 2 ^ 32 % 2 ^ 4
         let base := v.toNat / 2 ^ 16 % 2 ^ 13
         let moved := size ≠ field x.lvl.ctl 32 4 ∨ base ≠ field x.lvl.ctl 16 13
         let holds := x.lvl.depth ≠ 0 ∨ (∃ j, (x.slot j).taken ≠ none) ∨ s.levelMoving u = true
         let bad := size = 1 ∨ size = 2 ∨ 12 < size ∨ (moved ∧ holds) ∨ (size ≠ 0 ∧ 0x28000 < 32 * base + 32 * 2 ^ size)
         (¬bad → moved → becomes 0x040 { x with lvl := { x.lvl with ctl := v &&& 0x00000FFF1FFF7FFD#64, head := 0 } })
           ∧ (¬bad → ¬moved → becomes 0x040 { x with lvl := { x.lvl with ctl := v &&& 0x00000FFF1FFF7FFD#64 } })
           ∧ (bad → TrapReady u k s → Completes (.mts c 0x040) s (Traps u k .illegal (BitVec.ofNat 64 s.iw.toNat) s)))
      ∧ (f.state ≠ 0 → TrapReady u k s → Completes (.mts c 0x030) s (Traps u k .illegal (BitVec.ofNat 64 s.iw.toNat) s))
      ∧ (TrapReady u k s → ∀ i : BitVec 12,
          (i ∈ [0x100#12, 0x101, 0x102, 0x110] → Completes (.mfs c i) s (Traps u k .priv (BitVec.ofNat 64 s.iw.toNat) s)
              ∧ Completes (.mts c i) s (Traps u k .priv (BitVec.ofNat 64 s.iw.toNat) s))
            ∧ (i ∈ [0x000#12, 0x001, 0x002, 0x003, 0x004, 0x005, 0x010, 0x011, 0x012, 0x013, 0x021, 0x022, 0x041, 0x050] →
                Completes (.mts c i) s (Traps u k .illegal (BitVec.ofNat 64 s.iw.toNat) s))
            ∧ (i ∉ [0x000#12, 0x001, 0x002, 0x003, 0x004, 0x005, 0x010, 0x011, 0x012, 0x013, 0x014, 0x020, 0x021, 0x022, 0x030,
                0x031, 0x040, 0x041, 0x050, 0x100, 0x101, 0x102, 0x110] →
                Completes (.mfs c i) s (Traps u k .illegal (BitVec.ofNat 64 s.iw.toNat) s)
                  ∧ Completes (.mts c i) s (Traps u k .illegal (BitVec.ofNat 64 s.iw.toNat) s)))

/-! ## Proctor cores (R184, R185, R302, R305) -/

/-- On a core at level H, `MTS` writes a system register and `MFS` reads it. -/
def Obligations.ProctorRegisters : Prop :=
  ∀ (s : State) (b : BulkId) (n : BitVec 3) (c : Reg), s.cur = .core b n → (s.core b n).h = true →
    let x := s.core b n
    let v := s.rd c
    let reads (i : BitVec 12) (v : Word) : Prop := Completes (.mfs c i) s (Writes c v s)
    let becomes (i : BitVec 12) (x' : PCore) : Prop :=
      Completes (.mts c i) s (CoreBecomes b n { x' with ctx := x'.ctx.advance s.len } s)
    reads 0x000 (BitVec.ofNat 64 (n.toNat + b * 2 ^ 36)) ∧ reads 0x001 (BitVec.ofNat 64 (s.bulk b).region.toNat)
      ∧ reads 0x002 1 ∧ reads 0x003 (BitVec.ofNat 64 x.ppid.toNat) ∧ reads 0x004 x.hroot
      ∧ reads 0x010 (BitVec.ofNat 64 x.pcause.toNat) ∧ reads 0x011 x.pepc ∧ reads 0x012 x.peval
      ∧ reads 0x013 (BitVec.ofNat 64 x.psaved.toNat) ∧ reads 0x014 (BitVec.ofNat 64 x.hvimm.toNat) ∧ reads 0x015 x.hventry
      ∧ reads 0x018 x.ctx.loop0 ∧ reads 0x019 x.ctx.loop1 ∧ reads 0x01A x.ctx.loopH0 ∧ reads 0x01B x.ctx.loopH1
      ∧ reads 0x020 (s.island b).ptimer ∧ reads 0x100 (s.island b).tqbase
      ∧ reads 0x101 (BitVec.ofNat 64 (s.island b).tqhead.toNat) ∧ reads 0x102 (BitVec.ofNat 64 (s.island b).tqtail.toNat)
      ∧ becomes 0x003 { x with ppid := BitVec.ofNat 16 v.toNat } ∧ becomes 0x004 { x with hroot := v }
      ∧ becomes 0x010 { x with pcause := BitVec.ofNat 8 v.toNat } ∧ becomes 0x011 { x with pepc := v }
      ∧ becomes 0x012 { x with peval := v } ∧ becomes 0x013 { x with psaved := BitVec.ofNat 2 v.toNat }
      ∧ becomes 0x015 { x with hventry := v }
      ∧ becomes 0x018 { x with ctx := { x.ctx with loop0 := v &&& 0xFFFFFFFF9FFFFFFF#64 } }
      ∧ becomes 0x019 { x with ctx := { x.ctx with loop1 := v &&& 0xFFFFFFFF9FFFFFFF#64 } }
      ∧ becomes 0x01A { x with ctx := { x.ctx with loopH0 := BitVec.ofNat 64 (v.toNat / 2 ^ 18 * 2 ^ 18) } }
      ∧ (∀ i ∈ [0x005#12, 0x016, 0x021, 0x2C0], Completes (.mfs c i) s (CoreTraps b n .illegal (BitVec.ofNat 64 s.iw.toNat) s))
      ∧ ∀ i ∈ [0x000#12, 0x001, 0x002, 0x014, 0x020, 0x102], Completes (.mts c i) s
          (CoreTraps b n .illegal (BitVec.ofNat 64 s.iw.toNat) s)

/-- At level G a register marked "G, H" is read, one marked H only takes `PRIV` under `MFS` and `MTS`, and a write of a
read-only register of both levels takes `ILLEGAL`. The proctor-only instructions take `PRIV` on a tile, whatever their
operands (R103, R184). -/
def Obligations.ProctorPrivilege : Prop :=
  (∀ (s : State) (b : BulkId) (n : BitVec 3) (c : Reg), s.cur = .core b n → (s.core b n).h = false →
    (s.core b n).home = none →
    let traps (i : Instr) (cause : Cause) : Prop := Completes i s (CoreTraps b n cause (BitVec.ofNat 64 s.iw.toNat) s)
    Completes (.mfs c 0x002) s (Writes c 0 s) ∧ Completes (.mfs c 0x011) s (Writes c (s.core b n).pepc s)
      ∧ (∀ i ∈ [0x004#12, 0x013, 0x014, 0x015, 0x100, 0x101, 0x102, 0x200, 0x201, 0x202, 0x240],
          traps (.mfs c i) .priv ∧ traps (.mts c i) .priv)
      ∧ (∀ i ∈ [0x003#12, 0x010, 0x011, 0x012, 0x018, 0x01B], traps (.mts c i) .priv)
      ∧ (∀ i ∈ [0x000#12, 0x001, 0x002, 0x020], traps (.mts c i) .illegal)
      ∧ traps .eret .priv ∧ traps (.atinv c) .priv
      ∧ (∀ i ∈ [Instr.sends false 1 2 3, .fwd 0 1, .fwdw 0 1, .llput 1, .llget 1, .trig, .endI, .cEnd, .join 1, .leave 1,
            .migrate], traps i .priv)
      ∧ ∀ q : QNum, ∀ i ∈ [Instr.ldq c q 0, .qwait c q, .qadv q, .cQadv q, .qfree q c, .qpush q c c, .qstat c q, .arm q c c,
            .disarm q c], Completes i s (CoreTraps b n .queueErr (BitVec.ofNat 64 q.toNat) s))
    ∧ (∀ (s : State) (u : TileName) (k : BitVec 2) (imm : BitVec 12) (c : Reg), TrapReady u k s →
    ∀ i ∈ [Instr.eret, .wfi, .hvcall imm, .atinv c, .dcwb c, .dcinv c, .icinv c],
      Completes i s (Traps u k .priv (BitVec.ofNat 64 s.iw.toNat) s))

/-- `ERET` returns to the saved level and address; `HVCALL` and a `SYSCALL` of proctor code at level G enter level
H, and at level H take `ILLEGAL`; `WFI` goes on when a trap message is pending and waits otherwise; a trap of
proctor code enters level H. A trap of a migrated activation enters level H on its core, sets the trap registers
of its home slot, and sends a record with AWAY set to the core's own island (R39, R185, R322, R323). The address
that is saved, the level-H trap of `SYSCALL`, what ends `WFI` and where a migrated activation's record goes are
the model's readings (log entries 17, 18, 19, 33). -/
def Obligations.ProctorReturn : Prop :=
  (∀ (s : State) (b : BulkId) (n : BitVec 3) (imm : BitVec 12) (c : Reg), s.cur = .core b n →
    let x := s.core b n
    let pending := (s.island b).tqint.getLsbD n.toNat = true ∧ (s.island b).tqhead ≠ (s.island b).tqtail
    let next := x.ctx.advance 4
    let called := { x with pepc := next.pc, psaved := BitVec.ofNat 2 (if x.ien then 2 else 0), h := true, ien := false,
                           ctx := { next with pc := x.hventry &&& ~~~1#64, wait := .none } }
    (x.h = true → Completes .eret s (CoreBecomes b n
        { x with h := x.psaved.getLsbD 0, ien := x.psaved.getLsbD 1,
                 ctx := { x.ctx with pc := x.pepc &&& ~~~1#64, noEnd := false } } s))
      ∧ (x.h = false → Completes (.hvcall imm) s (CoreBecomes b n { called with hvimm := imm } s))
      ∧ (x.h = false → x.home = none → Completes (.syscall c) s (CoreBecomes b n called s))
      ∧ (x.h = true → Completes (.hvcall imm) s (CoreTraps b n .illegal (BitVec.ofNat 64 s.iw.toNat) s)
          ∧ Completes (.syscall c) s (CoreTraps b n .illegal (BitVec.ofNat 64 s.iw.toNat) s))
      ∧ (pending → Completes .wfi s (Passes s))
      ∧ (¬pending → Completes .wfi s (CoreBecomes b n
          { x with ctx := { x.ctx.advance s.len with
                              ipc := s.pc, issuedAt := some s.issueTime, before := s.ctx.loops,
                              wait := .issued .wfi s.iw s.ctx.regs s.ctx.eregs } } s))
      ∧ (x.h = true ∨ x.home = none → Completes (.brk imm) s (CoreTraps b n .brk s.pc s)
          ∧ Completes (.trap imm) s (EntersH b n 0x0C s.pc (BitVec.ofNat 64 imm.toNat) x.hvimm s)))
    ∧ (∀ (s : State) (b : BulkId) (n : BitVec 3) (imm : BitVec 12) (u : TileName) (k : BitVec 2) (act : Nat),
    s.cur = .core b n → (s.core b n).h = false → (s.core b n).home = some (u, k, act) →
    Completes (.brk imm) s fun t =>
      OneTile u ((s.tile u).onSlot k fun y => { y with cause := 0x0D, epc := s.pc, eval := s.pc }) s t
        ∧ OnePacket s.serial
            (newPacket (nodeAt b 20 16) (s.islandNode b (nodeAt b 20 16)) 5 2 (s.bulk b).region.toNat false
              (.trapRec { island := b, tile := BitVec.ofNat 64 (2 ^ 60 + u * 2 ^ 24), epc := s.pc, eval := s.pc,
                          cause := 0x0D, slot := k, noSlot := false, precise := true, late := false, step := false,
                          away := true, xreason := 0, xid := 0, station := 0 })) s t
        ∧ (t.core b n).h = true ∧ (t.core b n).pcause = 0x0D ∧ (t.core b n).pepc = s.pc ∧ (t.core b n).peval = s.pc
        ∧ (t.core b n).ctx.pc = (s.core b n).hventry &&& ~~~1#64 ∧ (t.core b n).psaved.getLsbD 0 = false
        ∧ (t.core b n).psaved.getLsbD 1 = (s.core b n).ien
        ∧ SameBut [.tiles, .islands, .packets, .routers, .serial] s t)

/-- The translation and cache instructions of a core: `ATINV` forgets the translations of one page or all; `DCWB`
writes a dirty far-memory line of the core back and keeps it clean; `DCINV` discards it, in the core's cache and in
the island's, without writing it; `ICINV` discards an instruction line of an untranslated tile offset. A translation that
the core does not keep is asked of its station first. On an untranslated address the data-cache instructions do
nothing. Which line a full cache gives up is left open (log entries 9 and 12): the line written back is one that the
island holds, or has room for. -/
def Obligations.ProctorCaches : Prop :=
  ∀ (s : State) (b : BulkId) (n : BitVec 3) (c : Reg), s.cur = .core b n →
    let x := s.core b n
    let va := (s.rd c).toNat % 2 ^ 56
    let at' (need : Right) (z : Xlat) : Prop := (s.rd c).getLsbD 63 = true ∧ s.ownXlat (s.rd c) need = some z
    let otherEcc (line : Nat) (t : State) : Prop :=
      ∀ w, 8 * w < islandKey b line ∨ islandKey b (line + 1) ≤ 8 * w → t.ecc.find? w = s.ecc.find? w
    let asks (i : Instr) (need : Right) : Prop :=
      (s.rd c).getLsbD 63 = true → s.ownXlat (s.rd c) need = none → s.asked (s.rd c) need = false → Completes i s fun t =>
        t.ctx.wait = .retry ∧ t.ctx.regs = s.ctx.regs ∧ t.pc = s.pc
          ∧ (∃ p k r, s.packets.find? p = none ∧ t.packets.find? p = some k ∧ k.body = .req r ∧ r.addr = s.rd c
              ∧ r.acc = .probe need ∧ ∀ m, m ≠ p → t.packets.find? m = s.packets.find? m)
          ∧ SameBut [.islands, .packets, .routers, .serial] s t
    (s.packets.find? s.serial = none → s.packets.find? (s.serial + 1) = none →
      asks (.dcwb c) .r ∧ asks (.dcinv c) (if x.h then .r else .w))
    ∧
    (x.h = true → Completes (.atinv c) s (CoreBecomes b n
        { x with tlb := if c = 0 then [] else x.tlb.filter fun l => !(l.va ≤ va && va < l.va + 2 ^ l.log),
                 ctx := x.ctx.advance s.len } s))
      ∧ (∀ z line, at' .r z → x.dcache.find? (z.pa / 64) = some (line, true) → line.length = 64 → MemCanonical s →
          ((s.island b).cache.find? (z.pa / 64)).isSome = true ∨ (s.island b).cache.length < islandLines →
          Completes (.dcwb c) s fun t =>
            t.mem.readN (2 ^ 64 + z.pa / 64 * 64) 64 = line ∧ SameBytes (2 ^ 64 + z.pa / 64 * 64) 64 s t
              ∧ OneIsland b { (s.island b).setCore n { x with dcache := x.dcache.put (z.pa / 64) (line, false),
                                                              ctx := x.ctx.advance s.len } with
                  cache := (s.island b).cache.put (z.pa / 64) line } s t
              ∧ otherEcc (z.pa / 64) t ∧ SameBut [.mem, .ecc, .islands] s t)
      ∧ (∀ z, at' (if x.h then .r else .w) z → Completes (.dcinv c) s fun t =>
          (t.core b n).dcache.find? (z.pa / 64) = none ∧ (t.island b).cache.find? (z.pa / 64) = none
            ∧ (∀ j, j ≠ z.pa / 64 → (t.core b n).dcache.find? j = x.dcache.find? j
                ∧ (t.island b).cache.find? j = (s.island b).cache.find? j)
            ∧ OneIsland b { (s.island b).setCore n { x with dcache := (t.core b n).dcache, ctx := x.ctx.advance s.len } with
                cache := (t.island b).cache } s t
            ∧ otherEcc (z.pa / 64) t ∧ SameBut [.ecc, .islands] s t)
      ∧ ((s.rd c).getLsbD 63 = false → s.loc (s.rd c) 1 ≠ .bad →
          Completes (.dcwb c) s (Passes s) ∧ Completes (.dcinv c) s (Passes s))
      ∧ (∀ v k act, x.h = false → x.home = some (v, k, act) → (s.rd c).toNat < 0x28000 → Completes (.icinv c) s fun t =>
          let key := (2 ^ 60 + v * 2 ^ 24 + (s.rd c).toNat) / 64
          (t.core b n).icache.find? key = none ∧ (∀ j, j ≠ key → (t.core b n).icache.find? j = x.icache.find? j)
            ∧ CoreBecomes b n { x with icache := (t.core b n).icache, ctx := x.ctx.advance s.len } s t)

/-! ## The vector unit (R190 to R211) -/

/-- A vector instruction on rows joins the queue of its tile, when fewer than 8 commands wait there, with its scalar
operand as it stands; with a full queue it is tried again. Row loads and stores of own scratch, `VLDQ`, which reads its
queue entry then, `XSCAN` and `VFENCE` at issue. -/
def Obligations.VectorIssue : Prop :=
  (∀ (i : Instr) (s : State) (u : TileName) (k : BitVec 2) (a : Word) (dest : Option Reg), s.cur = .slot u k →
    vecForm s.rd i = some (a, dest) →
    ((s.tile u).vq.countP (fun c => !c.started) < 8 → Completes i s (Enqueues u k (s.tile u) i a 0 dest none s))
      ∧ (8 ≤ (s.tile u).vq.countP (fun c => !c.started) → Completes i s fun t =>
          OneTile u ((s.tile u).onSlot k fun x =>
            { x with state := if x.state = .ready then .waiting else x.state, ctx := { x.ctx with wait := .retry } }) s t
            ∧ SameBut [.tiles] s t))
    ∧ (∀ (s : State) (u : TileName) (k : BitVec 2), s.cur = .slot u k → (s.tile u).vq.countP (fun c => !c.started) < 8 →
    let x := s.tile u
    let row (ea : Word) (o : Nat) : Prop := OwnAt u ea o s ∧ o % 64 = 0 ∧ o + 64 ≤ 0x28000
    (∀ v a (off : BitVec 6) o, s.acquiring = false → row (s.rd a + BitVec.ofNat 64 (64 * off.toNat)) o →
        Completes (.vld v a off) s
            (Enqueues u k x (.vld v a off) (s.rd a + BitVec.ofNat 64 (64 * off.toNat)) 0 none none s)
          ∧ (s.codeLocked u o 64 = false → Completes (.vst v a off) s
            (Enqueues u k x (.vst v a off) (s.rd a + BitVec.ofNat 64 (64 * off.toNat)) (BitVec.allOnes 64) none none
              s)))
      ∧ (∀ v a m o, s.acquiring = false → row (s.rd a) o → s.codeLocked u o 64 = false →
          Completes (.vstm v a m) s (Enqueues u k x (.vstm v a m) (s.rd a) (s.rd m) none none s))
      ∧ (∀ v qn (off : BitVec 6) q i, QueueReady u k qn q i s → 64 * off.toNat + 64 ≤ 64 * 2 ^ q.esize.toNat →
          let o := q.base.toNat + 64 * 2 ^ q.esize.toNat * i + 64 * off.toNat
          OwnFree u o 64 s → Completes (.vldq v qn off) s (Enqueues u k
            (x.setQueue qn (q.setEntry i { q.entry i with taken := true, held := true, holder := k })) (.vldq v qn off)
            (BitVec.ofNat 64 o) 0 none (some (s.mem.readN (scratchKey u o) 64)) s))
      ∧ (∀ ty v dirIn dirOut op (role : BitVec 2),
          (role = 0 ∨ role = 2 → ∃ n, neighbour u dirIn = some n ∧ s.tileExists n = true) →
          (role = 0 ∨ role = 1 → (∃ n, neighbour u dirOut = some n ∧ s.tileExists n = true) ∧ x.vq = [] ∧ x.outst = 0
            ∧ x.fails = 0 ∧ (s.bulk u.ret).gate ≠ 2) →
          Completes (.xscan ty v dirIn dirOut op role) s
            (Enqueues u k x (.xscan ty v dirIn dirOut op role) 0 0 none none s))
      ∧ (x.vq = [] → Completes .vfence s (Passes s))
      ∧ (x.vq ≠ [] → Completes .vfence s fun t =>
          OneTile u (x.waits k s.len (.older .vec s.serial) s.issueTime) s t ∧ SameBut [.tiles] s t))

/-- A started row command leaves the unit and writes each lane of its destination as its rule gives, on every type: R196
to R198, R201, R205, R206 and R208, and R199 and R200 for `VCVT`, whose target rows hold the converted lanes of its
source rows in order, and `VSCAN` of `rec`, whose two rows hold the components of its pairs (R63); the other rows stay. A
command with a scalar result writes it to the register that
awaits it. An uncorrectable error in a row that it reads, whichever, leaves every row as it was and traps, a choice of
the model, as R194 names only loads and `VSTM` (log entry 37). That `VCVT` to the same type keeps an infinity under
`.sat` is its choice too (log entry 137). -/
def Obligations.VectorLanes : Prop :=
  ∀ (s : State) (u : TileName) (c : VCmd), OneCommand u c s →
    let row (v : VReg) : Row := (s.tile u).row v.toNat
    let good (v : Nat) : Prop := s.eccBad (scratchKey u (0x820000 + 64 * v)) 64 = false
    let writes (first n : Nat) (t : State) : Prop :=
      (∀ m, m < first ∨ first + n ≤ m → (t.tile u).row m = (s.tile u).row m)
        ∧ OneTile u { s.tile u with vq := [], rows := (t.tile u).rows } s t ∧ SameBut [.tiles, .ecc] s t
    (∀ r, rowRule c.instr c.a = some r → (∀ v ∈ r.reads, good v.toNat) → Completes (.vectorCommandComplete u 0) s fun t =>
        (∀ j < r.lanes, lane r.width ((t.tile u).row r.dest.toNat) j = r.value j (r.reads.map row) % 2 ^ r.width)
          ∧ writes r.dest.toNat 1 t)
      ∧ (∀ ty src mode sat d a, c.instr = .vcvt ty src mode sat d a →
          let ins := max 1 (ty.lanes / src.lanes)
          let outs := max 1 (src.lanes / ty.lanes)
          (∀ n < ins, good (a.toNat + n)) → Completes (.vectorCommandComplete u 0) s fun t =>
            (∀ j < outs * ty.lanes, lane ty.width ((t.tile u).row (d.toNat + j / ty.lanes)) (j % ty.lanes)
                = convert ty src mode.toNat sat (lane src.width ((s.tile u).row (a.toNat + j / src.lanes)) (j % src.lanes))
                    % 2 ^ ty.width)
              ∧ writes d.toNat outs t)
      ∧ (∀ ty d a, c.instr = .vscan ty d a 3 → good a.toNat → good (a.toNat + 1) → Completes (.vectorCommandComplete u 0) s
          fun t =>
            (∀ j < 16, lane 32 ((t.tile u).row d.toNat) j = (scanRule ty 3 (s.tile u) a.toNat j) % 2 ^ 32
                ∧ lane 32 ((t.tile u).row (d.toNat + 1)) j = (scanRule ty 3 (s.tile u) a.toNat j) / 2 ^ 32 % 2 ^ 32)
              ∧ writes d.toNat 2 t)
      ∧ (∀ a reads f p, scalarRule c.instr = some (a, reads, f) → (∀ v ∈ reads, good v.toNat) → a ≠ 0 →
          (s.slot u c.slot).ctx.pend = [p] → p.id = c.id → p.reg = a → Completes (.vectorCommandComplete u 0) s fun t =>
            (t.slot u c.slot).ctx.get a = f (reads.map row)
              ∧ (∀ r, r ≠ a → (t.slot u c.slot).ctx.get r = (s.slot u c.slot).ctx.get r)
              ∧ (t.slot u c.slot).ctx.pend = [] ∧ (t.tile u).vq = [] ∧ (t.tile u).rows = (s.tile u).rows ∧ SameBut [.tiles] s t)
      ∧ (∀ reads : List VReg, ((∃ r, rowRule c.instr c.a = some r ∧ r.reads = reads) ∨ ∃ a f, scalarRule c.instr = some (a, reads, f)) →
          ∀ v, reads.find? (fun v => s.eccBad (scratchKey u (0x820000 + 64 * v.toNat)) 64) = some v → Quiet u c.slot c.act s →
          Completes (.vectorCommandComplete u 0) s fun t =>
            (t.tile u).vq = [] ∧ (t.tile u).rows = (s.tile u).rows ∧ t.mem = s.mem ∧ (t.slot u c.slot).state = .parked
              ∧ (t.slot u c.slot).cause = Cause.eccUe.code ∧ (t.slot u c.slot).epc = c.epc
              ∧ (t.slot u c.slot).eval = BitVec.ofNat 64 (0x820000 + 64 * v.toNat))

/-- The oldest command that waits at the front of the unit starts, when the unit is not held and no matrix command
holds it: a row command and an access of own scratch in the unit, any other access as a request that leaves the tile.
With the unit held, or nothing waiting, nothing happens. That an access by a tag 0x1 that names the own tile acts in the tile
is the model's reading (log entry 35). A load from own scratch completes with its 64 bytes in the
row, a store with the row's bytes that its mask names. An `XSCAN` takes its carry from the mailbox, once no `FWDW` that
issued before waits there, and waits for it while the mailbox is empty; it then sends the carry of its last lane onward and
writes the scan of its rows, each lane combined with the carry, at once, or keeps the carry while the neighbour's mailbox
has no room (R209, R211). -/
def Obligations.VectorCompletes : Prop :=
  ∀ (s : State) (u : TileName) (c : VCmd) (off : Nat),
    let x := s.tile u
    let good (v : Nat) : Prop := s.eccBad (scratchKey u (0x820000 + 64 * v)) 64 = false
    let starts (y : Tile) (t : State) : Prop := OneTile u y s t ∧ SameBut [.tiles] s t
    (∀ rest, x.vq = c :: rest → c.started = false → (∀ e ∈ rest, e.started = false ∧ e.id ≠ c.id) →
        s.unitHeld u = false → x.matrixHolds c = false →
        (c.isMem = false ∨ (∃ v q o, c.instr = .vldq v q o) → Completes (.vectorCommandStart u) s
            (starts { x with vq := { c with started := true } :: rest }))
          ∧ (∀ acc, x.vecAccess c = some acc → s.vecMustWait u c acc = false →
            (OwnAt u c.a off s → off + 64 ≤ 0x28000 → Completes (.vectorCommandStart u) s
                (starts { x with vq := { c with started := true } :: rest }))
              ∧ ∀ v o, (∀ n ∈ rowsRead c.instr, good n) → c.a.toNat = 2 ^ 60 + v * 2 ^ 24 + o → v < 2 ^ 19 → s.tileExists v = true → v ≠ u → o + 64 ≤ 0x28000 →
                Completes (.vectorCommandStart u) s fun t =>
                OneTile u { x with vq := { c with started := true, sent := true } :: rest
                                   offTile := if acc.isLimited then x.offTile ++ [c.id] else x.offTile } s t
                  ∧ OnePacket s.serial
                      (newPacket (tileNode u) (tileNode v) 0 acc.flits (s.bulk u.ret).region.toNat false
                        (.req { acc := acc, addr := c.a,
                                who := { origin := .vec u c.slot c.act c.id, rid := c.id, epc := c.epc, iw := c.iw },
                                also := [], pid := x.pid, hLevel := false, dest := none, counted := false, lc := false })) s t
                  ∧ SameBut [.tiles, .packets, .routers, .serial] s t))
      ∧ (s.unitHeld u = true ∨ (∀ e ∈ x.vq, e.started = true) → Completes (.vectorCommandStart u) s fun t => t = s)
      ∧ (∀ v a o, OneCommand u c s → c.instr = .vld v a o → c.data = none → c.sent = false → OwnAt u c.a off s →
          off + 64 ≤ 0x28000 → s.eccBad (scratchKey u off) 64 = false → Completes (.vectorCommandComplete u 0) s fun t =>
            ((t.tile u).row v.toNat).toNat = ofBytes (s.mem.readN (scratchKey u off) 64)
              ∧ (∀ n, n ≠ v.toNat → (t.tile u).row n = x.row n)
              ∧ OneTile u { x with vq := [], rows := (t.tile u).rows } s t ∧ SameBut [.tiles, .ecc] s t)
      ∧ (∀ v, OneCommand u c s → ((∃ a o, c.instr = .vst v a o) ∨ ∃ a m, c.instr = .vstm v a m) → c.sent = false →
          good v.toNat → OwnAt u c.a off s → off % 64 = 0 → off + 64 ≤ 0x28000 → s.eccBad (scratchKey u off) 64 = false → MemCanonical s →
          Completes (.vectorCommandComplete u 0) s fun t =>
            (∀ j < 64, t.mem.read (scratchKey u off + j)
                = if c.m.getLsbD j then BitVec.ofNat 8 ((x.row v.toNat).toNat / 2 ^ (8 * j))
                  else s.mem.read (scratchKey u off + j))
              ∧ SameBytes (scratchKey u off) 64 s t ∧ OneTile u { x with vq := [] } s t ∧ SameBut [.mem, .ecc, .tiles] s t)
      ∧ (∀ ty v dirIn dirOut op (role : BitVec 2), OneCommand u c s → c.instr = .xscan ty v dirIn dirOut op role → c.sent = false →
          good v.toNat → (op = 3 → good (v.toNat + 1)) →
          let hasOut : Prop := role = 0 ∨ role = 1
          let result (w : Option Word) (j : Nat) : Nat := match w with
            | some w => combine ty op.toNat w.toNat (scanRule ty op.toNat x v.toNat j)
            | none => scanRule ty op.toNat x v.toNat j
          let scanned (w : Option Word) (y : Tile) (t : State) : Prop :=
            (∀ j < 16, lane 32 ((t.tile u).row v.toNat) j = result w j % 2 ^ 32
                ∧ (op = 3 → lane 32 ((t.tile u).row (v.toNat + 1)) j = result w j / 2 ^ 32 % 2 ^ 32))
              ∧ (∀ m, m ≠ v.toNat → ¬(op = 3 ∧ m = v.toNat + 1) → (t.tile u).row m = x.row m)
              ∧ OneTile u { y with vq := [], rows := (t.tile u).rows } s t
          (scanTakes x c dirIn role = none → Completes (.vectorCommandComplete u 0) s fun t => t = s)
            ∧ ∀ w y, scanTakes x c dirIn role = some (w, y) →
              (¬hasOut → Completes (.vectorCommandComplete u 0) s fun t => scanned w y t ∧ SameBut [.tiles, .ecc] s t)
                ∧ ∀ n, hasOut → neighbour u dirOut = some n →
                  let used := ((s.tile n).box (dirOut + 2)).length + s.lanes.countP (fun l => l.2.dst = n && l.2.dir + 2 = dirOut + 2)
                  (used < 4 → Completes (.vectorCommandComplete u 0) s fun t =>
                      scanned w y t ∧ SameBut [.tiles, .ecc, .lanes, .serial] s t
                        ∧ t.lanes.find? s.serial = some
                            { src := u, dst := n, dir := dirOut, value := BitVec.ofNat 64 (result w 15),
                              who := { origin := .slot u c.slot c.act, rid := c.id, epc := c.epc, iw := c.iw } }
                        ∧ (∀ m, m ≠ s.serial → t.lanes.find? m = s.lanes.find? m))
                    ∧ (4 ≤ used → Completes (.vectorCommandComplete u 0) s fun t => OneTile u y s t ∧ SameBut [.tiles] s t))

/-! ## The matrix slice (R212 to R231) -/

/-- The matrix instructions that act at issue: `GANG`, the operand descriptors, `MSCA`, `MZERO`, `MSTAT` and `MWAIT`. That
`MOPA` and `MOPB` of an accumulator leave a descriptor's base and layout as they were is the model's choice (log entry
39). -/
def Obligations.MatrixIssue : Prop :=
  ∀ (s : State) (u : TileName) (k : BitVec 2), s.cur = .slot u k →
    let x := s.tile u
    let m := x.mat
    let becomes (x' : Tile) (t : State) : Prop := OneTile u (x'.passed k s.len) s t ∧ SameBut [.tiles, .serial] s t
    let cmd (i : Instr) : MCmd :=
      { id := s.serial, instr := i, slot := k, act := (s.slot u k).act, epc := s.pc, iw := s.iw,
        descA := { Desc.reset with block := true }, descB := { Desc.reset with block := true }, metaAddr := 0 }
    (∀ w pos, w = 0 ∨ s.isGang u = true → m.arrivals = [] → m.waiting = none → m.running = none →
        Completes (.gang w pos) s (becomes { x with mat := { m with width := BitVec.ofNat 2 w.toNat, pos := pos } }))
      ∧ (∀ (w : BitVec 3) pos, w ≠ 0 → s.isGang u = false → TrapReady u k s →
          Completes (.gang w pos) s (Traps u k .noname (BitVec.ofNat 64 (2 ^ 60 + u * 2 ^ 24)) s))
      ∧ (∀ ty acc,
          Completes (.mopaAcc ty acc) s (becomes { x with mat := { m with descA :=
              { m.descA with fmt := ty, block := false, acc := acc, gen := s.serial } } })
            ∧ Completes (.mopbAcc ty acc) s (becomes { x with mat := { m with descB :=
              { m.descB with fmt := ty, block := false, acc := acc, gen := s.serial } } }))
      ∧ (∀ (ty : Ty) a b off,
          let unit := if ty = 5 then 4 else 32
          let pitch := (s.rd b).toNat % 2 ^ 16
          (s.rd a).toNat = 2 * 2 ^ 60 + (u.ret * 4096 + u.blk * 16) * 2 ^ 24 + off → u.ret < 80 → s.coresIn u.ret u.blk ≠ 0 →
          off % unit = 0 → pitch % unit = 0 → (s.rd b).toNat / 2 ^ 16 % 2 ^ 16 % unit = 0 →
          off + 15 * pitch + (if ty = 5 then 4 else 64) ≤ 0x100000 →
          let d (old : Desc) : Desc :=
            { old with fmt := ty, block := true, base := s.rd a, layout := BitVec.ofNat 64 ((s.rd b).toNat % 2 ^ 34),
                       gen := s.serial }
          Completes (.mopaBlock ty a b) s (becomes { x with mat := { m with descA := d m.descA } })
            ∧ Completes (.mopbBlock ty a b) s (becomes { x with mat := { m with descB := d m.descB } }))
      ∧ (∀ acc pb vsa vsb, m.scWaiting = none → Completes (.msca acc pb vsa vsb) s
          (becomes { x with mat := { m with scWaiting := some (cmd (.msca acc pb vsa vsb)) } }))
      ∧ (∀ acc : Acc, m.open = [] → x.vq = [] → Completes (.mzero acc) s fun t =>
          (∀ n, (t.tile u).row n = if n / 16 = acc.toNat then 0 else x.row n)
            ∧ (t.tile u).mat = { m with status := (t.tile u).mat.status }
            ∧ field (t.tile u).mat.status 16 16 = (field m.status 16 16 + 1) % 2 ^ 16
            ∧ field (t.tile u).mat.status 0 4 = field m.status 0 4
            ∧ OneTile u (Tile.passed { x with rows := (t.tile u).rows, mat := (t.tile u).mat } k s.len) s t
            ∧ SameBut [.tiles, .ecc, .serial] s t)
      ∧ (∀ d, Completes (.mstat d) s fun t =>
          OneTile u (Tile.passedWith { x with mat := { m with status := m.status &&& ~~~0xF#64 } } k s.len d m.status) s t
            ∧ SameBut [.tiles] s t)
      ∧ (m.open = [] → Completes .mwait s (Passes s))
      ∧ (m.open ≠ [] → Completes .mwait s fun t =>
          OneTile u (x.waits k s.len (.older .mat s.serial) s.issueTime) s t ∧ SameBut [.tiles] s t)

/-- `MMA` and `MMAS` that pass the checks of R216, R222 and R224 leave an arrival and wait for their gang; a pair of
formats that R218 does not list traps, on a tile that is its own gang. The format pairs of R218: dense BF16, FP16,
FP8, I8 and FP4; sparse BF16 and FP8. -/
def Obligations.JoinIssue : Prop :=
  (∀ (i : Instr) (s : State) (u : TileName) (k : BitVec 2) (addr : Word), s.cur = .slot u k →
    ((∃ acc pb, i = .mma acc pb ∧ addr = 0) ∨ ∃ acc a, i = .mmas acc a ∧ addr = s.rd a) →
    let m := (s.tile u).mat
    let c : MCmd :=
      { id := s.serial, instr := i, slot := k, act := (s.slot u k).act, epc := s.pc, iw := s.iw, descA := m.descA,
        descB := m.descB, metaAddr := addr }
    let leader := decide (m.pos = 0)
    (m.abortAt m.arrivals.length = false → c.badCombo leader = false →
        (∀ d ∈ c.reads leader, d.block = true → s.descOk u d = true) →
        (leader = true → addr.toNat % 8 = 0 ∧ addr.toNat + 128 ≤ 0x28000) → Completes i s fun t =>
          OneTile u (Tile.waits { s.tile u with mat := { m with arrivals := m.arrivals ++ [c] } } k s.len .gang
              s.issueTime) s t
            ∧ SameBut [.tiles, .serial] s t)
      ∧ (m.abortAt m.arrivals.length = false → s.gangSet u = [u] → TrapReady u k s →
          formatsOk (match i with | .mmas _ _ => true | _ => false) m.descA.fmt m.descB.fmt = false →
          Completes i s (Traps u k .matrixCombo (BitVec.ofNat 64 s.iw.toNat) s)))
    ∧ (∀ (a b : BitVec 3),
    (formatsOk false a b = true ↔ (a, b) ∈ [(1#3, 1#3), (2, 2), (3, 3), (3, 4), (4, 3), (4, 4), (7, 7), (5, 5)])
      ∧ (formatsOk true a b = true ↔ (a, b) ∈ [(1#3, 1#3), (3, 3), (3, 4), (4, 3), (4, 4)]))

/-- The work of a gang of one tile: its join completes and wakes its slot; an abort parks it at its instruction, with the
loop levels of before its end action, and matches no later arrival; the array starts with the operand rows as they stand, a row of 64 bytes at any
multiple of 32 read contiguously, which is the model's reading of R219 (log entry 109); it completes an I8 operation
with the exact sums modulo 2^32, a floating-point one, dense or sparse, with the sums that R219 and R224 round group by
group, and an FP4 one with exact sums in its partial buffer; the scale stage starts and writes its rounded sums. -/
def Obligations.MatrixWork : Prop :=
  ∀ (s : State) (u : TileName) (c : MCmd) (op : MOp),
    let x := s.tile u
    let m := x.mat
    let seq (t : State) : Nat := field (t.tile u).mat.status 16 16
    (s.gangSet u = [u] → m.arrivals = [c] → m.waiting = none → m.aborts = [] → m.pos = 0 → x.vq = [] → c.sparse = false →
        (s.slot u c.slot).act = c.act → (s.slot u c.slot).ctx.wait = .gang → (s.slot u c.slot).state = .waiting →
        Completes (.gangJoinCompletion u) s fun t =>
          OneTile u (Tile.onSlot { x with mat := { m with
              arrivals := [],
              waiting := some { cmd := c, leader := u, members := [u], descLead := c.descA, metaRows := [], aRows := [],
                                bRows := [], eccBad := false, eccCorr := false },
              descA := m.descA.advance c.descA, descB := m.descB.advance c.descB } }
            c.slot fun y => { y with state := .ready, ctx := { y.ctx with wait := .none } }) s t
            ∧ SameBut [.tiles, .progress] s t)
      ∧ (m.arrivals = [c] → m.abortAt 0 = true → m.zeros = [] → (s.slot u c.slot).act = c.act → (s.slot u c.slot).state = .waiting →
          (s.slot u c.slot).ctx.wait = .gang → bit x.trapctl 0 = false → x.dbgActive = false →
          Completes (.gangAbort u) s fun t =>
            let left := (m.aborts.filter fun a => a.place ≠ 0).map fun a => { a with place := a.place - 1 }
            OneTile u (Tile.onSlot { x with mat := { m with arrivals := [], aborts := left } } c.slot fun y =>
              { y with state := .parked, cause := 0x09, epc := c.epc, eval := BitVec.ofNat 64 c.iw.toNat,
                       ctx := { y.ctx with pc := y.ctx.ipc, wait := .none, noEnd := y.ctx.before.noEnd,
                                           loop0 := y.ctx.before.loop0, loop1 := y.ctx.before.loop1,
                                           loopH0 := y.ctx.before.loopH0, loopH1 := y.ctx.before.loopH1 } }) s t
              ∧ SameBut [.tiles, .packets, .routers, .serial] s t)
      ∧ (m.waiting = some op → op.members = [u] → op.leader = u → op.eccBad = false → m.running = none →
          m.scWaiting = none → m.scRunning = none → m.zeros = [] → s.accessBefore u op.cmd = false → s.ecc = [] →
          Completes (.matrixArrayStart u) s fun t =>
          let row (d : Desc) (i : Nat) : Row :=
            if d.block then BitVec.ofNat 512 (ofBytes (s.mem.readN (blockKey u.ret u.blk (d.rowAddr i)) (fmtRow d.fmt)))
            else x.row (16 * d.acc.toNat + i)
          let o : MOp := { op with aRows := (List.range 16).map (row op.descLead),
                                   bRows := (List.range 16).map (row op.cmd.descB), eccBad := false }
          OneTile u { x with mat := { m with waiting := none, running := some o } } s t ∧ SameBut [.tiles] s t)
      ∧ (∀ acc pb, m.running = some op → op.eccBad = false → op.eccCorr = false → op.cmd.instr = .mma acc pb →
          op.descLead.fmt = 7 → op.cmd.descA.fmt = 7 → op.cmd.descB.fmt = 7 → m.zeros = [] →
          Completes (.matrixArrayComplete u) s fun t =>
            (∀ i < 16, ∀ j < 16, (lane 32 ((t.tile u).row (16 * acc.toNat + i)) j : Int)
                = ((lane 32 (x.row (16 * acc.toNat + i)) j : Int) + ((List.range 32).map fun n =>
                    signed 8 (lane 8 (op.aRows.getD i 0) n) * signed 8 (lane 8 (op.bRows.getD j 0) n)).sum) % 2 ^ 32)
              ∧ (∀ n, n / 16 ≠ acc.toNat → (t.tile u).row n = x.row n)
              ∧ seq t = (field m.status 16 16 + 1) % 2 ^ 16 ∧ field (t.tile u).mat.status 0 4 = field m.status 0 4
              ∧ (t.tile u).mat = { m with running := none, status := (t.tile u).mat.status }
              ∧ OneTile u { x with rows := (t.tile u).rows, mat := (t.tile u).mat } s t ∧ SameBut [.tiles, .ecc] s t)
      ∧ (∀ fa fb (acc : Acc), m.running = some op → op.eccBad = false → op.eccCorr = false → m.zeros = [] →
          fmtOf op.descLead.fmt.toNat = some fa → fmtOf op.cmd.descB.fmt.toNat = some fb →
          let half := op.descLead.fmt = 1 ∨ op.descLead.fmt = 2
          let sums (groups : Nat) (terms : Nat → Nat → Nat → List FP) : Prop :=
            Completes (.matrixArrayComplete u) s fun t =>
              (∀ i < 16, ∀ j < 16, lane 32 ((t.tile u).row (16 * acc.toNat + i)) j
                  = gangElement groups (terms i j) (lane 32 (x.row (16 * acc.toNat + i)) j) % 2 ^ 32)
                ∧ (∀ n, n / 16 ≠ acc.toNat → (t.tile u).row n = x.row n)
                ∧ seq t = (field m.status 16 16 + 1) % 2 ^ 16
                ∧ (t.tile u).mat = { m with running := none, status := (t.tile u).mat.status }
                ∧ OneTile u { x with rows := (t.tile u).rows, mat := (t.tile u).mat } s t ∧ SameBut [.tiles, .ecc] s t
          (∀ pb, op.cmd.instr = .mma acc pb → formatsOk false op.descLead.fmt op.cmd.descB.fmt = true → op.descLead.fmt ≠ 5 →
              sums (if half then 4 else 8) fun i j => denseTerms fa fb (op.aRows.getD i 0) (op.bRows.getD j 0))
            ∧ ∀ a, op.cmd.instr = .mmas acc a → formatsOk true op.descLead.fmt op.cmd.descB.fmt = true →
              sums (if half then 8 else 16) fun i j =>
                sparseTerms fa fb (op.aRows.getD i 0) (op.bRows.getD j 0) (op.metaRows.getD i 0))
      ∧ (∀ acc pb, m.running = some op → op.eccBad = false → op.eccCorr = false → op.cmd.instr = .mma acc pb →
          op.descLead.fmt = 5 → op.cmd.descA.fmt = 5 → op.cmd.descB.fmt = 5 → m.zeros = [] →
          Completes (.matrixArrayComplete u) s fun t =>
            let p := fun t' n => (Tile.mat (State.tile t' u)).partialAt n
            let base := if pb then 256 else 0
            (∀ i < 16, ∀ j < 16, (p t (base + 16 * i + j)).toInt = ((List.range 8).map fun k =>
                e2m1Halves (lane 4 (op.aRows.getD i 0) k) * e2m1Halves (lane 4 (op.bRows.getD j 0) k)).sum)
              ∧ (∀ n, (n < base ∨ base + 256 ≤ n) → p t n = p s n)
              ∧ (t.tile u).rows = x.rows ∧ seq t = (field m.status 16 16 + 1) % 2 ^ 16
              ∧ (t.tile u).mat = { m with running := none, status := (t.tile u).mat.status,
                                          partials := (t.tile u).mat.partials }
              ∧ OneTile u { x with mat := (t.tile u).mat } s t ∧ SameBut [.tiles, .ecc] s t)
      ∧ (m.scWaiting = some c → m.scRunning = none → m.open = [c] → x.vq = [] →
          Completes (.mscaStageStart u) s fun t =>
            OneTile u { x with mat := { m with scWaiting := none, scRunning := some c } } s t ∧ SameBut [.tiles] s t)
      ∧ (∀ acc pb vsa vsb, m.scRunning = some c → c.instr = .msca acc pb vsa vsb → s.ecc = [] → m.zeros = [] →
          Completes (.mscaStageComplete u) s fun t =>
            (∀ i < 16, ∀ j < 16,
              let p := m.partialAt ((if pb then 256 else 0) + 16 * i + j)
              let term := ((FP.fin (p.toInt < 0) p.toInt.natAbs (-2)).mul (fp32.value (lane 32 (x.row vsa.toNat) i))).mul
                (fp32.value (lane 32 (x.row vsb.toNat) j))
              lane 32 ((t.tile u).row (16 * acc.toNat + i)) j
                = toFP32 ((fp32.value (lane 32 (x.row (16 * acc.toNat + i)) j)).add term) % 2 ^ 32)
              ∧ (∀ n, n / 16 ≠ acc.toNat → (t.tile u).row n = x.row n)
              ∧ seq t = (field m.status 16 16 + 1) % 2 ^ 16
              ∧ (t.tile u).mat = { m with scRunning := none, status := (t.tile u).mat.status }
              ∧ OneTile u { x with rows := (t.tile u).rows, mat := (t.tile u).mat } s t ∧ SameBut [.tiles, .ecc] s t)

/-! ## The integrator fabric (R232 to R255) -/

/-- The fabric instructions on a tile whose domain is not RUNNING and that has no change pending. The clock that
orders changes is the model's reading (log entry 29). -/
def Obligations.FabricIssue : Prop :=
  ∀ (s : State) (u : TileName) (k : BitVec 2), s.cur = .slot u k → (s.tile u).fab.state ≠ 2 → (s.tile u).fab.changes = [] →
    let x := s.tile u
    let f := x.fab
    let becomes (g : Fabric) (t : State) : Prop :=
      OneTile u (Tile.passed { x with fab := g } k s.len) s t ∧ SameBut [.tiles] s t
    let range (off n : Nat) : Prop :=
      off + n ≤ 0x28000 ∧ OwnFree u off n s
    (∀ (cell : BitVec 9) a d off, OwnAt u (s.rd a) off s → off % 32 = 0 → cell.toNat < 256 →
        let n := min (s.rd d).toNat (256 - cell.toNat)
        n ≠ 0 → range off (32 * n) → Completes (.dpatch cell a d) s fun t =>
          (∀ c, (t.tile u).fab.cell c = if cell.toNat ≤ c ∧ c < cell.toNat + n then
              (f.cell c).patch (s.mem.readN (scratchKey u (off + 32 * (c - cell.toNat))) 32) else f.cell c)
            ∧ becomes { f with cells := (t.tile u).fab.cells } t)
      ∧ (∀ (cell : BitVec 9) a d off, OwnAt u (s.rd a) off s → off % 32 = 0 → 256 ≤ cell.toNat → range off 64 →
          Completes (.dpatch cell a d) s fun t =>
            (∀ i < 64, (t.tile u).fab.mapByte i = s.mem.read (scratchKey u off + i))
              ∧ becomes { f with map := (t.tile u).fab.map } t)
      ∧ (∀ cell a, Completes (.dset cell a) s fun t =>
          (t.tile u).fab.cell cell.toNat = { f.cell cell.toNat with y := yOfFP (s.rd a).toNat }
            ∧ (∀ c, c ≠ cell.toNat → (t.tile u).fab.cell c = f.cell c)
            ∧ becomes { f with cells := (t.tile u).fab.cells } t)
      ∧ (∀ d cell,
          Completes (.dget d cell) s (Writes d (BitVec.ofNat 64 (fpOfY (f.cell cell.toNat).y)) s)
            ∧ Completes (.dres d cell) s (Writes d (BitVec.ofNat 64 ((f.cell cell.toNat).res.toNat
                + (if (f.cell cell.toNat).out = 1 then 1 else if (f.cell cell.toNat).out = 3 then 2 ^ 32 - 1 else 0) * 2 ^ 32)) s))
      ∧ (∀ a off, OwnAt u (s.rd a) off s → off % 64 = 0 → range off 2304 → f.state = 0 → s.codeLocked u off 2304 = false →
          Behind u off 2304 s → MemCanonical s → Completes (.dsave a) s fun t =>
            let at' (o n : Nat) : Nat := ofBytes (t.mem.readN (scratchKey u off + o) n)
            (∀ c < 256, at' (4 * c) 4 = (f.cell c).y.toNat ∧ at' (0x400 + 4 * c) 4 = (f.cell c).res.toNat)
              ∧ (∀ n < 32, at' (0x800 + 4 * n) 4 = (f.count n).toNat)
              ∧ at' 0x8C0 8 = f.stat.toNat ∧ at' 0x8C8 8 = (s.ddaCtl u).toNat
              ∧ SameBytes (scratchKey u off) 2304 s t ∧ OneTile u (x.passed k s.len) s t ∧ SameBut [.mem, .ecc, .tiles] s t)
      ∧ (∀ a off, OwnAt u (s.rd a) off s → off % 64 = 0 → range off 2304 → f.state = 0 → Completes (.dload a) s fun t =>
            let word (o : Nat) : Nat := ofBytes (s.mem.readN (scratchKey u off + o) 4)
            (∀ c < 256, ((t.tile u).fab.cell c).y.toInt = max (-(2 ^ 24)) (min (2 ^ 24) (signed 32 (word (4 * c))))
                ∧ ((t.tile u).fab.cell c).res.toNat = word (0x400 + 4 * c) % 2 ^ 24
                ∧ ((t.tile u).fab.cell c).dx = (f.cell c).dx ∧ ((t.tile u).fab.cell c).dy = (f.cell c).dy)
              ∧ (∀ n < 32, ((t.tile u).fab.count n).toNat = word (0x800 + 4 * n))
              ∧ (t.tile u).fab.state = 0 ∧ (t.tile u).fab.domain = f.domain ∧ (t.tile u).fab.steps = f.steps
              ∧ OneTile u (Tile.passed { x with fab := (t.tile u).fab } k s.len) s t ∧ SameBut [.tiles] s t)
      ∧ (∀ div a, let d : BitVec 6 := BitVec.ofNat 6 (s.rd a).toNat
          f.state = 0 → f.domain = 0 ∨ f.domain = d → (s.domain (domainKey u d)).run = none →
          Completes (.dclk div a) s fun t =>
            t.domain (domainKey u d) = { s.domain (domainKey u d) with div := div, policy := (s.rd a).getLsbD 8 }
              ∧ (∀ j, j ≠ domainKey u d → t.domain j = s.domain j)
              ∧ OneTile u (Tile.passed { x with fab := { f with domain := d } } k s.len) s t
              ∧ SameBut [.tiles, .domains] s t)
      ∧ (∀ a, Completes (.dstep a) s (becomes { f with steps := BitVec.ofNat 32 (s.rd a).toNat }))
      ∧ (f.state = 0 → f.domain = 0 → (s.domain (2 ^ 20 + u)).run = none → Completes .drun s fun t =>
          t.domain (2 ^ 20 + u) = { s.domain (2 ^ 20 + u) with
              run := some ([u], f.steps.toNat, (s.bulk u.ret).timer), halt := none, stop := false }
            ∧ (∀ j, j ≠ 2 ^ 20 + u → t.domain j = s.domain j)
            ∧ OneTile u (Tile.passed { x with fab := { f with
                state := 1, was := 0, budget := f.steps, armed := some { slot := k, act := (s.slot u k).act, epc := s.pc } } } k s.len) s t
            ∧ SameBut [.tiles, .domains] s t)
      ∧ (f.state = 1 → (s.domain (s.domainOf u)).run = none → (∀ j, (s.slot u j).dwaited = s.slot u j) →
          Completes .dhalt s (becomes { f with state := 0, armed := none }))
      ∧ (f.state = 0 → Completes .dhalt s (Passes s) ∧ Completes .dwait s (Passes s))
      ∧ (f.state ≠ 0 → Completes .dwait s fun t =>
          OneTile u (x.waits k s.len (.issued .dwait s.iw s.ctx.regs s.ctx.eregs) s.issueTime) s t ∧ SameBut [.tiles] s t)
      ∧ (∀ d cnt, Completes (.drdc false d cnt) s (Writes d (BitVec.ofInt 64 (f.count cnt.toNat).toInt) s)
          ∧ Completes (.drdc true d cnt) s fun t =>
              (∀ n, (t.tile u).fab.count n = if n = cnt.toNat then 0 else f.count n)
                ∧ OneTile u (Tile.passedWith { x with fab := { f with counts := (t.tile u).fab.counts } } k s.len d
                    (BitVec.ofInt 64 (f.count cnt.toNat).toInt)) s t ∧ SameBut [.tiles] s t)
      ∧ (∀ cnt, Completes (.dclrc cnt) s fun t =>
          (∀ n, (t.tile u).fab.count n = if n = cnt.toNat then 0 else f.count n)
            ∧ becomes { f with counts := (t.tile u).fab.counts } t)
      ∧ (∀ d, Completes (.dstat d) s (Writes d (BitVec.ofNat 64 (f.state.toNat + (if f.sat then 4 else 0)
          + (if f.flt then 8 else 0) + (if f.xdom then 16 else 0) + (if f.badsrc then 32 else 0)
          + (if f.inj = [] then 0 else 64) + (if f.eccu then 128 else 0) + f.ovcell.toNat * 2 ^ 8
          + f.stepn.toNat * 2 ^ 32)) s))
      ∧ ∀ a off, OwnAt u (s.rd a) off s → off % 64 = 0 → range off 64 → Completes (.dinj a) s
          (becomes { f with inj := s.injTaken u ++ [((s.bulk u.ret).timer, s.mem.readN (scratchKey u off) 64)] })

/-- A run of a tile that is its own step domain: it starts two cycles after its start was taken at the earliest, one
step integrates every cell from the values of the step before, with the pattern that a `DINJ` has given it, and at a
boundary that ends the run the tile halts and its `DWAIT`s complete. A cell whose sum leaves ±2^24 is clamped: under
SATURATE the run goes on, under FAULT it ends and the slot that armed the tile takes `DDA_OVERRUN`, or a record that names no
slot leaves once its activation is gone (R237, R238). A step takes a period of the step clock, which no cap stretches. Where
the edges of the step clock fall in a nominal period of the bulkhead's clock is the model's reading (log entry 29). -/
def Obligations.FabricRun : Prop :=
  ∀ (s : State) (u : TileName) (budget : Nat) (taken : Word),
    let x := s.tile u
    let f := x.fab
    let d := s.domain (2 ^ 20 + u)
    let now := (s.bulk u.ret).timer
    f.domain = 0 → d.run = some ([u], budget, taken) → f.changes = [] →
      (d.started = false → taken.toNat + 3 ≤ now.toNat → Completes (.domainStart u) s fun t =>
          (let half := if d.div = 0 ∧ d.half < 2 * s.time + 1 then 2 * s.time + 1 else 2 * s.time + 2
           t.domain (2 ^ 20 + u) = { d with started := true, edge := s.edgeOf u half, half := half })
            ∧ OneTile u { x with fab := { f with state := 2, stepn := 0, was := 0 } } s t ∧ SameBut [.tiles, .domains] s t)
        ∧ (d.started = false → now.toNat < taken.toNat + 2 → Completes (.domainStart u) s fun t => t = s)
        ∧ (d.started = true → 2 * s.time + 2 < d.half + 2 ^ d.div.toNat → Completes (.fabricStep u) s fun t => t = s)
        ∧ (d.started = true → d.stop = false → d.half + 2 ^ d.div.toNat ≤ d.nextHalf s.time → s.badCell u = none →
            let edge := s.edgeOf u (d.nextHalf s.time)
            let pattern : Option (List Byte) := match f.inj with
              | (issued, bs) :: _ => if 2 * (issued.toNat + 2) + 2 ≤ d.edge then some bs else none
              | [] => none
            let forced (c : Nat) : BitVec 2 := match pattern with
              | some bs => BitVec.ofNat 2 ((bs.getD (c / 4) 0).toNat / 4 ^ (c % 4))
              | none => 0
            let sum (c : Nat) : Int := (f.cell c).y.toInt + ((f.cell c).dy.toList.map fun i =>
              i.gain.toInt * 2 ^ i.shift.toNat * (s.source [u] u i.src).v).sum
            let exceeds (c : Nat) : Prop := c < 256 ∧ (2 ^ 24 < sum c ∨ sum c < -2 ^ 24)
            let fault : Prop := d.policy = false ∧ ∃ c < 256, exceeds c
            let steps (t : State) : Prop :=
              let g := (t.tile u).fab
              (∀ c < 256,
                let old := f.cell c
                let v := (s.source [u] u old.dx).v
                let tr : Int := (old.res.toNat : Int) + v * old.y.toInt
                (g.cell c).y.toInt = max (-2 ^ 24) (min (2 ^ 24) (sum c))
                  ∧ (v ≠ 0 → (g.cell c).res.toInt % 2 ^ 24 = tr % 2 ^ 24) ∧ (v = 0 → (g.cell c).res = old.res)
                  ∧ outInt (g.cell c).out
                      = (if forced c ≠ 0 then outInt (forced c) else if v = 0 then 0 else outInt (outCode (tr / 2 ^ 24)))
                  ∧ (g.cell c).dx = old.dx ∧ (g.cell c).dy = old.dy)
                ∧ (∀ n < 32, g.count n
                    = f.count n + BitVec.ofInt 32 (outInt (g.cell (f.mapByte (32 + n)).toNat).out))
                ∧ g.stepn = f.stepn + 1 ∧ g.inj = (if pattern.isSome then f.inj.drop 1 else f.inj)
                ∧ (g.flt = true ↔ f.flt = true ∨ fault)
                ∧ (g.sat = true ↔ f.sat = true ∨ (d.policy = true ∧ ∃ c < 256, exceeds c))
                ∧ (∀ c < 256, exceeds c → (∀ j < c, ¬exceeds j) → g.ovcell = BitVec.ofNat 8 c)
                ∧ ((∀ c < 256, ¬exceeds c) → g.ovcell = f.ovcell)
                ∧ g = { f with cells := g.cells, counts := g.counts, stepn := g.stepn, xdom := g.xdom, badsrc := g.badsrc,
                               inj := g.inj, flt := g.flt, sat := g.sat, ovcell := g.ovcell }
                ∧ ((t.domain (2 ^ 20 + u)).stop = true ↔ fault ∨ (budget ≠ 0 ∧ budget ≤ (f.stepn + 1).toNat) ∨ s.stopped u = true
                    ∨ ∃ h, d.halt = some h ∧ 2 * (h.toNat + 2) + 2 ≤ edge)
                ∧ t.domain (2 ^ 20 + u)
                    = { d with edge := edge, half := d.nextHalf s.time, stop := (t.domain (2 ^ 20 + u)).stop }
            (¬fault → Completes (.fabricStep u) s fun t =>
                steps t ∧ OneTile u { x with fab := (t.tile u).fab } s t ∧ SameBut [.tiles, .domains] s t)
              ∧ ∀ a, fault → f.armed = some a →
                let record (e : Word) (named : Bool) (t : State) : Prop := OnePacket s.serial
                  (newPacket (tileNode u) (s.islandNode u.ret (tileNode u)) 5 2 (s.stampOf (tileNode u / 4096) false) false
                    (.trapRec { slotRecord u (if named then a.slot else 0) 0x0A a.epc e false with noSlot := !named })) s t
                let rest (t : State) : Prop := SameBut [.tiles, .domains, .packets, .routers, .serial, .progress] s t
                ((s.slot u a.slot).act = a.act → bit x.trapctl 0 = false → x.dbgActive = false →
                    ((s.slot u a.slot).state = .ready ∧ (s.slot u a.slot).ctx.wait = .none)
                      ∨ ((s.slot u a.slot).state = .waiting ∧ ∃ w r e, (s.slot u a.slot).ctx.wait = .issued .dwait w r e) →
                    Completes (.fabricStep u) s fun t =>
                      let e : Word := BitVec.ofNat 64 (t.tile u).fab.ovcell.toNat
                      steps t ∧ record e true t ∧ rest t
                        ∧ OneTile u (Tile.onSlot { x with fab := (t.tile u).fab } a.slot fun y =>
                            { y.dwaited with state := .parked, cause := 0x0A, epc := a.epc, eval := e }) s t)
                  ∧ ((s.slot u a.slot).act ≠ a.act → Completes (.fabricStep u) s fun t =>
                      steps t ∧ record (BitVec.ofNat 64 (t.tile u).fab.ovcell.toNat) false t ∧ rest t
                        ∧ OneTile u { x with fab := (t.tile u).fab } s t))
        ∧ (d.started = true → d.stop = true → d.held = none → s.stopped u = false → Completes (.domainHalt u) s fun t =>
            t.domain (2 ^ 20 + u) = { d with run := none, started := false, halt := none, stop := false }
              ∧ (t.tile u).fab = { f with state := 0, was := 0 } ∧ (∀ j, t.slot u j = (s.slot u j).dwaited)
              ∧ OneTile u { x with fab := (t.tile u).fab, slots := (t.tile u).slots } s t
              ∧ SameBut [.tiles, .domains, .progress] s t)

/-! ## The stream engine (R257 to R269) -/

/-- A transfer command that passes the checks of R264 takes the next entry of its tile's engine. `TREC` writes a record
under the next generation and gives its handle, `TRINV` invalidates one, `SFENCE` waits for the engine. -/
def Obligations.StreamIssue : Prop :=
  ∀ (s : State) (u : TileName) (k : BitVec 2), s.cur = .slot u k →
    let x := s.tile u
    (∀ (i : Instr) acq d a b src dst, TransferOk u k i acq d a b src dst s → x.outst = 0 → x.fails = 0 →
        (s.bulk u.ret).gate ≠ 2 → x.sq.length < 16 → Completes i s fun t =>
          OneTile u (Tile.passed { x with sq := x.sq ++ [transfer u k i acq d a b src dst s] } k s.len) s t
            ∧ SameBut [.tiles, .serial] s t)
      ∧ (∀ d a, let n := (s.rd a).toNat % 64
          let gen := ((x.recs.get TRec.reset n).gen.toNat + 1) % 2 ^ 24
          let r : TRec := { w0 := s.erd 0, w1 := s.erd 1, w2 := s.erd 2, w3 := s.erd 3,
                            gen := BitVec.ofNat 24 (if gen = 0 then 1 else gen), valid := true }
          (s.erd 0).toNat % 8 = 0 → (s.erd 2).toNat % 8 = 0 → (s.erd 2).toNat / 2 ^ 32 % 8 = 0 → (s.erd 3).toNat % 8 = 0 →
          r.rowBits % 64 = 0 → r.bytes < 2 ^ 32 → Completes (.trec d a) s fun t =>
            OneTile u (Tile.passedWith { x with recs := x.recs.put n r } k s.len d (BitVec.ofNat 64 (n + r.gen.toNat * 2 ^ 8))) s t
              ∧ SameBut [.tiles] s t)
      ∧ (∀ a, let n := (s.rd a).toNat % 64
          let r := x.recs.get TRec.reset n
          let gen := (r.gen.toNat + 1) % 2 ^ 24
          Completes (.trinv a) s fun t =>
            let r' : TRec := { r with gen := BitVec.ofNat 24 (if gen = 0 then 1 else gen), valid := false }
            OneTile u (Tile.passed { x with recs := x.recs.put n r' } k s.len) s t
              ∧ SameBut [.tiles] s t)
      ∧ (x.sq = [] → Completes .sfence s (Passes s))
      ∧ (x.sq ≠ [] → Completes .sfence s fun t =>
          OneTile u (x.waits k s.len (.older .stream s.serial) s.issueTime) s t ∧ SameBut [.tiles] s t)

/-- A command between two ranges of own tile scratch, each within 256 bytes of its line, copies them when it starts; a
finished command raises its counter by its byte count, with its ENGINE bits, and frees its entry. -/
def Obligations.StreamWork : Prop :=
  ∀ (s : State) (u : TileName) (c : SCmd), (s.tile u).sq = [c] → isListed c.instr = false → isMcast c.instr = false →
    c.recSrc = none → c.recDst = none → MemCanonical s → s.streamHeld u c.id = false →
    (∀ src dst, c.started = false → c.pos = 0 → c.chunks = [] → c.after = [] → s.storeAhead u c.id = false →
        c.a.toNat = src → c.d.toNat = dst → 0 < c.total → src % 256 + c.total ≤ 256 → dst % 256 + c.total ≤ 256 →
        src + c.total ≤ 0x28000 → dst + c.total ≤ 0x28000 → s.codeLocked u dst c.total = false →
        s.eccBad (scratchKey u src) c.total = false → s.eccBad (scratchKey u dst) c.total = false →
        Completes (.streamCommandStart u) s fun t =>
          (∀ j < c.total, t.mem.read (scratchKey u dst + j) = s.mem.read (scratchKey u src + j))
            ∧ SameBytes (scratchKey u dst) c.total s t
            ∧ OneTile u { s.tile u with sq := [{ c with started := true, entries := [], order := [], pos := c.total }] } s t
            ∧ SameBut [.mem, .ecc, .tiles, .serial] s t)
      ∧ (∀ off, c.started = true → c.total ≤ c.pos → c.chunks = [] → c.checks = 0 → c.addsLeft = none → c.b.toNat = off →
          u < 2 ^ 19 → off % 16 = 0 → off + 16 ≤ 0x28000 → s.eccBad (scratchKey u off) 16 = false → c.total < 2 ^ 64 →
          unwatched u (scratchKey u off) s = true → unwaited u (scratchKey u off) s = true →
          Completes (.streamCounterAdd u) s fun t =>
            let key := scratchKey u off
            let v := (s.mem.word key).toNat
            (t.mem.word key).toNat = min (v + c.total) (2 ^ 64 - 1)
              ∧ t.mem.word (key + 8) = s.mem.word (key + 8) ||| BitVec.ofNat 64 (c.engine.toNat * 2 ^ 8)
                  ||| (if 2 ^ 64 ≤ v + c.total then 1 else 0)
              ∧ SameBytes key 16 s t ∧ OneTile u { s.tile u with sq := [] } s t ∧ SameBut [.mem, .tiles] s t)

/-! ## What arrives at a tile (R94, R98, R126, R138 to R141, R156, R158, R167, R169, R266, R295) -/

/-- The answers to an activation's requests: load data reach their register, an acknowledgement frees its place, a
wake and a timeout end a wait, a check result counts. A timeout comes only after the cycles of its operand have gone
by, also where the wait has not yet been able to compare, and a wake within them writes 1 (log entry 46). -/
def Obligations.AnswersArrive : Prop :=
  ∀ (s : State) (p : Nat) (k : Packet) (u : TileName) (j : BitVec 2) (act : Nat) (r : Req),
    let w := r.who
    let x := s.tile u
    let c := (s.slot u j).ctx
    let now := (s.bulk u.ret).timer
    let closed (c : Ctx) : Ctx := { c with out := c.out.filter fun o => o.id ≠ w.rid }
    let becomes (x' : Tile) (ps : List Part) (t : State) : Prop :=
      OneTile u x' s t ∧ NoPacket p s t ∧ SameBut ([.tiles, .packets] ++ ps) s t
    let off (x : Tile) : Tile := { x with offTile := x.offTile.filter fun n => n ≠ w.rid }
    Arrived p k s → w.origin = .slot u j act → (s.slot u j).act = act → (s.slot u j).state ≠ .free →
      (s.slot u j).state ≠ .migrated →
      (∀ n sg bs q, k.body = .reply r (.data bs) → r.acc = .load n sg → bs.length = n → 0 < n →
          c.pend.find? (fun y => y.id = w.rid) = some q → Completes (.loadResponse p) s
            (becomes ((off x).onSlot j fun y =>
              { y with ctx := closed { c.set q.reg (loadedValue sg bs) with pend := c.pend.filter fun z => z.id ≠ w.rid } }) []))
        ∧ (∀ n bs, k.body = .reply r .done → r.acc = .store n bs → Completes (.offTileAck p) s
            (becomes ((off x).onSlot j fun y => { y with ctx := closed c }) []))
        ∧ (∀ id flag, k.body = .wake w id → c.wait = .remote w.rid flag → (s.slot u j).state = .waiting →
            Completes (.wakeArrival p) s (becomes ((off x).onSlot j fun y =>
              { y with state := .ready,
                       ctx := closed { (match flag with
                                | some d => c.set d.1 (if now.toNat ≤ d.2.toNat then 1 else 0)
                                | none => c) with wait := .none } }) [.progress]))
        ∧ (∀ key target d due, c.wait = .counter key target (some (d, due)) → (s.slot u j).state = .waiting →
            (now.toNat ≤ due.toNat → Completes (.cwaittTimeout (.slot u j)) s fun t => t = s)
              ∧ (due.toNat < now.toNat → Completes (.cwaittTimeout (.slot u j)) s fun t =>
                OneTile u (x.onSlot j fun y => { y with state := .ready, ctx := { c.set d 0 with wait := .none } }) s t
                  ∧ SameBut [.tiles, .progress] s t))
        ∧ (∀ d a b iw regs eregs at', c.wait = .issued (.cwaitt d a b) iw regs eregs → c.issuedAt = some at' →
            (s.slot u j).state = .waiting →
            let timeout := (eregs[0]).toNat % 2 ^ 32
            (timeout = 0 ∨ (now - at').toNat ≤ timeout → Completes (.cwaittTimeout (.slot u j)) s fun t => t = s)
              ∧ (timeout ≠ 0 → timeout < (now - at').toNat → Completes (.cwaittTimeout (.slot u j)) s fun t =>
                OneTile u (x.onSlot j fun y => { y with state := .ready, ctx := { c.set d 0 with wait := .none } }) s t
                  ∧ SameBut [.tiles, .progress] s t))
        ∧ (∀ ok, k.body = .mac (.slot u j act) ok → Completes (.macResultArrival p) s
            (becomes { x with outst := x.outst - 1,
                              fails := if ok then x.fails else BitVec.ofNat 16 (min 0xFFFF (x.fails.toNat + 1)) } []))

/-- What fails away from its slot traps late: a refusal of a gate takes `GATE` with the address, one of locked code
`PRIV` with the instruction word, a discarded message `QUEUE_ERR` with its queue, a refused lane value `GATE` with the
neighbour's name, and is logged by the gate. The refusal itself is gone. The last bytes of a message that has an entry
are written into it, padded with zeros, and it is there from now on; one without an entry goes back as a refusal. A
lane value joins the facing mailbox, behind every older one of its lane. The data of a stream chunk are written at its
destination. What EVAL holds after a gate's refusal, and what a refused answer does, are the model's readings (log
entries 47, 48). -/
def Obligations.RefusalsAndData : Prop :=
  (∀ (s : State) (u : TileName) (j : BitVec 2) (act : Nat), Quiet u j act s →
    (∀ p k, Arrived p k s →
        (∀ r e, k.body = .reply r (.gate e) → r.who.origin = .slot u j act → r.counted = false →
            Completes (.gateRefusal p) s fun t =>
              t.packets.find? p = none ∧ TrapsLate u j .gate r.who.epc e s t)
          ∧ (∀ r, k.body = .reply r .codeRefused → r.who.origin = .slot u j act → Completes (.codeStoreRefusal p) s fun t =>
              t.packets.find? p = none ∧ TrapsLate u j .priv r.who.epc r.who.iw s t)
          ∧ (∀ w q, k.body = .msgRefused w q → w.origin = .slot u j act → Completes (.messageRefusal p) s fun t =>
              t.packets.find? p = none ∧ TrapsLate u j .queueErr w.epc (BitVec.ofNat 64 q.toNat) s t))
      ∧ (∀ n l, s.lanes.find? n = some l → s.lanePasses l = false → s.laneBehind n l = false → l.who.origin = .slot u j act →
          Completes (.laneGateRefusal n) s fun t =>
            t.lanes.find? n = none ∧ (∀ m, m ≠ n → t.lanes.find? m = s.lanes.find? m)
              ∧ (t.slot u j).state = .parked ∧ (t.slot u j).cause = 0x03 ∧ (t.slot u j).epc = l.who.epc
              ∧ (t.slot u j).eval = BitVec.ofNat 64 (2 ^ 60 + l.dst * 2 ^ 24)
              ∧ (let b := TileName.ret l.src
                 OneIsland b { s.island b with gateLog := (s.island b).gateLog + 1,
                                               gateAddr := BitVec.ofNat 64 (2 ^ 60 + l.dst * 2 ^ 24) } s t)
              ∧ SameBut [.tiles, .islands, .lanes, .packets, .routers, .serial] s t))
    ∧ (∀ (s : State) (p : Nat) (k : Packet),
    (∀ m i, Arrived p k s → k.body = .msg m → k.entry = some i → MemCanonical s → Completes (.messageArrival p) s fun t =>
        let q := (s.tile m.dest).queue m.q
        let bytes := 64 * 2 ^ q.esize.toNat
        let key := scratchKey m.dest (q.base.toNat + bytes * i)
        let o := 32 * ((m.len + 31) / 32 - 1)
        (∀ n < bytes, o ≤ n → t.mem.read (key + n) = m.payload.getD n 0) ∧ SameBytes (key + o) (bytes - o) s t
          ∧ OneTile m.dest ((s.tile m.dest).setQueue m.q
              (q.setEntry i { q.entry i with here := true, order := (s.bulk (TileName.ret m.dest)).timer.toNat })) s t
          ∧ NoPacket p s t ∧ SameBut [.mem, .tiles, .packets] s t)
      ∧ (∀ m w, Arrived p k s → k.body = .msg m → k.entry = none → m.wake = false → m.who = some w →
          Completes (.messageArrival p) s fun t =>
            t.packets.find? p = none
              ∧ t.packets.find? s.serial = some (newPacket k.dst k.src 5 1 k.stamp false (.msgRefused w m.q))
              ∧ SameBut [.packets, .routers, .serial] s t)
      ∧ (∀ l, s.lanes.find? p = some l → l.src.ret = l.dst.ret → s.laneBehind p l = false →
          Completes (.fwdValueArrival p) s fun t =>
          t.lanes.find? p = none ∧ (∀ m, m ≠ p → t.lanes.find? m = s.lanes.find? m)
            ∧ OneTile l.dst ((s.tile l.dst).setBox (l.dir + 2) ((s.tile l.dst).box (l.dir + 2) ++ [l.value])) s t
            ∧ SameBut [.tiles, .lanes] s t)
      ∧ (∀ u c ch r bs n off, Arrived p k s → k.body = .reply r (.data bs) → r.acc = .sread n → bs.length = n → 0 < n →
          r.who.origin = .stream u c.id ch.id → (s.tile u).sq = [c] → c.chunks = [ch] → c.total ≤ c.pos → ch.len = n →
          ch.dst.toNat = off → off + n ≤ 0x28000 → s.eccBad (scratchKey u off) n = false → MemCanonical s →
          Completes (.streamReadResponse p) s fun t =>
            (∀ i < n, t.mem.read (scratchKey u off + i) = bs.getD i 0) ∧ SameBytes (scratchKey u off) n s t
              ∧ OneTile u { s.tile u with sq := [{ c with chunks := [] }] } s t
              ∧ NoPacket p s t ∧ SameBut [.mem, .ecc, .tiles, .packets] s t))

/-! ## Requests at the home of tile scratch (R82, R93, R157, R162, R266) -/

/-- A request that has reached the tile whose scratch it names, with no earlier one of its party to the same bytes on
its way, is performed there and answered: loads, stores, counter adds and reads, reductions, stream writes. -/
def Obligations.RequestsAtHome : Prop :=
  ∀ (s : State) (p : Nat) (k : Packet) (r : Req) (u : TileName) (off : Nat), Arrived p k s → k.body = .req r → r.also = [] →
    r.addr.toNat = 2 ^ 60 + u * 2 ^ 24 + off → u < 2 ^ 19 → s.tileExists u = true → MemCanonical s →
    s.behindOwn p k r = false →
    (k.windowed ≠ none → (∀ y ∈ s.watches, y.kind ≠ .wake r.who) ∧ ∀ y ∈ s.packets, ∀ i, y.2.body ≠ .wake r.who i) →
    let key := scratchKey u off
    (∀ n sg, r.acc = .load n sg → off + n ≤ 0x28000 → s.eccBad key n = false → Completes (.remoteAccessAtHome p) s
        (Answers p k r (.data (s.mem.readN key n)) [] s))
      ∧ (∀ n bs, r.acc = .store n (indexed bs) → bs.length = n → off + n ≤ 0x28000 → s.eccBad key n = false →
          s.codeLocked u off n = false → Completes (.remoteAccessAtHome p) s fun t =>
            (∀ i < n, t.mem.read (key + i) = bs.getD i 0) ∧ SameBytes key n s t ∧ Answers p k r .done [.mem, .ecc] s t)
      ∧ (∀ n bs, r.acc = .swrite n (indexed bs) → bs.length = n → off + n ≤ 0x28000 → s.eccBad key n = false →
          s.codeLocked u off n = false → Completes (.streamWriteAtHome p) s fun t =>
            (∀ i < n, t.mem.read (key + i) = bs.getD i 0) ∧ SameBytes key n s t ∧ Answers p k r .done [.mem, .ecc] s t)
      ∧ (∀ n bs, r.acc = .store n bs → off + n ≤ 0x28000 → s.codeLocked u off n = true →
          Completes (.remoteAccessAtHome p) s (Answers p k r .codeRefused [] s))
      ∧ (off % 16 = 0 → off + 16 ≤ 0x28000 → s.eccBad key 16 = false → unwatched u key s = true → unwaited u key s = true →
          (∀ n, r.acc = .cadd n 0 → Completes (.counterRequestAtHome p) s fun t =>
              Counted key n.toNat s t ∧ Answers p k r .done [.mem] s t)
            ∧ (∀ n, r.acc = .caddf n → Completes (.counterRequestAtHome p) s fun t =>
              Counted key n.toNat s t ∧ Answers p k r (.value (s.mem.word key)) [.mem] s t)
            ∧ (r.acc = .cread → Completes (.counterRequestAtHome p) s (Answers p k r (.value (s.mem.word key)) [] s)))
      ∧ ∀ op mod b, r.acc = .red op mod b →
          let n := if op = .addf ∨ mod ≠ 0 then 4 else 8
          off % n = 0 → off + n ≤ 0x28000 → s.eccBad key n = false → Completes (.reductionAtHome p) s fun t =>
            ofBytes (t.mem.readN key n)
                = reductionRule op mod (ofBytes (s.mem.readN key n)) (b.toNat % 2 ^ (8 * n)) % 2 ^ (8 * n)
              ∧ SameBytes key n s t ∧ Answers p k r .done [.mem] s t

/-! ## Activations (R21, R27 to R31, R38, R165, R173, R174, R182) -/

/-- R28: what the registers hold at the first instruction of an activation, and the state of the slot and of the entry
that fired; every other slot is as it was. That the lowest-numbered FREE slot is taken is the model's choice (log entry
136). -/
def Obligations.ActivationFires : Prop :=
  ∀ (s : State) (u : TileName) (k : BitVec 2) (qn : QNum) (i n : Nat) (b : Binding), (s.tile u).pre = 0 →
    (s.bulk u.ret).failed = false → bit (s.tile u).trapctl 1 = false → (s.slot u k).state = .free →
    (∀ j, j < k → (s.slot u j).state ≠ .free) → (s.tile u).fires = some (qn, i, n) → (s.tile u).bindings[n]? = some b →
    let q := (s.tile u).queue qn
    let e := q.entry i
    Completes (.activationFiring u) s fun t =>
      let x := t.slot u k
      (∀ r : Reg, x.ctx.get r = if r = 2 then BitVec.ofNat 64 (q.base.toNat + 64 * 2 ^ q.esize.toNat * i)
          else if r = 3 then BitVec.ofNat 64 e.tag.toNat else if r = 4 then BitVec.ofNat 64 e.len.toNat
          else if r = 5 then senderId e else 0)
        ∧ (∀ r : EReg, x.ctx.eget r = 0) ∧ x.ctx.pc = b.entry &&& ~~~1#64 ∧ x.ctx.loop0 = 0 ∧ x.ctx.loop1 = 0
        ∧ x.state = .ready ∧ x.shared = false ∧ x.queue = qn ∧ x.tag = e.tag ∧ x.binding = BitVec.ofNat 5 n
        ∧ x.share = b.share ∧ x.counter = b.counter ∧ x.cause = 0 ∧ x.act = s.serial
        ∧ (∀ j, j ≠ k → t.slot u j = s.slot u j)
        ∧ ((t.tile u).queue qn).entry i
            = { e with taken := true, passed := true, fired := true, held := true, holder := k }
        ∧ (∀ j, j ≠ i → ((t.tile u).queue qn).entry j = q.entry j)
        ∧ t.tile u = { s.tile u with slots := (t.tile u).slots, queues := (t.tile u).queues }
        ∧ (∀ v, v ≠ u → t.tile v = s.tile v) ∧ t.serial = s.serial + 1 ∧ SameBut [.tiles, .serial, .progress] s t

/-- Further events of tiles: a share add leaves, behind the accesses that it covers and what issued before it on its counter, a wire releases the members that had arrived when the last of them did,
whatever RC_MASK has become since, the group directory answers and the
answer ends a wait, an activation moves to a core and back, a system call reaches its island, and a work entry
its list. At a boundary of its interval an eligible tile ships half the difference to its least-loaded eligible
neighbour, at most its limit, the newest entries first taken, each in a packet of its own (R271). Where a
migrated activation is placed, when its core is free and when an interval ends are the model's readings (log
entries 21, 59, 60). -/
def Obligations.TileEvents : Prop :=
  (∀ (s : State) (u : TileName) (p : Nat) (k : Packet),
    let x := s.tile u
    (∀ a off, x.shareAdds = [a] → a.after = [] → x.offTile = [] → a.counter.toNat = off → a.status = 0 → u < 2 ^ 19 →
        off % 16 = 0 → off + 16 ≤ 0x28000 → s.eccBad (scratchKey u off) 16 = false → MemCanonical s →
        unwatched u (scratchKey u off) s = true → unwaited u (scratchKey u off) s = true → s.shareBehind u a = false →
        Completes (.shareAddDeparture u 0) s fun t =>
          Counted (scratchKey u off) a.share.toNat s t ∧ OneTile u { x with shareAdds := [] } s t ∧ SameBut [.mem, .tiles] s t)
      ∧ (∀ a, x.shareAdds = [a] → (∃ n ∈ a.after, s.accessOpen u n = true) ∨ s.shareBehind u a = true →
          Completes (.shareAddDeparture u 0) s fun t => t = s)
      ∧ (∀ b col i, s.wires.find? (128 * b + 64 * num col + i) = none → Completes (.wireRelease b col i) s fun t => t = s)
      ∧ (∀ b col i j, s.wires.find? (128 * b + 64 * num col + i) = some [u] →
          s.wireMembers b col i = [] ∨ u ∈ s.wireMembers b col i → (s.slot u j).state = .waiting →
          (s.slot u j).ctx.wait = (if col then .wire false true else .wire true false) →
          (∀ n, (s.slot u n).state ≠ .migrated) → (∀ n, n ≠ j → ∀ row c, (s.slot u n).ctx.wait ≠ .wire row c) →
          Completes (.wireRelease b col i) s fun t =>
            OneTile u ({ x with arrived := x.arrived &&& (if col then 1 else 2) }.onSlot j fun y =>
              { y with state := .ready, ctx := { y.ctx with wait := .none } }) s t
              ∧ (∀ w, t.wires.find? w = if w = 128 * b + 64 * num col + i then none else s.wires.find? w)
              ∧ SameBut [.tiles, .wires, .progress] s t)
      ∧ (∀ g ag act, Arrived p k s → k.body = .group u g true ag act →
          let key := 256 * (s.bulk (TileName.ret u)).region.toNat + g.toNat
          Completes (.groupDirectoryRequest p) s fun t =>
            u ∈ t.groups.get [] key ∧ (∀ v, v ≠ u → (v ∈ t.groups.get [] key ↔ v ∈ s.groups.get [] key))
              ∧ (∀ j, j ≠ key → t.groups.get [] j = s.groups.get [] j)
              ∧ t.packets.find? p = none ∧ t.packets.find? s.serial
                  = some (newPacket k.dst (agentNode ag) 1 1 k.stamp false (.groupAck u g true ag act))
              ∧ SameBut [.groups, .packets, .routers, .serial] s t)
      ∧ (∀ g ag act, Arrived p k s → k.body = .group u g false ag act →
          let key := 256 * (s.bulk (TileName.ret u)).region.toNat + g.toNat
          Completes (.groupDirectoryRequest p) s fun t =>
            u ∉ t.groups.get [] key ∧ (∀ v, v ≠ u → (v ∈ t.groups.get [] key ↔ v ∈ s.groups.get [] key))
              ∧ t.packets.find? p = none ∧ t.packets.find? s.serial
                  = some (newPacket k.dst (agentNode ag) 1 1 k.stamp false (.groupAck u g false ag act))
              ∧ SameBut [.groups, .packets, .routers, .serial] s t)
      ∧ (∀ g join j act, Arrived p k s → k.body = .groupAck u g join (.slot u j) act → (s.slot u j).act = act →
          (s.slot u j).state = .waiting → (s.slot u j).ctx.wait = .group → Completes (.groupAckArrival p) s fun t =>
            ((join = true → x.groups.length < 16 → ∀ h, h ∈ (t.tile u).groups ↔ h = g ∨ h ∈ x.groups)
                ∧ (join = false → ∀ h, h ∈ (t.tile u).groups ↔ h ≠ g ∧ h ∈ x.groups))
              ∧ OneTile u ({ x with groupIds := (t.tile u).groupIds, groupMask := (t.tile u).groupMask }.onSlot j fun y =>
              { y with state := .ready, ctx := { y.ctx with wait := .none } }) s t
              ∧ NoPacket p s t ∧ SameBut [.tiles, .packets, .progress] s t)
      ∧ (∀ (m : MigImage) (c : BitVec 3), Arrived p k s → k.body = .migrate m →
          let b := k.dst / 4096
          (s.core b c).home = none → (s.core b c).running = false → (s.core b c).h = false →
          Completes (.migratedActivationPlacement p c) s fun t =>
            let y := t.core b c
            y.h = false ∧ y.running = true ∧ y.home = some (m.tile, m.slot, m.act) ∧ y.ctx.regs = m.regs
              ∧ y.ctx.eregs = m.eregs ∧ y.ctx.pc = m.pc ∧ y.ctx.loop0 = m.loop0 ∧ y.ctx.loop1 = m.loop1
              ∧ y.ctx.loopH0 = 0 ∧ y.ctx.loopH1 = 0 ∧ y.ctx.wait = .none ∧ y.ctx.pend = m.pend
              ∧ OneIsland b ((s.island b).setCore c { s.core b c with
                  h := false, running := true, home := y.home, ctx := y.ctx }) s t
              ∧ NoPacket p s t ∧ SameBut [.islands, .packets] s t)
      ∧ (∀ m : MigImage, Arrived p k s → k.body = .migrateBack m → m.tile = u → (s.slot u m.slot).state = .migrated →
          (s.slot u m.slot).act = m.act → Completes (.migrateReturnArrival p) s fun t =>
            OneTile u (x.onSlot m.slot fun y =>
              { y with state := .ready,
                       ctx := { y.ctx with regs := m.regs, eregs := m.eregs, pc := m.pc, loop0 := m.loop0, loop1 := m.loop1,
                                           wait := .none, noEnd := m.noEnd, pend := m.pend } }) s t
              ∧ NoPacket p s t ∧ SameBut [.tiles, .packets] s t)
      ∧ (∀ block token counter, Arrived p k s → k.body = .syscall u block token counter →
          let b := k.dst / 4096
          Completes (.syscallRequestArrival p) s fun t =>
            OneIsland b { s.island b with calls := (s.island b).calls ++ [(u, block, token, counter)] } s t
              ∧ NoPacket p s t ∧ SameBut [.islands, .packets] s t)
      ∧ (x.lvl.edge ≠ (s.bulk (TileName.ret u)).timer → (s.bulk (TileName.ret u)).timer.toNat % x.lvl.interval = 0 → bit x.lvl.ctl 0 = false →
          Completes (.levellingBoundary u) s fun t =>
            OneTile u { x with lvl := { x.lvl with edge := (s.bulk (TileName.ret u)).timer, edgeDepth := x.lvl.depth } } s t
              ∧ SameBut [.tiles] s t)
      ∧ ∀ v bs, Arrived p k s → k.body = .level v u bs → bs.length = 32 → x.listFull = false → MemCanonical s →
          Completes (.levellingEntryArrival p) s fun t =>
            let key := scratchKey u (x.lvl.base + 32 * ((x.lvl.head + x.lvl.depth) % x.lvl.size))
            (∀ i < 32, t.mem.read (key + i) = bs.getD i 0) ∧ SameBytes key 32 s t
              ∧ OneTile u { x with lvl := { x.lvl with depth := x.lvl.depth + 1, received := x.lvl.received + 1 } } s t
              ∧ NoPacket p s t ∧ SameBut [.mem, .tiles, .packets] s t)
    ∧ (∀ (s : State) (u v : TileName) (d m : Nat),
    let x := s.tile u
    let now := (s.bulk u.ret).timer
    now.toNat % x.lvl.interval = 0 → x.lvl.edge ≠ now → x.balances = true → x.outst = 0 → x.fails = 0 →
    (s.bulk u.ret).gate ≠ 2 → x.lvl.depth = d →
    s.leastLoaded u (s.levelNeighbours u) none = some v → s.depthSeen u v = m → m + 2 ≤ d →
    let n := min (min ((d - m) / 2) x.lvl.maxShip) (((s.tile v).lvl.size - m) / 4)
    Completes (.levellingBoundary u) s fun t =>
      (t.tile u).lvl = { x.lvl with edge := now, edgeDepth := d, depth := d - n,
                                    shipped := x.lvl.shipped + BitVec.ofNat 16 n }
        ∧ (∀ i < n, t.packets.find? (s.serial + i) = some
            (newPacket (tileNode u) (tileNode v) 3 1 (s.bulk u.ret).region.toNat false
              (.level u v (s.mem.readN
                (scratchKey u (x.lvl.base + 32 * ((x.lvl.head + d - n + i) % x.lvl.size))) 32))))
        ∧ (∀ i < s.serial, t.packets.find? i = s.packets.find? i)
        ∧ t.tile u = { x with lvl := (t.tile u).lvl } ∧ (∀ w, w ≠ u → t.tile w = s.tile w)
        ∧ SameBut [.tiles, .packets, .routers, .serial] s t)
/-! ## Network and stations (R77, R280 to R283, R292, R294, R295, R309 to R315, R318, R319, R331) -/

/-- A flit that alone wants an output port crosses it: it leaves its buffer, joins the next one or is delivered, its
port holds its VC until the packet's tail, one unit of the VC's budget is spent; a message's body flit is written into
its entry as it reaches the tile; a payload for a link joins its port, and one from a link reaches the registrar; a CLOSED
gate refuses a packet by its header and logs it, and the flits behind the header are discarded there. A buffer whose age
equals the limit is promoted. A router's choices and where a gate acts are the model's (log entries 43, 44, 45). -/
def Obligations.NetworkForwards : Prop :=
  (∀ (s : State) (node port i vc a : Nat) (sv : Bool) (f : Flit) (rest : List Flit) (k : Packet),
    let r := s.router node
    let o := r.out port
    let served (t : State) : Prop :=
      (t.router node).buf i vc = { flits := rest, behind := [], age := if f.last then 0 else a, promoted := false,
                                   served := !f.last }
        ∧ (t.router node).out port =
            { o with hold := o.hold.setIfInBounds vc (if f.last then none else some f.pkt),
                     lastIn := if f.idx = 0 then o.lastIn.setIfInBounds vc i else o.lastIn,
                     budget := o.budget.setIfInBounds vc (o.budgetAt vc - 1), ptr := vc }
    let limit := (s.island (node / 4096)).ageLimit
    r.ins = [(8 * i + vc, { flits := f :: rest, behind := [], age := a, promoted := false, served := sv })] →
    limit = 0 ∨ a ≠ limit → i < 5 → vc < 8 →
    (s.bulk (node / 4096)).failed = false → s.packets.find? f.pkt = some k → s.portFor node k.dst = port →
    o.holder vc = (if f.idx = 0 then none else some f.pkt) → o.budgetAt vc ≠ 0 →
      (∀ m j, s.nextNode node port k.dst = some (m, j) → m ≠ node → ((s.router m).buf j vc).flits.length < 4 →
          (isGateway node = true → port = 0 → k.stamp = 63
            ∨ ((s.bulk (node / 4096)).gate ≠ 0 ∧ (s.bulk (m / 4096)).gate ≠ 0
                ∧ (f.idx ≠ 0 ∨ ((s.bulk (m / 4096)).region ≠ 0 ∧ k.stamp = (s.bulk (m / 4096)).region.toNat)))) →
          k.body ≠ .dropped → Completes (.flitForward node port false) s fun t =>
            served t ∧ (t.router m).buf j vc = { (s.router m).buf j vc with flits := ((s.router m).buf j vc).flits ++ [f] }
              ∧ (∀ n, n ≠ node → n ≠ m → t.router n = s.router n) ∧ SameBut [.routers, .progress] s t)
        ∧ (s.nextNode node port k.dst = none → (∀ m, k.body ≠ .msg m) →
            (∀ q n bs, k.body ≠ .linkOut q n bs ∧ k.body ≠ .linkIn q n bs) → k.body ≠ .dropped →
            (f.idx ≠ 0 ∨ s.accepts f.pkt k = true) → Completes (.flitForward node port false) s fun t =>
              served t
                ∧ OnePacket f.pkt { k with got := f.idx + 1, place := if f.last then .arrived else k.place,
                                           order := if f.last then s.serial else k.order } s t
                ∧ t.serial = (if f.last then s.serial + 1 else s.serial)
                ∧ (∀ n, n ≠ node → t.router n = s.router n) ∧ SameBut [.routers, .packets, .serial, .progress] s t)
        ∧ (∀ m e, s.nextNode node port k.dst = none → k.body = .msg m → k.entry = some e → f.idx ≠ 0 → f.last = false →
            MemCanonical s → Completes (.flitForward node port false) s fun t =>
              let q := (s.tile m.dest).queue m.q
              let o := 32 * (f.idx - 1)
              let key := scratchKey m.dest (q.base.toNat + 64 * 2 ^ q.esize.toNat * e + o)
              served t ∧ (∀ n < 32, o + n < m.payload.length → t.mem.read (key + n) = m.payload.getD (o + n) 0)
                ∧ SameBytes key 32 s t ∧ OnePacket f.pkt { k with got := f.idx + 1 } s t
                ∧ SameBut [.mem, .routers, .packets, .progress] s t)
        ∧ (∀ m j, s.nextNode node port k.dst = some (m, j) → ((s.router m).buf j vc).flits.length < 4 → isGateway node = true →
            port = 0 → f.idx = 0 → k.body ≠ .dropped → k.stamp ≠ 63 → (s.bulk (node / 4096)).gate = 0 → f.pkt < s.serial →
            Completes (.flitForward node port false) s fun t =>
              let b := node / 4096
              t.packets.find? f.pkt = (if k.flits ≤ 1 then none else some { k with body := .dropped })
                ∧ OneIsland b { s.island b with gateLog := (s.island b).gateLog + 1, gateAddr := k.body.dest } s t
                ∧ SameBut [.routers, .packets, .serial, .islands, .progress] s t)
        ∧ (∀ m j, s.nextNode node port k.dst = some (m, j) → isGateway node = true → port = 0 → k.body = .dropped →
            (f.last = false → Completes (.flitForward node port false) s fun t =>
                served t ∧ (∀ n, n ≠ node → t.router n = s.router n) ∧ SameBut [.routers, .progress] s t)
              ∧ (f.last = true → Completes (.flitForward node port false) s fun t =>
                served t ∧ (∀ n, n ≠ node → t.router n = s.router n) ∧ NoPacket f.pkt s t
                  ∧ SameBut [.routers, .packets, .progress] s t))
        ∧ (∀ c q n bs, c < 80 → q < 8 → s.nextNode node port k.dst = none → f.idx ≠ 0 → f.last = true →
            let x := s.port c q
            (k.body = .linkOut (8 * c + q) n bs → x.st ≠ 0 → Completes (.flitForward node port false) s fun t =>
                served t ∧ NoPacket f.pkt s t ∧ SameBut [.ports, .routers, .packets, .progress] s t
                  ∧ OnePort c q { x with txq := x.txq ++ [{ chan := BitVec.ofNat 8 k.vc, len := n, payload := bs, origin := some k }] }
                    { s with routers := t.routers, packets := t.packets, progress := t.progress } t)
              ∧ (k.body = .linkIn (8 * c + q) n bs → Completes (.flitForward node port false) s fun t =>
                served t ∧ NoPacket f.pkt s t ∧ SameBut [.ports, .routers, .packets, .progress] s t
                  ∧ OnePort c q { x with out := x.out ++ [(BitVec.ofNat 8 k.vc, n, bs)] }
                    { s with routers := t.routers, packets := t.packets, progress := t.progress } t)))
    ∧ ∀ (s : State) (node port vc : Nat),
      let b := (s.router node).buf port vc
      let limit := field (s.island (node / 4096)).arbcfg 32 10
      (b.flits ≠ [] → limit ≠ 0 → b.age = limit → Completes (.packetPromotion node port vc) s fun t =>
          (t.router node).buf port vc = { b with promoted := true }
            ∧ (∀ j v, 8 * j + v ≠ 8 * port + vc → (t.router node).buf j v = (s.router node).buf j v)
            ∧ (∀ n, n ≠ node → t.router n = s.router n) ∧ SameBut [.routers] s t)
        ∧ (limit = 0 ∨ b.age ≠ limit → Completes (.packetPromotion node port vc) s fun t => t = s)

/-- What a station does: a range entry translates, an address with bits above 55 stalls with `XLATE`, a miss starts
a walk at PIDTAB; a walk's read goes to the next level or starts again; a whole line from another station is
written and sealed; a page is re-encrypted; an invalidation drops what matches it, restarts the walks that may have met
it, and completes when no request that an entry of its match translated is left; a retried request stands at its station again. What a
station keeps and which checks count are the model's readings (log entries 53 to 57). -/
def Obligations.StationsTranslate : Prop :=
  (∀ (s : State) (p : Nat) (k : Packet) (r : Req),
    let b := k.dst / 4096
    let va := field r.addr 0 56
    let x := s.station b
    (Arrived p k s → k.body = .req r → bit r.addr 63 = true → s.hasStation b = true → r.hLevel = false → r.counted = false →
        k.ranges = none → (∀ c n a, r.who.origin ≠ .core c n a) →
        (∀ n bs key,
            let e := x.range.get 0 0
            let first := field (x.range.get 0 1) 12 44
            let last := field (x.range.get 0 2) 12 44
            let pa := field (x.range.get 0 3) 12 40 * 4096 + va - first * 4096
            r.acc = .store n bs → field r.addr 56 7 = 0 → bit e 0 = true → (bit e 11 = true ∨ field e 16 16 = r.pid.toNat) →
            first ≤ va / 4096 → va / 4096 ≤ last → bit e 3 = true →
            field e 6 2 ≠ 3 → pa < 2 ^ 49 → pa / 2 ^ 42 = b → pa % 2 ^ 42 < 0x17C0000000 →
            s.ksel.find? (8 * s.regionOf b + field e 8 3) = some key → s.token key ≠ 0 →
            Completes (.stationTranslate p) s fun t =>
              OnePacket p { k with body := .treq r pa (BitVec.ofNat 2 (field e 6 2)) key, place := .atHome,
                                   span := some (first * 4096, (last + 1 - first) * 4096) } s t
                ∧ SameBut [.packets] s t)
          ∧ (∀ u j act, field r.addr 56 7 ≠ 0 → r.who.origin = .slot u j act → r.also = [] → Quiet u j act s →
              x.nextXid ≠ 0 → s.xidsAt b = [] → Completes (.stationTranslate p) s fun t =>
                t.packets.find? p = some { k with place := .stalled x.nextXid 1 }
                  ∧ OneStation b { x with nextXid := x.nextXid + 1 } s t
                  ∧ (t.slot u j).state = .parked ∧ (t.slot u j).cause = 0x05 ∧ (t.slot u j).epc = r.who.epc
                  ∧ (t.slot u j).eval = r.addr ∧ (∀ i, i ≠ j → t.slot u i = s.slot u i)
                  ∧ SameBut [.tiles, .stations, .packets, .routers, .serial] s t)
          ∧ (field r.addr 56 7 = 0 → x.rangeHit r.pid va 64 0 = none →
              (∀ l ∈ x.cache, l.h = true ∨ l.pid ≠ r.pid ∨ va < l.va ∨ l.va + 2 ^ l.log ≤ va) → s.walksAt b < 128 →
              s.missAhead b k = false → Completes (.stationTranslate p) s fun t =>
                OnePacket p { k with place := .walking { level := 4, entry := field x.pidtab 0 52 + 8 * r.pid.toNat,
                                                         restart := false } } s t
                  ∧ SameBut [.packets] s t))
      ∧ (∀ w, s.packets.find? p = some k → k.place = .walking w → k.body = .req r → r.hLevel = false →
          (w.restart = true → Completes (.walkRead p) s fun t =>
              OnePacket p { k with place := .walking { level := 4, entry := field x.pidtab 0 52 + 8 * r.pid.toNat,
                                                       restart := false } } s t
                ∧ SameBut [.packets, .progress] s t)
            ∧ (let e := s.mem.word (physKey w.entry)
               w.restart = false → w.level = 4 → w.entry < 2 ^ 51 → isEdgeBulk (paBulk w.entry) = true →
               s.lineOk w.entry (s.token 0) = true → s.eccBad (physKey w.entry) 8 = false → bit e 0 = true →
               Completes (.walkRead p) s fun t =>
                OnePacket p { k with place := .walking { level := 3, restart := false,
                                                         entry := field e 20 32 * 2 ^ 20 + 8 * (va / 2 ^ 39 % 2 ^ 17) } } s t
                  ∧ SameBut [.packets, .progress] s t))
      ∧ (∀ pa ord key bs, Arrived p k s → k.body = .treq r pa ord key → r.also = [] → r.acc = .store 64 (indexed bs) →
          s.behindOwn p k r = false → bs.length = 64 → r.counted = false → pa < 2 ^ 51 → pa % 64 = 0 → (s.seal pa).minor ≠ 127 →
          s.eccBad (physKey pa) 64 = false → MemCanonical s → Completes (.stationForwardedRequest p) s fun t =>
            (∀ i < 64, t.mem.read (physKey pa + i) = bs.getD i 0) ∧ SameBytes (physKey pa) 64 s t
              ∧ t.seals.find? (pa / 64) = some { token := s.token key, ok := true, minor := (s.seal pa).minor + 1 }
              ∧ (∀ l, l ≠ pa / 64 → t.seals.find? l = s.seals.find? l)
              ∧ Answers p k r .done [.mem, .seals, .ecc] s t))
    ∧ (∀ (s : State) (page l : Nat) (e : Seal), s.seals.find? l = some e → l / 64 = page → e.minor = 127 →
        s.majors.get 0 page ≠ 2 ^ 64 - 1 → Completes (.pageReencryption page) s fun t =>
          t.majors.get 0 page = s.majors.get 0 page + 1 ∧ (∀ q, q ≠ page → t.majors.get 0 q = s.majors.get 0 q)
            ∧ (∀ n, t.seals.find? n = (s.seals.find? n).map fun y => if n / 64 = page then { y with minor := 0 } else y)
            ∧ SameBut [.majors, .seals] s t)
    ∧ ∀ (s : State) (b : BulkId),
      let x := s.station b
      let page := field x.invVa 12 44
      let becomes (mode : BitVec 2) (pid : BitVec 16) (hit : BitVec 16 → Nat → Nat → Bool) (t : State) : Prop :=
        OneStation b { x with invMode := mode, invPid := pid, invBusy := true, invWaits := (t.station b).invWaits,
                              cache := x.cache.filter fun l => !hit l.pid l.va (2 ^ l.log) } s t
          ∧ (∀ n, n ∈ (t.station b).invWaits ↔ ∃ k r pa ord key, (n, k) ∈ s.packets ∧ k.body = .treq r pa ord key
              ∧ (k.src / 4096 = b ∨ k.dst / 4096 = b)
              ∧ (let entry := k.span.getD (field r.addr 12 44 * 4096, 4096)
                 hit r.pid entry.1 entry.2 = true))
          ∧ (∀ n k, s.packets.find? n = some k →
              (∀ w r, k.place = .walking w → k.body = .req r → k.dst / 4096 = b →
                  hit r.pid 0 (2 ^ 64) = true →
                  t.packets.find? n = some { k with place := .walking { w with restart := true } })
                ∧ ((∀ w, k.place ≠ .walking w) ∨ k.dst / 4096 ≠ b → t.packets.find? n = some k))
          ∧ SameBut [.stations, .packets] s t
      ((x.invBusy = false ∨ ∀ n ∈ x.invWaits, s.packets.find? n = none) →
          Completes (.stInvRegion b) s (becomes 1 0 fun _ _ _ => true)
            ∧ (∀ pid, Completes (.stInvPid b pid) s (becomes 2 pid fun q _ _ => q == pid))
            ∧ (∀ pid, Completes (.stInvPage b pid) s
                (becomes 3 pid fun q va n => q == pid && decide (va ≤ page * 4096) && decide (page * 4096 < va + n)))
            ∧ Completes (.stInvComplete b) s fun t =>
                OneStation b { x with invBusy := false, invWaits := [] } s t ∧ SameBut [.stations] s t)
        ∧ (∀ n k, x.invBusy = true → n ∈ x.invWaits → s.packets.find? n = some k →
            Completes (.stInvComplete b) s fun t => t = s)
        ∧ ∀ p k xid reason, s.packets.find? p = some k → k.dst / 4096 = b → k.place = .stalled (BitVec.ofNat 16 xid) reason →
            Completes (.xlateRetry b xid) s fun t =>
              t.packets.find? p = some { k with place := .arrived, retried := true, ranges := none }
                ∧ (∀ n y, s.packets.find? n = some y → y.dst / 4096 ≠ b → t.packets.find? n = some y)
                ∧ (t.island b).xretry = true
                ∧ (∀ u j, t.slot u j = { s.slot u j with ctx := { (s.slot u j).ctx with pend := (t.slot u j).ctx.pend } })
                ∧ (∀ u, t.tile u = { s.tile u with slots := (t.tile u).slots })
                ∧ SameBut [.packets, .islands, .tiles] s t

/-! ## Traps at their island, debugging, pre-emption (R100, R322 to R345, R349, R393) -/

/-- A trap record is written at TQTAIL of its island's ring; a window without progress freezes the region; the
scrubber writes a corrected word back and reports an uncorrectable one. The Dean's writes resume, kill and debug
a slot (a kill ends a wait, withdraws its arrival on a wire and frees its watch), stop, save, load and run a tile, cancel a message and write the tile's state. The freeze, the error
counts, the ring's translation, a record that cannot be written yet, the order of the Dean's writes and DEBUGGED by a
write of a loop word are the model's readings (log entries 61 to 67, 70). -/
def Obligations.DeanControlsTiles : Prop :=
  (∀ (s : State) (p : Nat) (k : Packet) (r : TrapRec),
    let x := s.island r.island
    let a := place 63 1 + x.tqbase + BitVec.ofNat 64 (32 * x.tqtail.toNat)
    Arrived p k s → k.body = .trapRec r →
      (x.tqtail + 1 = x.tqhead → Completes (.trapRecordArrival p) s fun t => t = s)
        ∧ (∀ pa, DeanMaps r.island a 32 pa .w s → pa < 2 ^ 49 → isEdgeBulk (paBulk pa) = true →
            pa % 2 ^ 42 < 0x1800000000 → pa % 64 + 32 ≤ 64 → s.lineOk pa (s.token 0) = false →
            Completes (.trapRecordArrival p) s fun t => t = s)
        ∧ ∀ pa, x.tqtail + 1 ≠ x.tqhead → DeanMaps r.island a 32 pa .w s → pa < 2 ^ 49 → isEdgeBulk (paBulk pa) = true →
            pa % 2 ^ 42 < 0x1800000000 → pa % 64 + 32 ≤ 64 → s.lineOk pa (s.token 0) = true → (s.seal pa).minor ≠ 127 →
            s.eccBad (physKey pa) 32 = false → MemCanonical s → Completes (.trapRecordArrival p) s fun t =>
              let m := physKey pa
              t.mem.word m = r.tile ∧ t.mem.word (m + 8) = r.epc ∧ t.mem.word (m + 16) = r.eval
                ∧ t.mem.word (m + 24) = BitVec.ofNat 64 (r.cause.toNat + r.slot.toNat * 2 ^ 8 + num r.noSlot * 2 ^ 10
                    + num r.precise * 2 ^ 11 + num r.late * 2 ^ 12 + num r.step * 2 ^ 13 + num r.away * 2 ^ 14
                    + r.xreason.toNat * 2 ^ 16 + r.xid.toNat * 2 ^ 32 + r.station.toNat * 2 ^ 48)
                ∧ SameBytes m 32 s t ∧ OneIsland r.island { x with tqtail := x.tqtail + 1 } s t ∧ NoPacket p s t
                ∧ SameBut [.mem, .ecc, .seals, .islands, .packets, .progress] s t)
    ∧ (∀ (s : State) (r : Nat),
      let b := s.anchor r
      let x := s.island b
      let window := 2 ^ max 10 (min 30 (field x.invctl 1 5))
      s.isAnchor b = true → s.regionOf b = r → bit x.invctl 0 = true →
        (x.idle.toNat < window → Completes (.invigilatorExpiry r) s fun t => t = s)
          ∧ (window ≤ x.idle.toNat → Completes (.invigilatorExpiry r) s fun t =>
              (∀ c, c < 80 → t.bulk c = if s.regionOf c = r ∧ (s.bulk c).st = .live then { s.bulk c with gate := 2 } else s.bulk c)
                ∧ (∀ u ∈ s.everyTile r, (s.tile u).pre = 0 → (t.tile u).pre = 1
                    ∧ ((s.tile u).fab.state ≠ 1 → t.tile u = { s.tile u with pre := 1 }))
                ∧ (∀ u ∈ s.everyTile r, (s.tile u).pre ≠ 0 → t.tile u = s.tile u)
                ∧ (∀ u, u ∉ s.everyTile r → t.tile u = s.tile u)
                ∧ OneIsland b { x with stalled := true, idle := 0 } s t
                ∧ OnePacket s.serial (newPacket (nodeAt b 20 16) (s.islandNode b (nodeAt b 20 16)) 5 2
                    (s.stampOf (nodeAt b 20 16 / 4096) false) false (.trapRec
                      { island := b, tile := 0, epc := 0, eval := BitVec.ofNat 64 r, cause := 0x0E, slot := 0, noSlot := true,
                        precise := false, late := false, step := false, away := false, xreason := 0, xid := 0,
                        station := 0 })) s t
                ∧ SameBut [.bulks, .tiles, .islands, .packets, .routers, .serial, .progress] s t))
    ∧ (∀ (s : State) (u : TileName) (off w : Nat), 8 * w = scratchKey u off → u < 2 ^ 19 → off < 2 ^ 24 →
      let x := s.island u.ret
      (s.ecc.find? w = some false → Completes (.backgroundScrub w) s fun t =>
          t.ecc.find? w = none ∧ (∀ n, n ≠ w → t.ecc.find? n = s.ecc.find? n)
            ∧ OneIsland u.ret { x with eccCorr := x.eccCorr + 1 } s t ∧ SameBut [.ecc, .islands] s t)
        ∧ (s.ecc.find? w = some true → x.eccUnc ≠ 0xFFFF → Completes (.backgroundScrub w) s fun t =>
            OneIsland u.ret { x with eccUnc := x.eccUnc + 1, eccAddr := BitVec.ofNat 64 (8 * w) } s t
              ∧ OnePacket s.serial (newPacket (tileNode u) (s.islandNode u.ret (tileNode u)) 5 2
                  (s.stampOf (tileNode u / 4096) false) false
                  (.trapRec { slotRecord u 0 0x07 0 (BitVec.ofNat 64 (8 * w)) false with noSlot := true })) s t
              ∧ SameBut [.islands, .office, .packets, .routers, .serial] s t))
    ∧ (∀ (s : State) (u : TileName) (k : BitVec 2),
      let x := s.slot u k
      let y := s.tile u
      let debugs (t : State) : Prop :=
        (s.bulk u.ret).st = .live → (t.regions.get Region.reset (s.regionOf u.ret)).debugged = true
      let parked (c : Ctx) (t : State) : Prop :=
        OneTile u (y.onSlot k fun z => { z with ctx := c }) s t ∧ debugs t ∧ SameBut [.tiles, .regions] s t
      (x.state = .parked → Completes (.slotResume u k) s fun t =>
          OneTile u (y.onSlot k fun z => { z with state := if x.ctx.wait = .none then .ready else .waiting, ctl := 1 }) s t
            ∧ SameBut [.tiles] s t)
        ∧ (x.state ≠ .parked → Completes (.slotResume u k) s fun t =>
            OneTile u (y.onSlot k fun z => { z with ctl := 2 }) s t ∧ SameBut [.tiles] s t)
        ∧ (let waits (x : Slot) (i : Nat) : Prop := match x.ctx.wait with | .wire r c => (if i = 0 then r else c) = true | _ => False
            let killed (t : State) : Prop :=
              t.slot u k = { x with state := .free, taken := none, ctl := 1,
                                    ctx := { x.ctx with loop0 := 0, loop1 := 0, wait := .none, noEnd := false, pend := [],
                                                        out := [] } }
                ∧ (∀ j, j ≠ k → t.slot u j = s.slot u j)
                ∧ (t.tile u).drafts = y.drafts.map (fun d => d.filter fun z => z.slot ≠ k)
                ∧ (t.tile u).queues = (y.freeHeld k).queues
                ∧ (t.tile u).shareAdds = y.shareAdds ++ (if x.shared then [] else
                    [{ counter := x.counter, share := x.share, status := 2, after := [], no := s.serial,
                       epc := if x.ctx.wait = .none ∨ x.ctx.wait = .retry then x.ctx.pc else x.ctx.ipc }])
                ∧ (t.tile u).mat = { y.mat with arrivals := y.mat.arrivals.filter fun c => ¬(c.slot = k ∧ c.act = x.act) }
                ∧ (∀ i < 2, bit (t.tile u).arrived i = true ↔ bit y.arrived i = true ∧ ¬(waits x i ∧ s.wireWaiter u k (i = 0) = false))
                ∧ (t.tile u).vq = y.vq ∧ (t.tile u).sq = y.sq ∧ (t.tile u).rows = y.rows
                ∧ (∀ v, v ≠ u → t.tile v = s.tile v)
            x.state = .parked ∨ x.state = .ready ∨ x.state = .waiting → y.mat.zeros = [] →
            (∀ n q a b, (n, q) ∈ s.packets → q.place ≠ .stalled a b) →
              ((∀ w ∈ s.watches, x.ctx.watchedBy w = false) → Completes (.slotKill u k) s fun t => killed t ∧ SameBut [.tiles] s t)
                ∧ ∀ w ∈ s.watches, x.ctx.watchedBy w = true →
                    (∀ v ∈ s.watches, v ≠ w → v.id ≠ w.id ∧ x.ctx.watchedBy v = false ∧ (v.home = w.home → v.active = true)) →
                    Completes (.slotKill u k) s fun t =>
                      killed t ∧ t.watches = s.watches.filter (fun v => v.id ≠ w.id) ∧ SameBut [.tiles, .watches] s t)
        ∧ (x.state = .free ∨ x.state = .migrated ∨ x.state = .preempted → Completes (.slotKill u k) s fun t =>
            OneTile u (y.onSlot k fun z => { z with ctl := 2 }) s t ∧ SameBut [.tiles] s t)
        ∧ (∀ v, x.state = .parked →
            (∀ r : Reg, Completes (.slotRegisterWrite u k (8 * r.toNat) v) s (parked
                { x.ctx.set r v with pend := x.ctx.pend.filter fun q => !(q.reg = r && q.failed) }))
              ∧ (∀ r : EReg, Completes (.slotRegisterWrite u k (0x100 + 8 * r.toNat) v) s (parked (x.ctx.eset r v)))
              ∧ Completes (.slotRegisterWrite u k 0x140 v) s (parked { x.ctx with pc := v &&& ~~~1#64 })
              ∧ Completes (.slotRegisterWrite u k 0x148 v) s (parked { x.ctx with loop0 := v &&& 0xFFFFFFFF9FFFFFFF })
              ∧ Completes (.slotRegisterWrite u k 0x150 v) s (parked { x.ctx with loop1 := v &&& 0xFFFFFFFF9FFFFFFF }))
        ∧ (∀ off v, x.state ≠ .parked → Completes (.slotRegisterWrite u k off v) s fun t => t = s)
        ∧ Completes (.integClear u) s (fun t => OneTile u { y with fails := 0 } s t ∧ SameBut [.tiles] s t)
        ∧ (∀ v, Completes (.dbgCtlWrite u v) s fun t =>
            OneTile u { y with dbgCtl := BitVec.ofNat 40 v.toNat &&& ~~~0x20#40 } s t ∧ (bit v 0 = true → debugs t)
              ∧ SameBut (if bit v 0 && (s.bulk u.ret).st = .live then [.tiles, .regions] else [.tiles]) s t)
        ∧ (∀ v, bit y.dbgCtl 0 = true → field y.dbgCtl 3 2 = k.toNat → x.state = .parked → field v 0 8 ≠ 0 →
            Completes (.debugStep u v) s fun t =>
              OneTile u { y.onSlot k (fun z => { z with state := if x.ctx.wait = .none then .ready else .waiting }) with
                  dbgCount := BitVec.ofNat 8 v.toNat, dbgActive := true, dbgOf := k, dbgFirst := true,
                  dbgOwed := false } s t ∧ SameBut [.tiles] s t)
        ∧ (∀ v, bit y.dbgCtl 0 = false → Completes (.debugStep u v) s fun t => t = s))
    ∧ (∀ (s : State) (u : TileName),
      let y := s.tile u
      let becomes (z : Tile) (t : State) : Prop := OneTile u z s t ∧ SameBut [.tiles] s t
      (y.pre = 0 → y.fab.state ≠ 1 → Completes (.preemptStop u) s (becomes { y with pre := 1 }))
        ∧ (y.pre = 0 → y.fab.state = 1 → (s.domain (s.domainOf u)).run = none → (∀ j, (s.slot u j).dwaited = s.slot u j) →
            Completes (.preemptStop u) s
            (becomes { y with pre := 1, fab := { y.fab with state := 0, was := 1, armed := none } }))
        ∧ (y.pre = 1 ∨ y.pre = 3 → Completes (.preemptRun u) s
            (becomes { y with pre := 0, fab := { y.fab with was := 0 } }))
        ∧ (∀ v, let image : BitVec 52 := BitVec.ofNat 52 (field v 12 52)
            (y.pre = 1 → Completes (.preemptSave u v) s (becomes { y with image := image, pre := 2, preSave := true })
                ∧ Completes (.preemptLoad u v) s (becomes { y with image := image, pre := 2, preSave := false }))
              ∧ (y.pre ≠ 1 → Completes (.preemptSave u v) s (becomes { y with image := image })
                ∧ Completes (.preemptLoad u v) s (becomes { y with image := image })))
        ∧ (y.pre = 2 → y.image.toNat < 2 ^ 51 → s.walkWaits (s.coreStation u.ret true) = false →
            let failed (t : State) : Prop :=
              OneTile u { y with pre := 1, preErr := true } s t ∧ SameBut [.tiles, .progress] s t
            (y.preSave = true → Completes (.preemptSaveComplete u) s failed)
              ∧ (y.preSave = false → Completes (.preemptLoadComplete u) s failed))
        ∧ (∀ pa, u < 2 ^ 19 → y.pre = 2 → 2 ^ 51 ≤ pa → pa + 0x37400 ≤ 2 ^ 52 → MemCanonical s →
            (y.preSave = true → DeanMaps u.ret (place 12 y.image.toNat) 0x37400 pa .w s →
                Completes (.preemptSaveComplete u) s fun t =>
                  (∀ o, o < 0x37400 → o % 8 = 0 → t.mem.word (physKey pa + o) = s.imageDword u o)
                    ∧ SameBytes (physKey pa) 0x37400 s t ∧ OneTile u { y with pre := 3, preDone := true } s t
                    ∧ SameBut [.mem, .tiles, .progress] s t)
              ∧ (y.preSave = false → DeanMaps u.ret (place 12 y.image.toNat) 0x37400 pa .r s →
                  let w (o : Nat) : Word := s.mem.word (physKey pa + o)
                  field (w 0x28020) 0 32 = s.mapgen.toNat → Completes (.preemptLoadComplete u) s fun t =>
                    (∀ o < 0x28000, t.mem.read (scratchKey u o) = s.mem.read (physKey pa + o))
                      ∧ SameBytes (scratchKey u 0) 0x28000 s t
                      ∧ (∀ (k : BitVec 2) (r : Reg), (t.slot u k).ctx.get r
                          = if r = 0 then 0 else w (0x29000 + 0x200 * k.toNat + 8 * r.toNat))
                      ∧ (∀ k : BitVec 2, (t.slot u k).ctx.pc = w (0x29000 + 0x200 * k.toNat + 0x140) &&& ~~~1#64)
                      ∧ (t.tile u).pid = BitVec.ofNat 16 (w 0x28018).toNat ∧ (t.tile u).pre = 3
                      ∧ (t.tile u).preDone = true)))
    ∧ ∀ (s : State) (u : TileName),
      let y := s.tile u
      let becomes (z : Tile) (t : State) : Prop := OneTile u z s t ∧ SameBut [.tiles] s t
      (∀ v i, let qn : QNum := BitVec.ofNat 3 v.toNat
          let q := y.queue qn
          let e := q.entry i
          let word (r : Nat) : Word := BitVec.ofNat 64 (field v 0 3 + field v 16 16 * 2 ^ 16 + r * 2 ^ 32)
          (i ∈ q.inUse → e.full = true → e.here = true → e.seq.toNat = field v 16 16 →
              (∀ j ∈ q.inUse, j ≠ i → (q.entry j).seq ≠ e.seq) →
              (e.taken = false → e.fired = false → Completes (.queueCancel u v) s
                  (becomes { y.setQueue qn (q.freeEntry i) with cancel := word 1 }))
                ∧ (e.taken = true ∨ e.fired = true → Completes (.queueCancel u v) s (becomes { y with cancel := word 2 })))
            ∧ ((∀ j ∈ q.inUse, (q.entry j).seq.toNat ≠ field v 16 16) →
                Completes (.queueCancel u v) s (becomes { y with cancel := word 3 })))
        ∧ (∀ c v, y.fab.changes = [] → c % 2 = 0 → c < 256 →
            let clamp (i : BitVec 32) : BitVec 32 := BitVec.ofInt 32 (max (-16777216) (min 16777216 i.toInt))
            (y.fab.state = 0 → Completes (.fabricStateWrite u (4 * c) v) s fun t =>
                ((t.tile u).fab.cell c).y = clamp (v.extractLsb' 0 32)
                  ∧ ((t.tile u).fab.cell (c + 1)).y = clamp (v.extractLsb' 32 32)
                  ∧ (∀ d, d < 256 → d ≠ c → d ≠ c + 1 → ((t.tile u).fab.cell d).y = clamp (y.fab.cell d).y)
                  ∧ OneTile u { y with fab := (t.tile u).fab } s t ∧ SameBut [.tiles] s t)
              ∧ (y.fab.state ≠ 0 → Completes (.fabricStateWrite u (4 * c) v) s fun t => t = s))
        ∧ (∀ n i v, n < 64 → i < 8 → Completes (.registerWrite u (0x820000 + 64 * n + 8 * i) v) s fun t =>
            lane 64 ((t.tile u).rows.get 0 n) i = v.toNat
              ∧ (∀ j, j < 8 → j ≠ i → lane 64 ((t.tile u).rows.get 0 n) j = lane 64 (y.rows.get 0 n) j)
              ∧ (∀ m, m ≠ n → (t.tile u).rows.get 0 m = y.rows.get 0 m)
              ∧ OneTile u { y with rows := (t.tile u).rows } s t ∧ SameBut [.tiles] s t)
        ∧ (∀ v, Completes (.registerWrite u 0x800018 v) s (becomes { y with pid := BitVec.ofNat 16 v.toNat }))
        ∧ (∀ (n : Nat) (v : Word), n < 32 →
            (y.tableOpen = true → Completes (.registerWrite u (0x840908 + 32 * n) v) s
                (becomes (y.setBinding n { y.bindingAt n with entry := v })))
              ∧ (y.tableOpen = false → Completes (.registerWrite u (0x840908 + 32 * n) v) s fun t => t = s))

/-! ## The office die: host queues, resets, failures, boot, power (R28, R298 to R300, R346, R347, R354, R355, R395 to R398) -/

/-- A doorbell writes SQTAIL; a start descriptor becomes a message to its tile, or is answered with the status of
what is wrong with it; a bulkhead or region reset leaves its tiles at tile reset with PID, its TIMER and PTIMER at 0; a
failure freezes the region and closes the gates, an edge module's removes its station; power-on and boot leave what R346
and R355 say, a staged Dean takes effect, and an interface whose versions do not agree stays down; a sample moves each
clock by the governor, trips a bulkhead and ends a trip; caps are clamped and keep their sum under the module cap. The order of a descriptor's checks, what
a reset keeps, the gates that a failure closes and what an edge module's failure removes, the boot's open values and a
trip's hold are the model's (log entries 71, 76, 78, 79, 82, 131). -/
def Obligations.OfficeDieWorks : Prop :=
  (∀ (s : State) (q : Nat),
    let x := s.hostQueue q
    let n := 2 ^ x.sqsize.toNat
    let others (t : State) : Prop := ∀ p, p ≠ q → t.hostQueue p = s.hostQueue p
    (∀ tail, q < 256 → Completes (.sqDoorbell q tail) s fun t =>
        t.hostQueue q = { x with sqtail := BitVec.ofNat 16 tail } ∧ others t ∧ SameBut [.hostQueues] s t)
      ∧ (s.office.open8 = true → s.office.hostFailed ≠ 3 → 4 ≤ x.sqsize.toNat → x.sqsize.toNat ≤ 12 → x.sqhead.toNat % n ≠ x.sqtail.toNat % n →
          (x.cqtail.toNat + 1) % n ≠ x.cqhead.toNat % n → MemCanonical s →
          let key := 2 ^ 67 + (x.sqbase + BitVec.ofNat 64 (64 * (x.sqhead.toNat % n))).toNat
          let out := 2 ^ 67 + (x.cqbase + BitVec.ofNat 64 (16 * x.cqtail.toNat)).toNat
          let next := (x.cqtail.toNat + 1) % n
          let id := ofBytes (s.mem.readN (key + 24) 4)
          let len := ofBytes (s.mem.readN (key + 12) 2)
          let payload := s.mem.word (key + 16)
          let completed (status : Nat) (t : State) : Prop :=
            t.mem.readN out 16 = toBytes 4 id ++ toBytes 2 status ++ [BitVec.ofNat 8 (num !x.phase)] ++ toBytes 9 0
              ∧ SameBytes out 16 s t ∧ others t
              ∧ t.hostQueue q = { x with sqhead := BitVec.ofNat 16 ((x.sqhead.toNat + 1) % n), cqtail := BitVec.ofNat 16 next,
                                         phase := if next = 0 then !x.phase else x.phase }
          (x.owner = 0 → Completes (.hostStartDescriptor q) s fun t => completed 3 t ∧ SameBut [.mem, .hostQueues] s t)
            ∧ (∀ u, x.owner ≠ 0 → x.owner < 64 → s.mem.word key = tileId u → u < 2 ^ 19 → s.tileExists u = true →
                (s.regionOf u.ret ≠ x.owner → Completes (.hostStartDescriptor q) s fun t =>
                    completed 1 t ∧ SameBut [.mem, .hostQueues] s t)
                  ∧ (s.regionOf u.ret = x.owner → 256 < len ∨ payload.toNat % 8 ≠ 0 →
                      Completes (.hostStartDescriptor q) s fun t => completed 2 t ∧ SameBut [.mem, .hostQueues] s t)
                  ∧ (s.regionOf u.ret = x.owner → len ≤ 256 → payload.toNat % 8 = 0 →
                      let lc := bit (s.mem.read (key + 11)) 0
                      Completes (.hostStartDescriptor q) s fun t =>
                        completed 0 t ∧ OnePacket (s.serial + 1) (newPacket (nodeAt u.ret 20 16) (tileNode u) (if lc then 4 else 2)
                            (1 + (len + 31) / 32) x.owner false (.msg
                              { dest := u, q := BitVec.ofNat 3 (s.mem.read (key + 10)).toNat,
                                tag := BitVec.ofNat 16 (ofBytes (s.mem.readN (key + 8) 2)), len := len,
                                payload := s.mem.readN (2 ^ 67 + payload.toNat) len, sender := 0, ext := true, lc := lc, wake := false,
                                who := some { origin := .host q id, rid := s.serial, epc := 0, iw := 0 } })) s t
                          ∧ SameBut [.mem, .hostQueues, .packets, .routers, .serial] s t))))
    ∧ (∀ (s : State) (b : BulkId),
      let tileReset (u : TileName) : Tile := { Tile.reset with pid := (s.tile u).pid, code := (s.tile u).code }
      let lost : List Part := [.tiles, .blank, .islands, .stations, .bulks, .domains, .packets, .routers, .lanes, .watches, .wires,
                               .groups, .progress, .power, .scrubs, .serial]
      (b < 80 → Completes (.bulkheadReset b) s fun t =>
          OneBulk b { s.bulk b with timer := 0, gate := 0 } s t
            ∧ (∀ u, t.tile u = if TileName.ret u = b then tileReset u else s.tile u)
            ∧ OneStation b { s.station b with cache := [], nextXid := 1, invBusy := false, invWaits := [] } s t
            ∧ (∀ c, (s.core b c).h = true →
                ((s.core b c).running = true ∨ (s.core b c).pcause = 0 → t.core b c = s.core b c)
                  ∧ ((s.core b c).running = false → (s.core b c).pcause ≠ 0 → t.core b c = { s.core b c with
                      running := true,
                      ctx := { (s.core b c).ctx with pc := (s.core b c).hventry &&& ~~~1#64, wait := .none } }))
            ∧ (∀ c, (s.core b c).h = false → (t.core b c).running = false) ∧ (∀ c, c ≠ b → t.island c = s.island c)
            ∧ (t.island b).invctl = 0x29 ∧ (t.island b).stalled = false ∧ (t.island b).ptimer = 0 ∧ SameBut lost s t)
        ∧ (let r := s.regionOf b
           b < 80 → r ≠ 0 → (∀ c, c < 80 → s.regionOf c = r → (s.bulk c).st = .live) →
           Completes (.singleRegionReset r) s fun t =>
            (∀ c, c < 80 → t.bulk c = if s.regionOf c = r then { s.bulk c with timer := 0, gate := 1 } else s.bulk c)
              ∧ (∀ u, TileName.ret u < 80 → t.tile u = if s.regionOf (TileName.ret u) = r then tileReset u else s.tile u)
              ∧ SameBut lost s t)
        ∧ (let r := s.regionOf b
           b < 80 → Completes (.bulkheadFailure b) s fun t =>
            (∀ c, c < 80 → t.bulk c = if c = b then { s.bulk b with failed := true, rail := true, gate := 0 }
                else if r ≠ 0 ∧ s.regionOf c = r ∧ (s.bulk c).st = .live then { s.bulk c with gate := 2 } else s.bulk c)
              ∧ (∀ u ∈ s.everyTile r, r ≠ 0 → (s.tile u).pre = 0 → (t.tile u).pre = 1
                  ∧ ((s.tile u).fab.state ≠ 1 → t.tile u = { s.tile u with pre := 1 }))
              ∧ (∀ u, r = 0 ∨ u ∉ s.everyTile r → t.tile u = s.tile u)
              ∧ SameBut [.bulks, .tiles, .packets, .routers, .watches, .serial, .progress] s t)
        ∧ (isEdgeBulk b = true → Completes (.edgeModuleFailure b) s fun t =>
            OneBulk b { s.bulk b with memFailed := true } s t ∧ t.hasStation b = false ∧ SameBut [.bulks] s t))
    ∧ (∀ s : State,
      let kept (k : Nat) : Prop := (2 ^ 64 + 2 ^ 51 ≤ k ∧ k < 2 ^ 66) ∨ 2 ^ 67 ≤ k
      let o := s.office
      let good := Config.sha512 o.rootKey = o.rootHash ∧ Config.ed25519Verify o.rootKey o.yelk o.yelkSig = true
        ∧ o.rollback ≤ o.svn
      Completes .powerOn s (fun t =>
          t = { State.reset with agenda := s.agenda, focus := s.focus, mem := t.mem, scrubs := s.scrubs, office := t.office,
                                 serial := s.serial + 4, free := s.free }
            ∧ (∀ k, (kept k → t.mem.read k = s.mem.read k) ∧ (¬ kept k → t.mem.read k = 0))
            ∧ (t.office.recovery = false ↔ good) ∧ t.office.open8 = false ∧ t.office.owner = none ∧ t.office.gen = o.gen
            ∧ t.office.mYelk = Config.sha512 o.yelk ∧ t.office.deanNext = o.deanNext ∧ t.office.log = o.log
            ∧ t.office.fuses = o.fuses ∧ t.office.credentials = o.credentials)
        ∧ (o.recovery = false → Completes .moduleBoot s fun t => (¬ good → t = s) ∧ (good →
            let image := o.deanNext.getD (o.dean, o.deanSig)
            let loaded := Config.ed25519Verify o.rootKey image.1 image.2
            let fails (major lowest : Nat) (v : Word) : Prop := min major (field v 8 8) < max lowest (field v 16 8)
            t.office.open8 = loaded ∧ t.office.dean = image.1 ∧ t.office.deanSig = image.2 ∧ t.office.deanNext = none
              ∧ (loaded = true → t.office.mDean = Config.sha512 image.1
                  ∧ (t.office.hostFailed.getLsbD 0 = true ↔ fails 3 2 o.hostVersions[0])
                  ∧ (t.office.hostFailed.getLsbD 1 = true ↔ fails 3 2 o.hostVersions[1]))
              ∧ (∀ b, b < 80 →
                  ((t.bulk b).memFailed = true ↔ isEdgeBulk b = true ∧ fails 1 1 (o.memVersions.get 0 b)))
              ∧ t.mapgen = o.gen + 1 ∧ t.office.gen = o.gen + 1
              ∧ (∀ b, b < 80 → (t.bulk b).st = .unassigned ∧ (t.bulk b).region = 0 ∧ (t.bulk b).gate = 0 ∧ (t.bulk b).timer = 0
                  ∧ (t.bulk b).epoch = (s.bulk b).epoch)
              ∧ (∀ b c, b < 80 → (t.core b c).running = loaded ∧ (t.core b c).h = true ∧ (t.core b c).ctx.regs = Ctx.reset.regs)
              ∧ (∀ u, TileName.ret u < 80 → t.tile u = { Tile.reset with fab := { Fabric.reset with blank := true } })
              ∧ t.packets = [] ∧ t.seals = [] ∧ t.regions = [] ∧ t.watches = []
              ∧ t.keys = [(0, { token := s.serial, region := 0 })]
              ∧ (∀ k, (kept k → t.mem.read k = s.mem.read k)
                  ∧ (¬ kept k → (k < hallKey 0 0x2000000 ∨ hallKey 0 0x2961000 ≤ k) → t.mem.read k = 0))))
        ∧ (o.recovery = true → Completes .moduleBoot s fun t => t = s)
        ∧ (let trips (b : BulkId) : Prop := (s.powerOf b).inreset = false ∧ (o.flow < 150 ∨ 1760 ≤ (s.powerOf b).hot.toInt)
            let recovers (b : BulkId) : Prop := (s.powerOf b).inreset = true ∧ 450 ≤ o.flow ∧ (s.powerOf b).hot.toInt < 1440
            (Completes .telemetrySample s fun t =>
              t.office.sample = o.sample + 1 ∧ t.office.modcap = o.modcapNext
                ∧ (t.office.record.take 4) = toBytes 4 o.power
                ∧ ((t.office.record.drop 24).take 4) = toBytes 4 (o.sample + 1).toNat
                ∧ (∀ b, b < 80 →
                    let x := s.powerOf b
                    let y := t.powerOf b
                    let eff := if 450 ≤ o.flow then x.capNext else x.capNext * o.flow / 450
                    let hot := eff < x.power ∨ 1600 ≤ x.hot.toInt
                    let step := if hot then max 32 (x.clkn - 4)
                      else if x.power + eff / 20 < eff ∧ x.hot.toInt < 1520 then min 64 (x.clkn + 1) else x.clkn
                    let run := if hot ∧ step = 32 then x.run + 1 else 0
                    y = { x with cap := x.capNext, clkn := y.clkn, run := run, capfail := x.capfail || run == 10,
                                 tripped := y.tripped, inreset := y.inreset, record := y.record }
                      ∧ (trips b ∨ recovers b → y.clkn = 64) ∧ (¬trips b → ¬recovers b → y.clkn = step)
                      ∧ (y.tripped = true ↔ x.tripped = true ∨ trips b)
                      ∧ (y.inreset = true ↔ trips b ∨ (x.inreset = true ∧ ¬recovers b))
                      ∧ y.record.length = 48 ∧ y.record.take 4 = toBytes 4 x.power
                      ∧ (y.record.drop 40).take 4 = toBytes 4 (o.sample + 1).toNat))
              ∧ ((∀ b, b < 80 → ¬trips b ∧ ¬recovers b) → Completes .telemetrySample s (SameBut [.power, .office] s))
              ∧ ∀ b, b < 80 → (∀ c, c < 80 → c ≠ b → ¬trips c ∧ ¬recovers c) →
                let r := s.regionOf b
                (recovers b → Completes .telemetrySample s fun t =>
                    OneBulk b { s.bulk b with failed := (s.bulk b).rail } s t ∧ SameBut [.power, .office, .bulks] s t)
                  ∧ (trips b → Completes .telemetrySample s fun t =>
                    (∀ c, c < 80 → t.bulk c = if c = b then { s.bulk b with failed := true, timer := 0, gate := 0 }
                        else if r ≠ 0 ∧ s.regionOf c = r ∧ (s.bulk c).st = .live then { s.bulk c with gate := 2 } else s.bulk c)
                      ∧ (∀ u, TileName.ret u = b → r ≠ 0 → u ∈ s.everyTile r → t.tile u =
                          { Tile.reset with pid := (s.tile u).pid, code := (s.tile u).code, pre := 1,
                                            preErr := decide ((s.tile u).pre = 2) && (s.tile u).preSave })
                      ∧ (∀ u, TileName.ret u ≠ b → r ≠ 0 → u ∈ s.everyTile r → (s.tile u).pre = 0 → (t.tile u).pre = 1
                          ∧ ((s.tile u).fab.state ≠ 1 → t.tile u = { s.tile u with pre := 1 }))
                      ∧ (∀ u, TileName.ret u ≠ b → r = 0 ∨ u ∉ s.everyTile r ∨ (s.tile u).pre ≠ 0 → t.tile u = s.tile u)
                      ∧ SameBut [.tiles, .blank, .islands, .stations, .bulks, .domains, .packets, .routers, .lanes, .watches, .wires,
                                 .groups, .progress, .power, .scrubs, .serial, .office] s t))
        ∧ (∀ mw,
            let cap := max 13500000 (min 30000000 mw)
            Completes (.modcapWrite mw) s fun t =>
              t.office = { o with modcapNext := cap, nack := false }
                ∧ (∀ b, b < 80 → t.powerOf b = if s.capSum + 3900000 ≤ cap then s.powerOf b else
                    { s.powerOf b with capNext := 120000 + ((s.powerOf b).capNext - 120000) * (cap - 3900000 - 9600000)
                                                    / (s.capSum - 9600000) })
                ∧ SameBut [.power, .office] s t)
        ∧ ∀ b mw, b < 80 →
            let cap := max 120000 (min 325000 mw)
            let sum := s.capSum - (s.powerOf b).capNext + cap + 3900000
            (sum ≤ o.modcapNext → Completes (.capWrite b mw) s fun t =>
                t.powerOf b = { s.powerOf b with capNext := cap } ∧ (∀ c, c ≠ b → t.powerOf c = s.powerOf c)
                  ∧ t.office = { o with nack := false } ∧ SameBut [.power, .office] s t)
              ∧ (o.modcapNext < sum → Completes (.capWrite b mw) s fun t => t = { s with office := { o with nack := true } }))

/-! ## Mailbox commands (R350 to R353, R357, R358, R377 to R381, R384, R391, R392, R394 to R396) -/

/-- The commands that change no region: VERSION, ATTEST and each READ answer with what the rules name; CLAIM and
RELEASE change the owner, RETIRE the log, and each refusal has its status. Format numbers, the order of service
and the statuses that no rule names are the model's (log entries 72, 73, 74). -/
def Obligations.MailboxAnswers : Prop :=
  ∀ (s : State) (m : BitVec 2),
    let o := s.office
    let answers (i : Instr) (status : Nat) (data : List Byte) : Prop :=
      Completes i s (Answered m status data o 0 0 [] s)
    let renewed : Office := { o with challenges := o.challenges.set m.toNat s.serial m.isLt }
    let renews (i : Instr) (status : Nat) (data : List Byte) (o' : Office) : Prop :=
      Completes i s (Answered m status data o' 0 0 [.serial] s)
    (Rings m 0x01 s → answers (.version m) 0
        (([0x020301, 0x020200, 0x010102, 0x030400, 0x010100] : List Word).map bytesOf).flatten)
      ∧ (Rings m 0x02 s →
          let r := s.mail m 0x008 1
          (s.regions.find? r = none → answers (.attest m) 8 [])
            ∧ ∀ x, s.regions.find? r = some x → Completes (.attest m) s fun t =>
                Answered m 0 (toBytes 2 512) o (mailKey m 0x200) 512 [] s t
                  ∧ t.mailBytes m 0x200 8 = bytesOf 0x010100 ∧ t.mailBytes m 0x208 16 = padTo 16 o.device
                  ∧ t.mailBytes m 0x218 4 = toBytes 4 s.mapgen.toNat ∧ t.mailBytes m 0x21C 1 = toBytes 1 r
                  ∧ (let flags := t.mail m 0x21D 1
                     bit (BitVec.ofNat 8 flags) 0 = x.mutcode ∧ bit (BitVec.ofNat 8 flags) 1 = s.farMapped r
                       ∧ bit (BitVec.ofNat 8 flags) 2 = x.debugged ∧ bit (BitVec.ofNat 8 flags) 3 = s.windowNames r ∧ flags < 16)
                  ∧ t.mail m 0x21E 2 = s.keys.countP (fun y => y.2.region = r && y.2.token ≠ 0) % 2 ^ 16
                  ∧ (x.bulks.Nodup → (∀ b ∈ x.bulks, b < 80) →
                      ∀ b < 128, (BitVec.ofNat 128 (t.mail m 0x220 16)).getLsbD b = decide (b ∈ x.bulks))
                  ∧ t.mailBytes m 0x230 32 = s.mailBytes m 0x100 32
                  ∧ t.mailBytes m 0x250 64 = padTo 64 o.mYelk
                  ∧ t.mailBytes m 0x290 64 = padTo 64 o.mDean
                  ∧ t.mailBytes m 0x2D0 64 = padTo 64 x.mImage ∧ t.mailBytes m 0x310 64 = padTo 64 x.mCode
                  ∧ t.mailBytes m 0x3C0 64 = padTo 64 (Config.ed25519Sign 1 (t.mailBytes m 0x200 448)))
      ∧ (Rings m 0x03 s →
          let sel := s.mail m 0x008 2
          let n := s.mail m 0x00A 2
          let x := s.scrubRec n
          (sel = 1 → n = 0 ∨ 32 < n → answers (.readScrubRecord m) 4 [])
            ∧ (sel = 1 → 1 ≤ n → n ≤ 32 → s.regions.find? n = none → s.scrubs.find? n = none →
                answers (.readScrubRecord m) 8 [])
            ∧ (sel = 1 → 1 ≤ n → n ≤ 32 → s.regions.find? n ≠ none ∨ s.scrubs.find? n ≠ none →
                answers (.readScrubRecord m) 0 (bytesOf (if x.phase = 0 then 0 else
                  BitVec.ofNat 64 (x.blocks.toNat + x.total.toNat * 2 ^ 16 + x.phase.toNat * 2 ^ 32 + x.restarts.toNat * 2 ^ 36
                    + n * 2 ^ 40))))
            ∧ (sel = 2 → n < 80 → answers (.readBulkheadRecord m) 0 (s.powerOf n).record)
            ∧ (sel = 2 → 80 ≤ n → answers (.readBulkheadRecord m) 4 [])
            ∧ (sel = 3 → answers (.readModuleRecord m) 0 o.record)
            ∧ (∀ e, sel = 4 → o.log[n]? = some e →
                answers (.readRetirementEntry m) 0 (bytesOf e.1 ++ bytesOf e.2 ++ toBytes 4 o.log.length))
            ∧ (sel = 4 → o.log.length ≤ n → answers (.readRetirementEntry m) 4 [])
            ∧ (sel = 5 → answers (.readLatencyHeader m) 0 (s.mem.readN (hallKey 0 0x2000000) 12))
            ∧ (∀ y, sel = 6 → 1 ≤ n → n ≤ 32 → s.regions.find? n = some y →
                answers (.readRegionInfo m) 0 (bulkBitmap y.bulks ++ toBytes 4 (y.bulks.map s.tilesIn).flatten.length
                  ++ toBytes 2 (s.worstTime y.bulks)))
            ∧ (sel = 6 → 1 ≤ n → n ≤ 32 → s.regions.find? n = none → answers (.readRegionInfo m) 8 [])
            ∧ (sel = 7 → answers (.readChallenge m) 0 (s.challenge m ++
                [match o.owner with | some j => j.zeroExtend 8 | none => 0xFF])))
      ∧ (Rings m 0x04 s →
          let key := s.mailBytes m 0x100 32
          let valid := Config.sha512 key ∈ o.credentials
            ∧ Config.ed25519Verify key (s.challenge m ++ [m.zeroExtend 8]) (s.mailBytes m 0x120 64) = true
          (∀ j, o.owner = some j → renews (.claim m) 2 [j.zeroExtend 8] renewed)
            ∧ (o.owner = none → Completes (.claim m) s fun t =>
                (¬ valid → Answered m 3 [0xFF] renewed 0 0 [.serial] s t)
                  ∧ (valid → o.successor ≠ none → o.successor ≠ some m → Answered m 4 [0xFF] renewed 0 0 [.serial] s t)
                  ∧ (valid → o.successor = none ∨ o.successor = some m → Answered m 0 [m.zeroExtend 8]
                      { renewed with owner := some m, successor := none, ownerKey := key } 0 0 [.serial] s t)))
      ∧ (Rings m 0x05 s →
          let n := s.mail m 0x008 1
          let valid := Config.ed25519Verify o.ownerKey (s.challenge m ++ [BitVec.ofNat 8 n]) (s.mailBytes m 0x120 64)
          (o.owner ≠ some m → renews (.release m) 1 [] renewed)
            ∧ (o.owner = some m → 4 ≤ n → n ≠ 0xFF → renews (.release m) 4 [] renewed)
            ∧ (o.owner = some m → n < 4 ∨ n = 0xFF → Completes (.release m) s fun t =>
                if valid = true then Answered m 0 [] { renewed with
                    owner := none, ownerKey := [],
                    successor := if n = 0xFF then none else some (BitVec.ofNat 2 n) } 0 0 [.serial] s t
                else Answered m 3 [] renewed 0 0 [.serial] s t))
      ∧ (Rings m 0x16 s →
          let v : Word := BitVec.ofNat 64 (s.mail m 0x008 8)
          let kind := field v 0 2
          let entry : Word := BitVec.ofNat 64 (kind + 4 + field v 8 7 * 2 ^ 8 + (if kind = 3 then 0 else field v 16 7) * 2 ^ 16
            + (if kind = 1 then field v 24 4 else 0) * 2 ^ 24)
          (o.owner ≠ some m → answers (.retire m) 1 [])
            ∧ (o.owner = some m → kind = 0 ∨ 80 ≤ field v 8 7 ∨ 4032 ≤ o.log.length → answers (.retire m) 4 [])
            ∧ (o.owner = some m → kind ≠ 0 → field v 8 7 < 80 → (kind ≠ 3 → isBlockSite (field v 16 7) = true) →
                o.log.length < 4032 → (∀ e ∈ o.log, sameUnit e.1 entry = false) →
                Completes (.retire m) s (Answered m 0 (toBytes 2 o.log.length ++ toBytes 2 (o.log.length + 1))
                  { o with log := o.log ++ [(entry, s.mapgen.zeroExtend 64)] } 0 0 [] s)))

/-! ## Regions (R288 to R292, R296, R297, R301, R307, R320, R335, R338, R379, R381 to R386, R403) -/

/-- ASSIGN makes a region of bulkheads, KEYS gives and takes its key slots; TEARDOWN and its events close, zeroise,
scrub and free it; PREEMPT stops, freezes and releases or resumes it, RESTORE takes it back; WINDOW sets and
withdraws a window. What WINDOW stores and does not check and TEARDOWN of a finished record, window removal, the reuse of
ids, what a scrub keeps, and the stages of PREEMPT, RESTORE and TEARDOWN are the model's (log entries 74 to 77, 80,
81). -/
def Obligations.RegionsLive : Prop :=
  (∀ (s : State) (m : BitVec 2),
    let o := s.office
    let answered (status : Nat) (data : List Byte) (ps : List Part) (t : State) : Prop := Answered m status data o 0 0 ps s t
    let r := s.mail m 0x008 1
    (∀ b q, let n := s.mail m 0x018 1
        let slots := s.freeSlots.take n
        Rings m 0x10 s → o.owner = some m → s.mail m 0x008 16 = 2 ^ b → b < 80 → s.hasStation b = true →
        (s.bulk b).st = .unassigned → (s.bulk b).retired = false → s.migs = [] → 1 ≤ n → n ≤ 8 → n ≤ s.freeSlots.length →
        1 ≤ q → q ≤ 32 → s.regions.find? q = none → ((s.scrubRec q).phase = 0 ∨ (s.scrubRec q).phase = 4) →
        (∀ p, 1 ≤ p → p < q → s.regions.find? p ≠ none) → Completes (.assign m) s fun t =>
          answered 0 (toBytes 1 q ++ padTo 8 (slots.map fun k => BitVec.ofNat 8 k))
              [.bulks, .regions, .scrubs, .keys, .ksel, .routes, .stationOf, .serial] t
            ∧ t.bulk b = { s.bulk b with st := .live, region := BitVec.ofNat 6 q, key := BitVec.ofNat 7 (slots.headD 0),
                                         mutcode := s.mail m 0x019 1 % 2 == 1, scrub := false, epoch := (s.bulk b).epoch + 1,
                                         gate := 1, windows := (t.bulk b).windows }
            ∧ (∀ c, c ≠ b → t.bulk c = { s.bulk c with windows := (t.bulk c).windows })
            ∧ t.regions.find? q = some { Region.reset with bulks := [b], mutcode := s.mail m 0x019 1 % 2 == 1,
                                                           pub := s.mailBytes m 0x100 32, mImage := toBytes 64 0,
                                                           mCode := toBytes 64 0 }
            ∧ (∀ p, p ≠ q → t.regions.find? p = s.regions.find? p) ∧ t.scrubs.find? q = none
            ∧ (∀ i k, slots[i]? = some k → t.keys.find? k = some { token := s.serial + i, region := q }
                ∧ t.ksel.find? (8 * q + i) = some k)
            ∧ t.stationOf.get 0 (2 ^ 20 + b) = b)
      ∧ (Rings m 0x10 s → o.owner ≠ some m → Completes (.assign m) s (answered 1 [] []))
      ∧ (Rings m 0x11 s →
          (o.owner ≠ some m → Completes (.teardown m) s (answered 1 [] []))
            ∧ (o.owner = some m → (s.scrubRec r).phase = 0 ∨ (s.scrubRec r).phase = 4 → s.regions.find? r = none →
                Completes (.teardown m) s (answered 8 [] []))
            ∧ (o.owner = some m → (s.scrubRec r).phase = 0 ∨ (s.scrubRec r).phase = 4 → s.regions.find? r ≠ none →
                Completes (.teardown m) s fun t =>
                  GoesOn m (.teardown r) [.bulks, .tiles, .blank, .islands, .stations, .domains, .packets, .routers, .lanes, .watches,
                                           .wires, .groups, .progress, .power, .scrubs, .serial, .hostQueues] s t
                    ∧ (∀ b, b < 80 → s.regionOf b = r → (t.bulk b).st = .scrubbing ∧ (t.bulk b).scrub = true
                        ∧ (t.bulk b).gate = 0 ∧ (t.bulk b).timer = 0 ∧ (t.bulk b).region = (s.bulk b).region)
                    ∧ (t.scrubRec r).phase = 1 ∧ (t.scrubRec r).bulks = s.bulksOf r ∧ (t.scrubRec r).blocks = 0
                    ∧ (∀ u, TileName.ret u < 80 → s.regionOf (TileName.ret u) = r →
                        t.tile u = { Tile.reset with pid := (s.tile u).pid, code := (s.tile u).code })))
      ∧ (Rings m 0x15 s → o.owner = some m → s.regions.find? r ≠ none →
          (∀ slot k, s.mail m 0x009 1 = 0 → s.freeSlots.head? = some slot → k < 8 → s.ksel.find? (8 * r + k) = none →
              (∀ j, j < k → s.ksel.find? (8 * r + j) ≠ none) → Completes (.keysAdd m) s fun t =>
                answered 0 [BitVec.ofNat 8 k, BitVec.ofNat 8 slot] [.keys, .ksel, .serial] t
                  ∧ t.keys.find? slot = some { token := s.serial, region := r } ∧ t.ksel.find? (8 * r + k) = some slot
                  ∧ (∀ j, j ≠ slot → t.keys.find? j = s.keys.find? j)
                  ∧ (∀ j, j ≠ 8 * r + k → t.ksel.find? j = s.ksel.find? j))
            ∧ (∀ slot, let k := s.mail m 0x00A 1
                s.mail m 0x009 1 = 1 → 1 ≤ k → k < 8 → s.ksel.find? (8 * r + k) = some slot → Completes (.keysFree m) s fun t =>
                  answered 0 [BitVec.ofNat 8 k, BitVec.ofNat 8 slot] [.keys, .ksel] t
                    ∧ t.keys.find? slot = none ∧ t.ksel.find? (8 * r + k) = none
                    ∧ (∀ j, j ≠ slot → t.keys.find? j = s.keys.find? j)
                    ∧ (∀ j, j ≠ 8 * r + k → t.ksel.find? j = s.ksel.find? j))
            ∧ (s.mail m 0x009 1 = 1 → s.mail m 0x00A 1 = 0 → Completes (.keysFree m) s (answered 4 [] [])))
      ∧ (let stops (resume : Bool) (t : State) : Prop :=
           GoesOn m (.preempt r resume 1) [.bulks, .tiles, .progress] s t
             ∧ (∀ c, c < 80 → t.bulk c = if s.regionOf c = r then { s.bulk c with gate := 2 } else s.bulk c)
             ∧ (∀ u ∈ s.everyTile r, (s.tile u).pre = 0 → (t.tile u).pre = 1
                 ∧ ((s.tile u).fab.state ≠ 1 → t.tile u = { s.tile u with pre := 1 }))
             ∧ (∀ u, u ∉ s.everyTile r → t.tile u = s.tile u)
         Rings m 0x12 s → o.owner = some m → r ≠ 0 → (∃ b, b < 80 ∧ s.regionOf b = r) →
         (∀ b, b < 80 → s.regionOf b = r → (s.bulk b).st = .live) →
           (s.mail m 0x009 1 = 0 → Completes (.preemptRelease m) s (stops false))
             ∧ (s.mail m 0x009 1 = 1 → Completes (.preemptResume m) s (stops true)))
      ∧ (∀ q, MemCanonical s → s.job m = .preempt q true 2 → (∀ u ∈ s.everyTile q, (s.tile u).pre = 3) →
          Completes (.preemptResume m) s fun t =>
            answered 0 (toBytes 4 s.mapgen.toNat) [.bulks, .tiles, .packets, .serial] t
              ∧ (∀ c, c < 80 → t.bulk c = if s.regionOf c = q then { s.bulk c with st := .live, gate := 1 } else s.bulk c)
              ∧ (∀ u ∈ s.everyTile q, (t.tile u).pre = 0) ∧ (∀ u, u ∉ s.everyTile q → t.tile u = s.tile u))
      ∧ (∀ q, s.job m = .preempt q false 2 → (∀ u ∈ s.everyTile q, (s.tile u).pre = 3) →
          Completes (.preemptRelease m) s fun t =>
            t.job m = .preempt q false 3
              ∧ (∀ b, b < 80 → s.regionOf b = q → (t.bulk b).st = .scrubbing ∧ (t.bulk b).scrub = true ∧ (t.bulk b).gate = 0)
              ∧ (t.region q).released = true ∧ (t.region q).imageGen = s.mapgen ∧ (t.region q).images = s.everyTile q
              ∧ (t.scrubRec q).phase = 3 ∧ (t.scrubRec q).bulks = s.bulksOf q ∧ t.keys = s.keys ∧ t.ksel = s.ksel ∧ SameMem s t)
      ∧ (∀ x, Rings m 0x13 s → o.owner = some m → s.regions.find? r = some x → x.released = true → x.imageGen = s.mapgen →
          x.bulks.Nodup → (∀ b ∈ x.bulks, b < 80 ∧ (s.bulk b).st = .unassigned ∧ (s.bulk b).retired = false) →
          (s.scrubRec r).phase = 0 ∨ (s.scrubRec r).phase = 4 → Completes (.restore m) s fun t =>
            GoesOn m (.restore r 1) [.bulks, .tiles, .routes, .stationOf, .scrubs] s t ∧ t.scrubs.find? r = none
              ∧ (∀ b ∈ x.bulks, (t.bulk b).st = .live ∧ (t.bulk b).region = BitVec.ofNat 6 r ∧ (t.bulk b).gate = 2
                  ∧ (t.bulk b).epoch = (s.bulk b).epoch + 1)
              ∧ ∀ u ∈ x.images, (t.tile u).pre = 1)
      ∧ (∀ q, MemCanonical s → s.job m = .restore q 1 → (∀ u ∈ (s.region q).images, (s.tile u).pre = 3) →
          Completes (.restore m) s fun t =>
            t.mailBytes m 0x040 4 = toBytes 4 0 ∧ t.mail m 0xFF8 8 = 0 ∧ t.job m = .idle
              ∧ (∀ b ∈ (s.region q).bulks, (t.bulk b).gate = 1) ∧ (t.region q).released = false
              ∧ ∀ u ∈ (s.region q).images, (t.tile u).pre = 0)
      ∧ (∀ b y i, let g := s.mail m 0x009 1
          let e := s.mailBytes m 0x100 32
          let sig (q off : Nat) : Prop := q ≠ 0 ∧ Config.ed25519Verify (s.region q).pub e (s.mailBytes m off 64) = true
          Rings m 0x14 s → s.mail m 0x00A 1 = 0 → s.mail m 0x008 1 = b → b < 80 → g < 4 → bulkBeyond b g = some y →
          inBulk y (entryDword e 1) = true → inBulk y (entryDword e 2) = true → i < 8 → bit (s.window b g i 0) 31 = false →
          (∀ j, j < i → bit (s.window b g j 0) 31 = true) → Completes (.windowSet m) s fun t =>
            let src := sig (s.regionOf b) 0x120
            let tgt := sig (s.regionOf y) 0x160
            (o.owner ≠ some m → ¬ src → ¬ tgt → answered 1 [] [] t)
              ∧ (o.owner = some m ∨ src ∨ tgt → ¬ (src ∧ tgt) → answered 4 [] [] t)
              ∧ (src → tgt → answered 0 [BitVec.ofNat 8 i] [.bulks] t
              ∧ t.window b g i 0 = (entryDword e 0 &&& 0x80073F3F#64) ||| 0x80000000#64
              ∧ t.window b g i 1 = entryDword e 1 ∧ t.window b g i 2 = entryDword e 2
              ∧ t.window b g i 3 = entryDword e 3 &&& 0xFFFF#64
              ∧ (∀ j, j / 4 ≠ 8 * g + i → (t.bulk b).windows.get 0 j = (s.bulk b).windows.get 0 j)
              ∧ OneBulk b { s.bulk b with windows := (t.bulk b).windows } s t))
      ∧ (∀ b y, let g := s.mail m 0x009 1
          let i := s.mail m 0x00B 1
          let msg := ((List.range 4).map fun w => bytesOf (s.window b g i w)).flatten ++ [0xFF]
          Rings m 0x14 s → s.mail m 0x00A 1 = 1 → s.mail m 0x008 1 = b → b < 80 → g < 4 → i < 8 → bulkBeyond b g = some y →
          bit (s.window b g i 0) 31 = true → Completes (.windowWithdraw m) s fun t =>
            let signs (q off : Nat) : Prop :=
              q ≠ 0 ∧ Config.ed25519Verify (s.region q).pub msg (s.mailBytes m off 64) = true
            let consent := signs (s.regionOf b) 0x120 ∨ signs (s.regionOf y) 0x160
            (consent → GoesOn m (.withdraw b i (s.passedThrough b g i)) [.bulks] s t ∧ bit (t.window b g i 0) 31 = false
                ∧ (∀ j, j ≠ 32 * g + 4 * i → (t.bulk b).windows.get 0 j = (s.bulk b).windows.get 0 j))
              ∧ (¬ consent → answered (if o.owner = some m then 4 else 1) [] [] t))
      ∧ (∀ b i passed, s.job m = .withdraw b i passed → (∀ x ∈ s.windowedOpen, x.2.2.2 ∉ passed) → MemCanonical s →
          Completes (.windowRemovalComplete m) s (answered 0 [BitVec.ofNat 8 i] [])))
    ∧ (∀ (s : State) (r : Nat),
      let x := s.scrubRec r
      (x.phase = 1 → s.stationsHold r x.bulks = false → Completes (.teardownDrained r) s fun t =>
          t.scrubRec r = { x with phase := 2 }
            ∧ t.keys = s.keys.map (fun k => if k.2.region = r then (k.1, { k.2 with token := 0 }) else k)
            ∧ SameBut [.keys, .scrubs] s t)
        ∧ (x.phase = 1 → s.stationsHold r x.bulks = true → Completes (.teardownDrained r) s fun t => t = s)
        ∧ (let cleared (t : State) : Prop :=
             t.keys = s.keys.filter (fun k => k.2.region ≠ r) ∧ t.regions.find? r = none
               ∧ (∀ k, t.ksel.find? (8 * r + k % 8) = none) ∧ (t.scrubRec r).phase = 3 ∧ (t.scrubRec r).bulks = x.bulks
               ∧ ∀ b ∈ x.bulks, t.station b = { s.station b with cache := [], range := [] }
           x.phase = 2 → x.bulks ≠ [] →
             ((∀ m, s.job m ≠ .teardown r) → Completes (.keyZeroiseDone r) s fun t =>
                 cleared t ∧ SameBut [.keys, .ksel, .regions, .stations, .scrubs] s t)
               ∧ ∀ m, s.job m = .teardown r → (∀ n, n ≠ m → s.job n ≠ .teardown r) → MemCanonical s →
                 Completes (.keyZeroiseDone r) s fun t =>
                   cleared t ∧ Answered m 0 [] s.office 0 0 [.keys, .ksel, .regions, .stations, .scrubs] s t)
        ∧ (x.phase = 3 → x.broken = none → (∀ b ∈ x.bulks, s.scrubEnded x b = true ∧ 512 ≤ s.sinceMilestone x.doneAt b) →
            (∀ m, s.job m ≠ .preempt r false 3) → Completes (.scrubFinalise r) s fun t =>
              t.scrubRec r = { x with phase := 4 }
                ∧ (∀ b, t.bulk b =
                    if b ∈ x.bulks then
                      { s.bulk b with st := .unassigned, region := 0, key := 0, mutcode := false, scrub := false }
                    else s.bulk b)
                ∧ SameBut [.bulks, .scrubs] s t)
        ∧ ∀ b, x.phase = 3 → x.broken = some b → 2048 ≤ (s.bulk b).timer.toNat → Completes (.scrubRestart r) s fun t =>
            t.scrubRec r = { x with blocks := 0, restarts := if x.restarts = 15 then 15 else x.restarts + 1, prog := [],
                                    broken := none, doneAt := [], since := (t.scrubRec r).since }
              ∧ SameBut [.scrubs] s t)
    ∧ ∀ (s : State) (b : BulkId),
      let r := s.regionOf b
      let x := s.scrubRec r
      x.phase = 3 → b ∈ x.bulks → x.broken = none →
        (x.prog.get 0 b = 0 → 32768 ≤ s.sinceMilestone x.since b → Completes (.scrubHallCleared b) s fun t =>
            let hi := hallKey b (if b = 0 then 0x2000000 else 0x3000000)
            (∀ k, t.mem.read k = if hallKey b 0 ≤ k ∧ k < hi then 0 else s.mem.read k)
              ∧ OneIsland b { s.island b with
                  cache := [], cores := (s.island b).cores.map fun c => { c with icache := [], dcache := [] } } s t ∧ (t.scrubRec r).prog.get 0 b = 1
              ∧ (t.scrubRec r).blocks = x.blocks ∧ SameBut [.mem, .ecc, .islands, .scrubs] s t)
          ∧ (x.prog.get 0 b = 0 → s.sinceMilestone x.since b < 32768 → Completes (.scrubHallCleared b) s fun t => t = s)
          ∧ ∀ k, s.nextBlock x b = some k → 2560 ≤ s.sinceMilestone x.since b → Completes (.scrubBlockCleared b) s fun t =>
              let n := s.coresIn b k
              let inside (a : Nat) : Prop := (blockKey b k 0 ≤ a ∧ a < blockKey b k 0x100000)
                ∨ ∃ c, c < n ∧ scratchKey (TileName.mk b k c) 0 ≤ a ∧ a < scratchKey (TileName.mk b k c) 0x1000000
              (∀ a, (inside a → t.mem.read a = 0) ∧ (¬ inside a → t.mem.read a = s.mem.read a))
                ∧ (∀ c, c < n → t.tile (TileName.mk b k c) = { Tile.reset with
                    pid := (s.tile (TileName.mk b k c)).pid, fab := { Fabric.reset with blank := true } })
                ∧ (∀ f : Fabric, f = { Fabric.reset with blank := true } →
                    (∀ i, f.mapByte i = 0) ∧ ∀ c, (f.cell c).patchBytes = toBytes 32 0 ∧ (f.cell c).y = 0)
                ∧ (∀ u, (∀ c, c < n → u ≠ TileName.mk b k c) → t.tile u = s.tile u)
                ∧ (t.scrubRec r).blocks = x.blocks + 1 ∧ (t.scrubRec r).prog.get 0 b = k + 2
                ∧ SameBut [.mem, .ecc, .tiles, .domains, .scrubs] s t

/-! ## Links (R355, R359 to R364, R373 to R376) -/

/-- What a Euter port sends, in its order, and what each frame that arrives does: a payload enters the mesh on the VC that
its channel names, a test frame that asks for it is acknowledged alone, and the sixteenth NAK for one frame takes the port
DOWN, which refuses the packet it carries; the keepalive and the ACK timer; key loading, first into the receiver, then,
confirmed, into the transmitter; the link test, in which only test frames are sent; error injection; training, which
negotiates a version. A port's order of sending, a MARKER that waits for the replay buffer, the fields that a running test
keeps and the handling of refused frames are the model's readings (log entries 26, 83 to 86). -/
def Obligations.LinksWork : Prop :=
  ∀ (s : State) (b : BulkId) (p : Nat),
    let x := s.port b p
    let after (seq base : BitVec 16) : Bool := decide ((seq - base).toNat < 2 ^ 15)
    let becomes (y : Port) (t : State) : Prop := OnePort b p y s t
    (∀ g, let key := if x.active then x.tx[1] else x.tx[0]
        let other := if x.active then x.tx[0] else x.tx[1]
        x.st = 1 → key = some g → x.run = false →
          (x.counter.toNat + 1 < 0xFFF00000 →
            (∀ q rest, x.nakDue = q :: rest → Completes (.linkFrameTransmit b p) s
                (becomes (Port.sent { x with nakDue := rest } g 3 0 q 0 [])))
              ∧ (∀ q rest, x.nakDue = [] → x.ackDue = q :: rest → Completes (.linkFrameTransmit b p) s
                (becomes (Port.sent { x with ackDue := rest } g 2 0 q 0 [])))
              ∧ (∀ older r newer, x.nakDue = [] → x.ackDue = [] → x.replay = older ++ r :: newer → (∀ y ∈ older, y.sent = true) →
                  r.sent = false → (∀ y ∈ older ++ newer, y.seq ≠ r.seq) → Completes (.linkFrameTransmit b p) s
                    (becomes (Port.sent { x with replay := older ++ { r with sent := true } :: newer } g
                      (if r.marker then 1 else 0) r.load.chan r.seq r.load.len r.load.payload)))
              ∧ (x.nakDue = [] → x.ackDue = [] → (∀ y ∈ x.replay, y.sent = true) →
                  (∀ y rest, x.txq = y :: rest → x.replay.length < 64 → x.injArm = false →
                      Completes (.linkFrameTransmit b p) s (becomes (Port.sent
                        { x with txq := rest, txSeq := x.txSeq + 1,
                                 replay := x.replay ++ [{ seq := x.txSeq, marker := false, load := y, sent := true }] }
                        g 0 y.chan x.txSeq y.len y.payload)))
                    ∧ (64 ≤ x.replay.length → Completes (.linkFrameTransmit b p) s (becomes x))
                    ∧ (x.txq = [] → Completes (.linkFrameTransmit b p) s (becomes x))
                    ∧ (x.txq = [] → 4096 ≤ x.quiet → Completes (.linkKeepaliveExpiry b p) s (becomes (x.sent g 4 0 0 0 [])))
                    ∧ (x.quiet < 4096 → Completes (.linkKeepaliveExpiry b p) s (becomes x))))
            ∧ (∀ g', 0xFFF00000 ≤ x.counter.toNat → x.counter.toNat < 0xFFFFFFFE → other = some g' → x.injArm = false →
                x.replay.length < 64 →
                let pl := BitVec.ofNat 8 (num !x.active) :: toBytes 4 g'.toNat ++ List.replicate 251 0
                let y := Port.sent
                  { x with txSeq := x.txSeq + 1,
                           replay := x.replay ++ [{ seq := x.txSeq, marker := true,
                                                    load := { chan := 0, len := 5, payload := pl, origin := none },
                                                    sent := true }] } g 1 0 x.txSeq 5 pl
                Completes (.linkFrameTransmit b p) s (becomes
                  { y with tx := if x.active then x.tx.set 1 none else x.tx.set 0 none, active := !x.active, counter := 0 }))
            ∧ (∀ g', 0xFFF00000 ≤ x.counter.toNat → other = some g' → 64 ≤ x.replay.length → x.nakDue = [] → x.ackDue = [] →
                (∀ y ∈ x.replay, y.sent = true) → Completes (.linkFrameTransmit b p) s (becomes x)))
      ∧ (∀ g, let n := x.sentTest
          let pl := (List.range 256).map fun j => x.runPattern + BitVec.ofNat 8 (n + j)
          let ch : Byte := if x.runEach then 0xF1 else 0xF0
          x.st = 1 → (if x.active then x.tx[1] else x.tx[0]) = some g → x.run = true → x.counter.toNat + 1 < 0xFFF00000 →
          x.nakDue = [] → x.ackDue = [] → (∀ y ∈ x.replay, y.sent = true) →
            (n < x.runCount.toNat → x.replay.length < 64 → x.injArm = false → Completes (.linkFrameTransmit b p) s (becomes
                { Port.sent { x with
                    txSeq := x.txSeq + 1,
                    replay := x.replay ++ [{ seq := x.txSeq, marker := false,
                                             load := { chan := ch, len := 256, payload := pl, origin := none }, sent := true }] }
                      g 0 ch x.txSeq 256 pl with
                  sentTest := n + 1, lastTest := if n + 1 = x.runCount.toNat then some x.txSeq else none }))
              ∧ (x.runCount.toNat ≤ n → Completes (.linkFrameTransmit b p) s (becomes x)))
      ∧ (∀ f rest, x.inbox = f :: rest → x.st = 1 →
          let y := { x with inbox := rest }
          let good := f.tag = true ∧ (if f.ksel then x.rx[1] else x.rx[0]) = some f.gen
          let refused := { y with badauth := x.badauth + 1, nakDue := x.nakDue ++ [x.rxSeq] }
          let meets (z : Port) (t : State) : Prop :=
            OnePort b p z { s with packets := t.packets, routers := t.routers, serial := t.serial } t
              ∧ (f.chan.toNat < 8 → OnePacket s.serial (newPacket (portNode b) (portNode b) f.chan.toNat (1 + (f.len + 31) / 32) 63
                    false (.linkIn (8 * b + p) f.len f.payload)) s t)
              ∧ (8 ≤ f.chan.toNat → t.packets = s.packets ∧ t.routers = s.routers ∧ t.serial = s.serial)
          (f.type = 0 → good →
              (f.seq = x.rxSeq → f.chan ≠ 0xF0 → f.chan ≠ 0xF1 →
                  let z := { y with rxSeq := x.rxSeq + 1, delivered := x.delivered + 1 }
                  (x.unacked + 1 < 16 → Completes (.linkDataReceive b p) s (meets { z with unacked := x.unacked + 1 }))
                    ∧ (15 ≤ x.unacked → Completes (.linkDataReceive b p) s
                        (meets { z with unacked := 0, age := 0, ackDue := x.ackDue ++ [x.rxSeq] })))
                ∧ (f.seq = x.rxSeq → f.chan = 0xF1 → Completes (.linkDataReceive b p) s fun t =>
                    let right := ∃ c : Byte, f.payload = (List.range 256).map fun j => c + BitVec.ofNat 8 j
                    (t.port b p).rxSeq = x.rxSeq + 1 ∧ (t.port b p).delivered = x.delivered + 1
                      ∧ (t.port b p).ackDue = x.ackDue ++ (if x.unacked = 0 then [x.rxSeq] else [x.rxSeq - 1, x.rxSeq])
                      ∧ (t.port b p).unacked = 0 ∧ (right → (t.port b p).paterr = x.paterr)
                      ∧ (¬ right → (t.port b p).paterr = x.paterr + 1)
                      ∧ becomes { y with rxSeq := x.rxSeq + 1, delivered := x.delivered + 1, unacked := 0, age := 0,
                                         ackDue := (t.port b p).ackDue, paterr := (t.port b p).paterr } t)
                ∧ (f.seq ≠ x.rxSeq → after f.seq x.rxSeq = true → Completes (.linkDataReceive b p) s
                    (becomes { y with outorder := x.outorder + 1 }))
                ∧ (after f.seq x.rxSeq = false → Completes (.linkDataReceive b p) s
                    (becomes { y with dups := x.dups + 1, ackDue := x.ackDue ++ [x.rxSeq - 1], unacked := 0, age := 0 })))
            ∧ (f.type = 0 → ¬ good → Completes (.linkDataReceive b p) s (becomes refused))
            ∧ (4 < f.type.toNat → Completes (.linkDataReceive b p) s (becomes refused))
            ∧ (f.type = 1 → good → f.seq = x.rxSeq → x.unacked + 1 < 16 → Completes (.linkMarkerReceive b p) s (becomes
                { y with rxSeq := x.rxSeq + 1, delivered := x.delivered + 1, unacked := x.unacked + 1,
                         rx := if f.payload.head? = some 1 then x.rx.set 0 none else x.rx.set 1 none }))
            ∧ (f.type = 2 → good → x.run = false → Completes (.linkAckReceive b p) s (becomes
                { y with replay := x.replay.filter (fun r => !after f.seq r.seq),
                         nakRun := if after f.seq x.nakSeq then 0 else x.nakRun }))
            ∧ (∀ last, f.type = 2 → good → x.run = true → x.lastTest = some last → after f.seq last = true →
                Completes (.linkAckReceive b p) s (becomes
                  { y with replay := x.replay.filter (fun r => !after f.seq r.seq), run := false, done := true,
                           nakRun := if after f.seq x.nakSeq then 0 else x.nakRun }))
            ∧ (f.type = 3 → good →
                let n := if f.seq = x.nakSeq then x.nakRun + 1 else 1
                let z := { y with naks := x.naks + 1, nakSeq := f.seq, nakRun := n }
                (n < 16 → Completes (.linkNakReceive b p) s (becomes
                    { z with replay := x.replay.map fun r => if after r.seq f.seq then { r with sent := false } else r }))
                  ∧ (let down := { z with st := 0, reported := true, replay := [], txq := [], inbox := [], ackDue := [], nakDue := [] }
                     let carried := (x.replay.map (·.load) ++ x.txq).filterMap (·.origin)
                     16 ≤ n → (carried = [] → Completes (.linkNakReceive b p) s (becomes down))
                      ∧ (∀ k q m bs, carried = [k] → k.body = .linkOut q m bs → Completes (.linkNakReceive b p) s fun t =>
                          OnePort b p down { s with packets := t.packets, routers := t.routers, serial := t.serial } t
                            ∧ OnePacket s.serial (newPacket (portNode b) k.src 1 1 k.stamp false (.refused none 0)) s t)))
            ∧ (f.type = 4 → good → Completes (.linkIdleReceive b p) s (becomes y)))
      ∧ (0 < x.unacked → 8 ≤ x.age → Completes (.linkAckTimer b p) s
          (becomes { x with ackDue := x.ackDue ++ [x.rxSeq - 1], unacked := 0, age := 0 }))
      ∧ (x.unacked = 0 ∨ x.age < 8 → Completes (.linkAckTimer b p) s (becomes x))
      ∧ (∀ gen, let g : BitVec 32 := BitVec.ofNat 32 gen
          (x.confirmed ≠ some g → x.rx[0].isSome = true → x.rx[0] ≠ some g → x.rx[1] = none →
              Completes (.linkKeyLoad b p gen) s (becomes { x with rx := x.rx.set 1 (some g), confirms := x.confirms ++ [g] }))
            ∧ (x.confirmed = some g → x.active = false → x.tx[0].isSome = true → x.tx[0] ≠ some g → x.tx[1] = none →
                Completes (.linkKeyLoad b p gen) s (becomes
                  { x with tx := x.tx.set 1 (some g), asked := false, confirmed := none })))
      ∧ (∀ v, bit v 0 = true → x.st = 1 → x.run = false → BitVec.ofNat 16 (field v 16 16) ≠ 0 →
          Completes (.linkTestRun b p v) s (becomes
            { x with done := x.done && !bit v 1, ackEach := bit v 2, pattern := BitVec.ofNat 8 (field v 8 8),
                     count := BitVec.ofNat 16 (field v 16 16), run := true, runEach := bit v 2,
                     runPattern := BitVec.ofNat 8 (field v 8 8), runCount := BitVec.ofNat 16 (field v 16 16),
                     sentTest := 0, lastTest := none }))
      ∧ (∀ v, x.run = true → Completes (.linkTestRun b p v) s (becomes
            { x with done := x.done && !bit v 1, ackEach := bit v 2, pattern := BitVec.ofNat 8 (field v 8 8),
                     count := BitVec.ofNat 16 (field v 16 16) }))
      ∧ (∀ v, Completes (.linkErrorInject b p v) s (becomes
            { x with injSeq := BitVec.ofNat 16 v.toNat, injArm := bit v 16 }))
      ∧ (x.st = 3 → x.version = none → Completes (.linkTrainingComplete b p) s (becomes x))
      ∧ (∀ v, x.st = 3 → x.version = some v → (∀ z ∈ s.migs, z.source = false ∨ z.stage ≠ 2) →
          let major := min 2 (field v 8 8)
          (max 2 (field v 16 8) ≤ major → Completes (.linkTrainingComplete b p) s
              (becomes { x with st := 1, link := some (major, 0) }))
            ∧ (major < max 2 (field v 16 8) → Completes (.linkTrainingComplete b p) s (becomes { x with st := 0 })))
      ∧ (x.st ≠ 3 → Completes (.linkTrainingComplete b p) s (becomes x))

/-! ## Migrations (R365 to R367, R381) -/

/-- The registrar's messages of a confidential migration move it from stage to stage at both sides, and the commands
of MIGRATE start, cancel and restore it. The item that completes a manifest is answered with ACCEPT, or with REFUSED where
a hash is wrong. A message that the other module of its link did not sign is ignored, and a
migration starts only to a module whose report and certificate verify. The port, the form of the items and of the
certificate, what a source that reconnects asks and the statuses of a cancel are the model's (log entries 87 to 90). -/
def Obligations.MigrationsMove : Prop :=
  (∀ (s : State) (b : BulkId) (p : Nat) (y : Nat) (msg : List Byte) (rest : List (Byte × Nat × List Byte)),
    let x := s.port b p
    let id := migId msg
    let hash := migHash msg
    let signed (type : Nat) (hash : List Byte) : List Byte :=
      let body := toBytes 8 type ++ padTo 32 id ++ padTo 64 hash ++ padTo 16 s.office.device ++ toBytes 72 0
      body ++ padTo 64 (Config.ed25519Sign 1 body)
    let taken : Port := { x with out := rest }
    let message (type : Nat) (hash : List Byte) : Packet :=
      newPacket (portNode b) (portNode b) 7 9 63 false (.linkOut (8 * b + p) 256 (signed type hash))
    let sends (type : Nat) (hash : List Byte) (t : State) : Prop :=
      t.port b p = taken ∧ OnePacket s.serial (message type hash) s t
    let judged (i : Instr) (Q : State → Prop) : Prop :=
      Completes i s fun t =>
        if migValid msg = true ∧ migDevice msg = padTo 16 x.peer ∧ ∀ z ∈ s.migs, z.id = id → z.device = migDevice msg then Q t
        else OnePort b p taken s t
    let staged (z : Mig) (n : Nat) (t : State) : Prop :=
      t.mig? z.source z.id = some { z with stage := n } ∧ ∀ src i, (src, i) ≠ (z.source, z.id) → t.mig? src i = s.mig? src i
    let mesh : List Part := [.ports, .packets, .routers, .serial]
    x.out = (7, y, msg) :: rest → p < 8 →
      (∀ r, migType msg = 1 → s.freeRegion = some r → s.mig? false id = none → judged (.migrationPrepare b p) fun t =>
          t.mig? false id = some { region := r, id := id, device := migDevice msg, source := false, stage := 0, hash := hash,
                                   manifest := [], whole := false, got := [], slots := [], port := 8 * b + p }
            ∧ t.regions.find? r = some Region.reset ∧ OnePort b p taken { s with migs := t.migs, regions := t.regions } t)
        ∧ (migType msg = 1 → s.freeRegion = none → judged (.migrationPrepare b p) fun t =>
            sends 7 hash t ∧ SameBut mesh s t)
        ∧ (∀ z, migType msg = 2 → s.mig? true id = some z →
            (z.stage = 0 → z.hash = hash → z.device = migDevice msg → judged (.migrationAccept b p) fun t =>
                t.port b p = taken ∧ (∃ n, t.packets.find? n = some (message 3 z.hash)) ∧ staged z 2 t ∧ (t.scrubRec z.region).phase = 1
                  ∧ ∀ c, c < 80 → s.regionOf c = z.region → (t.bulk c).st = .scrubbing ∧ (t.bulk c).gate = 0)
              ∧ (z.stage = 4 → judged (.migrationAccept b p) fun t => sends 6 z.hash t ∧ SameBut mesh s t))
        ∧ (migType msg = 2 → s.mig? true id = none → judged (.migrationAccept b p) fun t =>
            sends 8 (toBytes 64 0) t ∧ SameBut mesh s t)
        ∧ ((∀ z ∈ s.migs, z.source = true ∨ z.port ≠ 8 * b + p ∨ z.stage ≠ 2) → migType msg = 3 →
            (s.mig? false id = none → judged (.migrationCommit b p) fun t =>
                sends 8 (toBytes 64 0) t ∧ SameBut mesh s t)
              ∧ ∀ z, s.mig? false id = some z →
                (z.stage = 3 → judged (.migrationCommit b p) fun t => sends 4 z.hash t ∧ SameBut mesh s t)
                ∧ (z.stage = 5 → judged (.migrationCommit b p) fun t => sends 8 (toBytes 64 0) t ∧ SameBut mesh s t)
                ∧ (∀ k, z.stage = 1 → s.ksel.find? (8 * z.region) = some k → s.token k ≠ 0 → (s.region z.region).pages = [] →
                  (s.region z.region).edge = [] → (s.region z.region).bulks.Nodup →
                  (∀ c ∈ (s.region z.region).bulks, (s.bulk c).st = .unassigned ∧ (s.bulk c).retired = false) →
                  (s.scrubRec z.region).phase = 0 ∨ (s.scrubRec z.region).phase = 4 →
                  judged (.migrationCommit b p) fun t =>
                    staged z 2 t ∧ ∀ c ∈ (s.region z.region).bulks,
                      (t.bulk c).st = .live ∧ (t.bulk c).region = BitVec.ofNat 6 z.region ∧ (t.bulk c).gate = 2))
        ∧ ((∀ m, s.job m = .idle) → s.mig? false id = none → ∀ z, s.mig? true id = some z →
            (migType msg = 4 → z.stage = 2 → judged (.migrationDone b p) fun t => staged z 3 t ∧ SameBut [.ports, .migs] s t)
              ∧ (migType msg = 6 → z.stage = 0 → judged (.migrationAborted b p) fun t =>
                  staged z 4 t ∧ SameBut [.ports, .migs] s t)
              ∧ (migType msg = 7 → z.stage = 0 → judged (.migrationRefused b p) fun t =>
                  staged z 4 t ∧ SameBut [.ports, .migs] s t)
              ∧ (migType msg = 8 → z.stage = 2 → judged (.migrationLost b p) fun t =>
                  staged z 5 t ∧ SameBut [.ports, .migs] s t))
        ∧ (∀ z, migType msg = 5 → (∀ m, s.job m = .idle) → s.mig? false id = some z → z.stage < 2 →
            judged (.migrationCancel b p) fun t =>
              (∃ w, t.mig? false id = some w ∧ w.stage = 4) ∧ t.regions.find? z.region = none
                ∧ t.keys = s.keys.filter (fun k => k.2.region ≠ z.region)
                ∧ SameBut [.ports, .migs, .regions, .keys, .ksel] s t))
    ∧ (∀ (s : State) (b : BulkId) (p n : Nat) (bytes : List Byte) (rest : List (Byte × Nat × List Byte)) (z : Mig),
      let x := s.port b p
      x.out = (3, n, bytes) :: rest →
      s.migs.find? (fun y => !y.source && decide (y.port = 8 * b + p) && decide (y.stage = 0)) = some z →
      (∀ y ∈ s.migs, y.source = false → y.id = z.id → y = z) →
        (z.whole = false → padTo 64 (Config.sha512 (z.manifest ++ bytes.take n)) ≠ z.hash → Completes (.migrationItem b p) s fun t =>
            t.mig? false z.id = some { z with manifest := z.manifest ++ bytes.take n }
              ∧ OnePort b p { x with out := rest } { s with migs := t.migs } t)
          ∧ (z.whole = true → z.got.length + (bytes.take n).length < itemsLength z.manifest →
            Completes (.migrationItem b p) s fun t =>
              t.mig? false z.id = some { z with got := z.got ++ bytes.take n }
                ∧ OnePort b p { x with out := rest } { s with migs := t.migs } t)
          ∧ (z.whole = true → itemsLength z.manifest ≤ z.got.length + (bytes.take n).length → p < 8 →
            Completes (.migrationItem b p) s fun t =>
              let answered (type : Nat) : Prop :=
                let body := toBytes 8 type ++ padTo 32 z.id ++ padTo 64 z.hash ++ padTo 16 s.office.device ++ toBytes 72 0
                s.serial < t.serial ∧ t.packets.find? (t.serial - 1) = some (newPacket (portNode b) (portNode b) 7 9 63 false
                  (.linkOut (8 * b + p) 256 (body ++ padTo 64 (Config.ed25519Sign 1 body))))
              let ps : List Part := [.regions, .migs, .keys, .ksel, .ports, .packets, .routers, .serial]
              t.port b p = { x with out := rest }
                ∧ if ∀ i ∈ itemsOf z.manifest (z.got ++ bytes.take n), padTo 64 (Config.sha512 i.1.bytes) = i.2 then
                    answered 2 ∧ t.mig? false z.id = some { z with stage := 1, got := [] }
                      ∧ (t.region z.region).released = true ∧ (t.region z.region).imageGen = s.mapgen
                      ∧ SameBut ([.mem, .seals] ++ ps) s t
                  else answered 7 ∧ t.mig? false z.id = some { z with stage := 4, got := [] }
                    ∧ t.regions.find? z.region = none ∧ t.keys = s.keys.filter (fun k => k.2.region ≠ z.region)
                    ∧ SameBut ps s t))
    ∧ ∀ (s : State) (m : BitVec 2), Rings m 0x17 s →
      let o := s.office
      let op := s.mail m 0x009 1
      let r := s.mail m 0x008 1
      let id := s.mailBytes m 0x020 32
      let answered (status : Nat) (ps : List Part) (t : State) : Prop := Answered m status [] o 0 0 ps s t
      (op = 0 → (o.owner ≠ some m → Completes (.migrateStart m) s (answered 1 []))
          ∧ (o.owner = some m → s.regions.find? r = none → Completes (.migrateStart m) s (answered 8 []))
          ∧ (∀ y q, o.owner = some m → s.regions.find? r = some y → s.ports = [q] → q.2.st = 1 → y.released = true →
              y.saved = [] → (∀ z ∈ s.migs, z.source = false ∨ z.region ≠ r) →
              let device := s.mailBytes m 0x010 16
              let signer := deviceKeyOf device
              let report := q.2.peerReport
              (padTo 16 q.2.peer ≠ device → Completes (.migrateStart m) s (answered 4 []))
                ∧ (padTo 16 q.2.peer = device → Completes (.migrateStart m) s fun t =>
                  if (report.drop 8).take 16 = device
                      ∧ Config.ed25519Verify signer (report.take 448) ((report.drop 448).take 64) = true
                      ∧ Config.ed25519Verify o.rootKey signer q.2.peerCert = true then
                    t.job m = .migrate r
                      ∧ (∃ z, t.mig? true id = some z ∧ z.region = r ∧ z.stage = 0 ∧ z.device = device
                          ∧ z.port = q.1 ∧ z.whole = true ∧ z.hash = padTo 64 (Config.sha512 z.manifest))
                      ∧ SameBut [.migs, .packets, .routers, .serial, .jobs, .office, .free] s t
                  else answered 4 [] t)))
        ∧ (op = 1 → o.owner = some m →
            (s.mig? true id = none → Completes (.migrateCancel m) s (answered 4 []))
              ∧ (∀ z, s.mig? true id = some z →
                  (z.stage = 0 → (∀ n, s.job n = .idle) → Completes (.migrateCancel m) s fun t =>
                      answered 0 [.migs, .packets, .routers, .serial] t ∧ t.mig? true id = some { z with stage := 4 })
                    ∧ (z.stage = 2 ∨ z.stage = 3 → Completes (.migrateCancel m) s (answered 7 []))))
        ∧ (op = 2 → o.owner = some m →
            (s.mig? false id = none → Completes (.migrateRestore m) s (answered 9 []))
              ∧ ∀ z, s.mig? false id = some z →
                (z.stage = 3 → Completes (.migrateRestore m) s (answered 0 []))
                  ∧ (z.stage = 4 → Completes (.migrateRestore m) s (answered 6 []))
                  ∧ (z.stage = 5 → Completes (.migrateRestore m) s (answered 9 []))
                  ∧ (z.stage = 2 → Completes (.migrateRestore m) s (GoesOn m (.migrate z.region) [] s)))
end

