-- ==== Sys2Proof/Laws/Memory.lean ====
section
/-! SUPPORT. Memory: every operation keeps the canonical form, and reads after writes. -/

namespace Sys2Proof.Machine

/-! ## Reads after writes -/

/-- A byte that is not written reads as before. -/
theorem Memory.read_write_other {k j : Nat} (v : Byte) (h : j ≠ k) : ∀ m : Memory, Memory.read (m.write k v) j = m.read j
  | [] => by unfold Memory.write; split <;> simp [Memory.read, Ne.symm h]
  | (k', v') :: rest => by
    unfold Memory.write
    split
    · split
      · rfl
      · simp [Memory.read, Ne.symm h]
    · split
      · rename_i e
        split
        · subst e; simp [Memory.read, Ne.symm h]
        · subst e; simp [Memory.read, Ne.symm h]
      · simp [Memory.read, Memory.read_write_other v h rest]

/-- Every key of a canonical memory's tail is above its first. -/
theorem Memory.wf_tail {c : Host.Cell} {rest : Memory} (h : Memory.wf (c :: rest) = true) : Memory.wf rest = true := by
  obtain ⟨k, v⟩ := c
  cases rest with
  | nil => rfl
  | cons d rest => obtain ⟨k', v'⟩ := d; simp [Memory.wf] at h; exact h.2

theorem Memory.read_below {k j : Nat} {v : Byte} : ∀ {rest : Memory}, Memory.wf ((k, v) :: rest) = true → j ≤ k →
    Memory.read rest j = Memory.blank
  | [], _, _ => rfl
  | (k', v') :: rest, h, hj => by
    simp [Memory.wf] at h
    have hk : k < k' := h.1.2
    have : k' ≠ j := by omega
    simp only [Memory.read, this, if_false]
    exact Memory.read_below h.2 (by omega)

/-- A byte that is written reads as written. -/
theorem Memory.read_write_same (k : Nat) (v : Byte) : ∀ {m : Memory}, m.wf = true → Memory.read (m.write k v) k = v
  | [], _ => by unfold Memory.write; split <;> simp_all [Memory.read]
  | (k', v') :: rest, h => by
    unfold Memory.write
    split
    · rename_i hk
      split
      · rename_i e
        have : k' ≠ k := by omega
        simp only [Memory.read, this, if_false, e]
        exact Memory.read_below h (Nat.le_of_lt hk)
      · simp [Memory.read]
    · split
      · rename_i e
        split
        · rename_i ev; rw [ev]; exact Memory.read_below h (by omega)
        · simp [Memory.read]
      · rename_i e
        simp [Memory.read, Ne.symm e, Memory.read_write_same k v (Memory.wf_tail h)]

/-! ## The canonical form -/

/-- The first key of a memory is above a bound. -/
def Memory.above (lo : Nat) : Memory → Prop
  | [] => True
  | (k, _) :: _ => lo < k

theorem Memory.wf_cons {k : Nat} {v : Byte} {m : Memory} :
    Memory.wf ((k, v) :: m) = true ↔ v ≠ Memory.blank ∧ Memory.above k m ∧ m.wf = true := by
  cases m with
  | nil => simp [Memory.wf, Memory.above]
  | cons d m => obtain ⟨k', v'⟩ := d; simp [Memory.wf, Memory.above, and_assoc]

theorem Memory.above_write {lo k : Nat} (v : Byte) (hk : lo < k) {m : Memory} (h : Memory.above lo m) (hw : m.wf = true) :
    Memory.above lo (m.write k v) := by
  cases m with
  | nil => unfold Memory.write; split <;> simp [Memory.above, hk]
  | cons c m =>
    obtain ⟨k', v'⟩ := c
    unfold Memory.write
    split
    · split
      · exact h
      · exact hk
    · split
      · split
        · cases m with
          | nil => trivial
          | cons d m =>
            obtain ⟨k2, v2⟩ := d
            have := (Memory.wf_cons.1 hw).2.1
            simp only [Memory.above] at *
            omega
        · exact hk
      · exact h

/-- A write keeps the canonical form. -/
theorem Memory.wf_write (k : Nat) (v : Byte) : ∀ {m : Memory}, m.wf = true → Memory.wf (m.write k v) = true
  | [], _ => by unfold Memory.write; split <;> simp_all [Memory.wf]
  | (k', v') :: rest, h => by
    have h' := Memory.wf_cons.1 h
    unfold Memory.write
    split
    · rename_i hk
      split
      · exact h
      · rename_i hv; exact Memory.wf_cons.2 ⟨hv, hk, h⟩
    · split
      · rename_i e
        split
        · exact h'.2.2
        · rename_i hv; subst e; exact Memory.wf_cons.2 ⟨hv, h'.2.1, h'.2.2⟩
      · rename_i hk e
        exact Memory.wf_cons.2 ⟨h'.1, Memory.above_write v (by omega) h'.2.1 h'.2.2, Memory.wf_write k v h'.2.2⟩

/-- So does a write of several bytes. -/
theorem Memory.wf_writeAt (k : Nat) : ∀ (bs : List (Nat × Byte)) {m : Memory}, m.wf = true → Memory.wf (m.writeAt k bs) = true
  | [], _, h => h
  | (o, v) :: bs, _, h => Memory.wf_writeAt k bs (Memory.wf_write (k + o) v h)

theorem Memory.wf_writeN (k : Nat) (bs : List Byte) {m : Memory} (h : m.wf = true) : Memory.wf (m.writeN k bs) = true :=
  Memory.wf_writeAt k (indexed bs) h

theorem Memory.wf_setWord (k : Nat) (v : Word) {m : Memory} (h : m.wf = true) : Memory.wf (m.setWord k v) = true :=
  Memory.wf_writeN k (bytesOf v) h

theorem Memory.wf_counterAdd (k : Nat) (n st : Word) {m : Memory} (h : m.wf = true) : Memory.wf (m.counterAdd k n st) = true := by
  unfold Memory.counterAdd
  dsimp only
  split
  · exact Memory.wf_setWord _ _ h
  · exact Memory.wf_setWord _ _ (Memory.wf_setWord _ _ h)

theorem Memory.wf_reduce (k : Nat) (op : RedOp) (mod : BitVec 2) (b : Word) {m : Memory} (h : m.wf = true) :
    Memory.wf (m.reduce k op mod b) = true := Memory.wf_writeN _ _ h

/-- A part of a memory whose first key is above a bound. -/
theorem Memory.above_filter {lo : Nat} (f : Host.Cell → Bool) : ∀ {m : Memory}, Memory.above lo m → m.wf = true →
    Memory.above lo (m.filter f : Memory)
  | [], _, _ => trivial
  | (k, v) :: m, h, hw => by
    have hw' := Memory.wf_cons.1 hw
    simp only [List.filter]
    split
    · exact h
    · refine Memory.above_filter f ?_ hw'.2.2
      cases m with
      | nil => trivial
      | cons d m =>
        obtain ⟨k2, v2⟩ := d
        have h2 := hw'.2.1
        simp only [Memory.above] at *
        omega

/-- Any part of a canonical memory is canonical. -/
theorem Memory.wf_filter (f : Host.Cell → Bool) : ∀ {m : Memory}, m.wf = true → Memory.wf (m.filter f : Memory) = true
  | [], _ => rfl
  | (k, v) :: m, h => by
    have h' := Memory.wf_cons.1 h
    simp only [List.filter]
    split
    · exact Memory.wf_cons.2 ⟨h'.1, Memory.above_filter f h'.2.1 h'.2.2, Memory.wf_filter f h'.2.2⟩
    · exact Memory.wf_filter f h'.2.2

theorem Memory.wf_clear (lo hi : Nat) {m : Memory} (h : m.wf = true) : Memory.wf (m.clear lo hi) = true :=
  Memory.wf_filter _ h

/-- Bytes outside a write of several bytes read as before. -/
theorem Memory.read_writeAt_other (k j : Nat) : ∀ (bs : List (Nat × Byte)) (m : Memory), (∀ b ∈ bs, j ≠ k + b.1) →
    Memory.read (m.writeAt k bs) j = m.read j
  | [], _, _ => rfl
  | (o, v) :: bs, m, h => by
    unfold Memory.writeAt
    rw [Memory.read_writeAt_other k j bs _ fun b hb => h b (List.mem_cons_of_mem _ hb)]
    exact Memory.read_write_other v (h (o, v) List.mem_cons_self) m

/-- Two canonical memories, the second above the keys of the first, are one canonical memory. -/
theorem Memory.wf_append : ∀ {m n : Memory}, m.wf = true → n.wf = true → (∀ c ∈ m, ∀ d ∈ n, c.1 < d.1) →
    Memory.wf (m ++ n : Memory) = true
  | [], _, _, hn, _ => hn
  | (k, v) :: m, n, hm, hn, h => by
    have hm' := Memory.wf_cons.1 hm
    refine Memory.wf_cons.2 ⟨hm'.1, ?_, Memory.wf_append hm'.2.2 hn fun c hc d hd => h c (List.mem_cons_of_mem _ hc) d hd⟩
    cases m with
    | nil =>
      cases n with
      | nil => trivial
      | cons d n => exact h (k, v) List.mem_cons_self d List.mem_cons_self
    | cons d m => exact hm'.2.1

/-- A list with rising keys and no blank byte is canonical. -/
theorem Memory.wf_upFrom (lo : Nat) (f : Nat → Byte) : ∀ (n i : Nat),
    Memory.wf (((upFrom i n).map fun i => (lo + i, f i)).filter (fun c => c.2 != Memory.blank) : Memory) = true
      ∧ ∀ c ∈ ((upFrom i n).map fun i => (lo + i, f i)).filter (fun c => c.2 != Memory.blank), lo + i ≤ c.1 ∧ c.1 < lo + i + n
  | 0, _ => ⟨rfl, by simp [upFrom]⟩
  | n + 1, i => by
    obtain ⟨hw, hb⟩ := Memory.wf_upFrom lo f n (i + 1)
    simp only [upFrom, List.map]
    cases hv : (f i != Memory.blank)
    · rw [List.filter_cons_of_neg (by simpa using hv)]
      exact ⟨hw, fun c hc => by have := hb c hc; omega⟩
    · rw [List.filter_cons_of_pos (by simpa using hv)]
      refine ⟨Memory.wf_cons.2 ⟨by simpa using hv, ?_, hw⟩, ?_⟩
      · generalize List.filter (fun c : Nat × Byte => c.2 != Memory.blank) (List.map (fun i => (lo + i, f i)) (upFrom (i + 1) n)) = l at hb
        cases l with
        | nil => trivial
        | cons d l => have := hb d List.mem_cons_self; simp only [Memory.above]; omega
      · intro c hc
        rcases List.mem_cons.1 hc with rfl | hc
        · simp only []; omega
        · have := hb c hc; omega

theorem Memory.wf_fill (lo n : Nat) (f : Nat → Byte) {m : Memory} (h : m.wf = true) : Memory.wf (m.fill lo n f) = true := by
  unfold Memory.fill
  obtain ⟨hw, hb⟩ := Memory.wf_upFrom lo f n 0
  refine Memory.wf_append (Memory.wf_append (Memory.wf_filter _ h) hw ?_) (Memory.wf_filter _ h) ?_
  · intro c hc d hd
    have := hb d hd
    have h1 := (List.mem_filter.1 hc).2
    simp only [decide_eq_true_eq] at h1
    omega
  · intro c hc d hd
    have h2 := (List.mem_filter.1 hd).2
    simp only [decide_eq_true_eq] at h2
    rcases List.mem_append.1 hc with hc | hc
    · have h1 := (List.mem_filter.1 hc).2
      simp only [decide_eq_true_eq] at h1
      omega
    · have := hb c hc; omega

end Sys2Proof.Machine
end

