-- ==== Sys2Proof/Laws/Sparse.lean ====
section
/-! SUPPORT. Reads after writes of sparse maps, which need no ordering of the keys. -/

namespace Sys2Proof

variable {α : Type}

@[simp] theorem Sparse.get_put_same (d v : α) (k : Nat) : ∀ m : Sparse α, (m.put k v).get d k = v
  | [] => by simp [Sparse.put, Sparse.get]
  | (k', v') :: rest => by
    unfold Sparse.put
    split
    · simp [Sparse.get]
    · split
      · simp [Sparse.get]
      · rename_i h
        simp [Sparse.get, Ne.symm h, Sparse.get_put_same d v k rest]

theorem Sparse.get_put_other (d v : α) {k j : Nat} (h : j ≠ k) : ∀ m : Sparse α, (m.put k v).get d j = m.get d j
  | [] => by simp [Sparse.put, Sparse.get, Ne.symm h]
  | (k', v') :: rest => by
    unfold Sparse.put
    split
    · simp [Sparse.get, Ne.symm h]
    · split
      · rename_i e; subst e; simp [Sparse.get, Ne.symm h]
      · simp [Sparse.get, Sparse.get_put_other d v h rest]

theorem Sparse.get_put (d v : α) (k j : Nat) (m : Sparse α) :
    (m.put k v).get d j = if j = k then v else m.get d j := by
  split
  · rename_i h; subst h; simp
  · rename_i h; exact Sparse.get_put_other d v h m

@[simp] theorem Sparse.put_put (v w : α) (k : Nat) : ∀ m : Sparse α, (m.put k v).put k w = m.put k w
  | [] => by simp [Sparse.put]
  | (k', v') :: rest => by
    by_cases h : k < k'
    · simp [Sparse.put, h]
    · by_cases e : k = k'
      · simp [Sparse.put, e]
      · simp [Sparse.put, h, e, Sparse.put_put v w k rest]

@[simp] theorem Sparse.find?_put_same (v : α) (k : Nat) : ∀ m : Sparse α, (m.put k v).find? k = some v
  | [] => by simp [Sparse.put, Sparse.find?]
  | (k', v') :: rest => by
    unfold Sparse.put
    split
    · simp [Sparse.find?]
    · split
      · simp [Sparse.find?]
      · rename_i h
        simp [Sparse.find?, Ne.symm h, Sparse.find?_put_same v k rest]

theorem Sparse.find?_put_other (v : α) {k j : Nat} (h : j ≠ k) : ∀ m : Sparse α, (m.put k v).find? j = m.find? j
  | [] => by simp [Sparse.put, Sparse.find?, Ne.symm h]
  | (k', v') :: rest => by
    unfold Sparse.put
    split
    · simp [Sparse.find?, Ne.symm h]
    · split
      · rename_i e; subst e; simp [Sparse.find?, Ne.symm h]
      · simp [Sparse.find?, Sparse.find?_put_other v h rest]

@[simp] theorem Sparse.find?_del_same (k : Nat) : ∀ m : Sparse α, (m.del k).find? k = none
  | [] => by simp [Sparse.del, Sparse.find?]
  | (k', v') :: rest => by
    unfold Sparse.del
    split
    · exact Sparse.find?_del_same k rest
    · rename_i h; simp [Sparse.find?, h, Sparse.find?_del_same k rest]

theorem Sparse.find?_del_other {k j : Nat} (h : j ≠ k) : ∀ m : Sparse α, (m.del k).find? j = m.find? j
  | [] => by simp [Sparse.del, Sparse.find?]
  | (k', v') :: rest => by
    unfold Sparse.del
    split
    · rename_i e; subst e; simp [Sparse.find?, Ne.symm h, Sparse.find?_del_other h rest]
    · simp [Sparse.find?, Sparse.find?_del_other h rest]

end Sys2Proof
end

