-- ==== Sys2Proof/Laws/State.lean ====
section
/-! SUPPORT. What each update of the state leaves and gives: one lemma per field and update. -/

namespace Sys2Proof.Machine

/-! ## `setTile` -/

@[simp] theorem State.setTile_agenda (s : State) (k : TileName) (x : Tile) : (s.setTile k x).agenda = s.agenda := rfl
@[simp] theorem State.setTile_focus (s : State) (k : TileName) (x : Tile) : (s.setTile k x).focus = s.focus := rfl
@[simp] theorem State.setTile_cur (s : State) (k : TileName) (x : Tile) : (s.setTile k x).cur = s.cur := rfl
@[simp] theorem State.setTile_iw (s : State) (k : TileName) (x : Tile) : (s.setTile k x).iw = s.iw := rfl
@[simp] theorem State.setTile_mem (s : State) (k : TileName) (x : Tile) : (s.setTile k x).mem = s.mem := rfl
@[simp] theorem State.setTile_seals (s : State) (k : TileName) (x : Tile) : (s.setTile k x).seals = s.seals := rfl
@[simp] theorem State.setTile_majors (s : State) (k : TileName) (x : Tile) : (s.setTile k x).majors = s.majors := rfl
@[simp] theorem State.setTile_ecc (s : State) (k : TileName) (x : Tile) : (s.setTile k x).ecc = s.ecc := rfl
@[simp] theorem State.setTile_cores (s : State) (k : TileName) (x : Tile) : (s.setTile k x).cores = s.cores := rfl
@[simp] theorem State.setTile_mapgen (s : State) (k : TileName) (x : Tile) : (s.setTile k x).mapgen = s.mapgen := rfl
@[simp] theorem State.setTile_islands (s : State) (k : TileName) (x : Tile) : (s.setTile k x).islands = s.islands := rfl
@[simp] theorem State.setTile_stations (s : State) (k : TileName) (x : Tile) : (s.setTile k x).stations = s.stations := rfl
@[simp] theorem State.setTile_bulks (s : State) (k : TileName) (x : Tile) : (s.setTile k x).bulks = s.bulks := rfl
@[simp] theorem State.setTile_domains (s : State) (k : TileName) (x : Tile) : (s.setTile k x).domains = s.domains := rfl
@[simp] theorem State.setTile_packets (s : State) (k : TileName) (x : Tile) : (s.setTile k x).packets = s.packets := rfl
@[simp] theorem State.setTile_routers (s : State) (k : TileName) (x : Tile) : (s.setTile k x).routers = s.routers := rfl
@[simp] theorem State.setTile_routes (s : State) (k : TileName) (x : Tile) : (s.setTile k x).routes = s.routes := rfl
@[simp] theorem State.setTile_stationOf (s : State) (k : TileName) (x : Tile) : (s.setTile k x).stationOf = s.stationOf := rfl
@[simp] theorem State.setTile_lanes (s : State) (k : TileName) (x : Tile) : (s.setTile k x).lanes = s.lanes := rfl
@[simp] theorem State.setTile_watches (s : State) (k : TileName) (x : Tile) : (s.setTile k x).watches = s.watches := rfl
@[simp] theorem State.setTile_wires (s : State) (k : TileName) (x : Tile) : (s.setTile k x).wires = s.wires := rfl
@[simp] theorem State.setTile_groups (s : State) (k : TileName) (x : Tile) : (s.setTile k x).groups = s.groups := rfl
@[simp] theorem State.setTile_keys (s : State) (k : TileName) (x : Tile) : (s.setTile k x).keys = s.keys := rfl
@[simp] theorem State.setTile_ksel (s : State) (k : TileName) (x : Tile) : (s.setTile k x).ksel = s.ksel := rfl
@[simp] theorem State.setTile_regions (s : State) (k : TileName) (x : Tile) : (s.setTile k x).regions = s.regions := rfl
@[simp] theorem State.setTile_scrubs (s : State) (k : TileName) (x : Tile) : (s.setTile k x).scrubs = s.scrubs := rfl
@[simp] theorem State.setTile_migs (s : State) (k : TileName) (x : Tile) : (s.setTile k x).migs = s.migs := rfl
@[simp] theorem State.setTile_office (s : State) (k : TileName) (x : Tile) : (s.setTile k x).office = s.office := rfl
@[simp] theorem State.setTile_jobs (s : State) (k : TileName) (x : Tile) : (s.setTile k x).jobs = s.jobs := rfl
@[simp] theorem State.setTile_hostQueues (s : State) (k : TileName) (x : Tile) : (s.setTile k x).hostQueues = s.hostQueues := rfl
@[simp] theorem State.setTile_ports (s : State) (k : TileName) (x : Tile) : (s.setTile k x).ports = s.ports := rfl
@[simp] theorem State.setTile_power (s : State) (k : TileName) (x : Tile) : (s.setTile k x).power = s.power := rfl
@[simp] theorem State.setTile_progress (s : State) (k : TileName) (x : Tile) : (s.setTile k x).progress = s.progress := rfl
@[simp] theorem State.setTile_time (s : State) (k : TileName) (x : Tile) : (s.setTile k x).time = s.time := rfl
@[simp] theorem State.setTile_serial (s : State) (k : TileName) (x : Tile) : (s.setTile k x).serial = s.serial := rfl
@[simp] theorem State.setTile_free (s : State) (k : TileName) (x : Tile) : (s.setTile k x).free = s.free := rfl
@[simp] theorem State.tile_setTile_same (s : State) (k : TileName) (x : Tile) : (s.setTile k x).tile k = x := by
  simp [State.tile, State.setTile]
theorem State.tile_setTile_other (s : State) {k j : TileName} (x : Tile) (h : j ≠ k) : (s.setTile k x).tile j = s.tile j := by
  simp [State.tile, State.setTile, Sparse.get_put_other _ _ h]
@[simp] theorem State.setTile_setTile (s : State) (k : TileName) (x y : Tile) : (s.setTile k x).setTile k y = s.setTile k y := by
  simp [State.setTile]
@[simp] theorem State.island_setTile (s : State) (k : TileName) (x : Tile) (j : Nat) : (s.setTile k x).island j = s.island j := rfl
@[simp] theorem State.station_setTile (s : State) (k : TileName) (x : Tile) (j : Nat) : (s.setTile k x).station j = s.station j := rfl
@[simp] theorem State.bulk_setTile (s : State) (k : TileName) (x : Tile) (j : Nat) : (s.setTile k x).bulk j = s.bulk j := rfl
@[simp] theorem State.router_setTile (s : State) (k : TileName) (x : Tile) (j : Nat) : (s.setTile k x).router j = s.router j := rfl

/-! ## `setIsland` -/

@[simp] theorem State.setIsland_agenda (s : State) (k : BulkId) (x : Island) : (s.setIsland k x).agenda = s.agenda := rfl
@[simp] theorem State.setIsland_focus (s : State) (k : BulkId) (x : Island) : (s.setIsland k x).focus = s.focus := rfl
@[simp] theorem State.setIsland_cur (s : State) (k : BulkId) (x : Island) : (s.setIsland k x).cur = s.cur := rfl
@[simp] theorem State.setIsland_iw (s : State) (k : BulkId) (x : Island) : (s.setIsland k x).iw = s.iw := rfl
@[simp] theorem State.setIsland_mem (s : State) (k : BulkId) (x : Island) : (s.setIsland k x).mem = s.mem := rfl
@[simp] theorem State.setIsland_seals (s : State) (k : BulkId) (x : Island) : (s.setIsland k x).seals = s.seals := rfl
@[simp] theorem State.setIsland_majors (s : State) (k : BulkId) (x : Island) : (s.setIsland k x).majors = s.majors := rfl
@[simp] theorem State.setIsland_ecc (s : State) (k : BulkId) (x : Island) : (s.setIsland k x).ecc = s.ecc := rfl
@[simp] theorem State.setIsland_cores (s : State) (k : BulkId) (x : Island) : (s.setIsland k x).cores = s.cores := rfl
@[simp] theorem State.setIsland_mapgen (s : State) (k : BulkId) (x : Island) : (s.setIsland k x).mapgen = s.mapgen := rfl
@[simp] theorem State.setIsland_tiles (s : State) (k : BulkId) (x : Island) : (s.setIsland k x).tiles = s.tiles := rfl
@[simp] theorem State.setIsland_stations (s : State) (k : BulkId) (x : Island) : (s.setIsland k x).stations = s.stations := rfl
@[simp] theorem State.setIsland_bulks (s : State) (k : BulkId) (x : Island) : (s.setIsland k x).bulks = s.bulks := rfl
@[simp] theorem State.setIsland_domains (s : State) (k : BulkId) (x : Island) : (s.setIsland k x).domains = s.domains := rfl
@[simp] theorem State.setIsland_packets (s : State) (k : BulkId) (x : Island) : (s.setIsland k x).packets = s.packets := rfl
@[simp] theorem State.setIsland_routers (s : State) (k : BulkId) (x : Island) : (s.setIsland k x).routers = s.routers := rfl
@[simp] theorem State.setIsland_routes (s : State) (k : BulkId) (x : Island) : (s.setIsland k x).routes = s.routes := rfl
@[simp] theorem State.setIsland_stationOf (s : State) (k : BulkId) (x : Island) : (s.setIsland k x).stationOf = s.stationOf := rfl
@[simp] theorem State.setIsland_lanes (s : State) (k : BulkId) (x : Island) : (s.setIsland k x).lanes = s.lanes := rfl
@[simp] theorem State.setIsland_watches (s : State) (k : BulkId) (x : Island) : (s.setIsland k x).watches = s.watches := rfl
@[simp] theorem State.setIsland_wires (s : State) (k : BulkId) (x : Island) : (s.setIsland k x).wires = s.wires := rfl
@[simp] theorem State.setIsland_groups (s : State) (k : BulkId) (x : Island) : (s.setIsland k x).groups = s.groups := rfl
@[simp] theorem State.setIsland_keys (s : State) (k : BulkId) (x : Island) : (s.setIsland k x).keys = s.keys := rfl
@[simp] theorem State.setIsland_ksel (s : State) (k : BulkId) (x : Island) : (s.setIsland k x).ksel = s.ksel := rfl
@[simp] theorem State.setIsland_regions (s : State) (k : BulkId) (x : Island) : (s.setIsland k x).regions = s.regions := rfl
@[simp] theorem State.setIsland_scrubs (s : State) (k : BulkId) (x : Island) : (s.setIsland k x).scrubs = s.scrubs := rfl
@[simp] theorem State.setIsland_migs (s : State) (k : BulkId) (x : Island) : (s.setIsland k x).migs = s.migs := rfl
@[simp] theorem State.setIsland_office (s : State) (k : BulkId) (x : Island) : (s.setIsland k x).office = s.office := rfl
@[simp] theorem State.setIsland_jobs (s : State) (k : BulkId) (x : Island) : (s.setIsland k x).jobs = s.jobs := rfl
@[simp] theorem State.setIsland_hostQueues (s : State) (k : BulkId) (x : Island) : (s.setIsland k x).hostQueues = s.hostQueues := rfl
@[simp] theorem State.setIsland_ports (s : State) (k : BulkId) (x : Island) : (s.setIsland k x).ports = s.ports := rfl
@[simp] theorem State.setIsland_power (s : State) (k : BulkId) (x : Island) : (s.setIsland k x).power = s.power := rfl
@[simp] theorem State.setIsland_progress (s : State) (k : BulkId) (x : Island) : (s.setIsland k x).progress = s.progress := rfl
@[simp] theorem State.setIsland_time (s : State) (k : BulkId) (x : Island) : (s.setIsland k x).time = s.time := rfl
@[simp] theorem State.setIsland_serial (s : State) (k : BulkId) (x : Island) : (s.setIsland k x).serial = s.serial := rfl
@[simp] theorem State.setIsland_free (s : State) (k : BulkId) (x : Island) : (s.setIsland k x).free = s.free := rfl
@[simp] theorem State.island_setIsland_same (s : State) (k : BulkId) (x : Island) : (s.setIsland k x).island k = x := by
  simp [State.island, State.setIsland]
theorem State.island_setIsland_other (s : State) {k j : BulkId} (x : Island) (h : j ≠ k) : (s.setIsland k x).island j = s.island j := by
  simp [State.island, State.setIsland, Sparse.get_put_other _ _ h]
@[simp] theorem State.setIsland_setIsland (s : State) (k : BulkId) (x y : Island) : (s.setIsland k x).setIsland k y = s.setIsland k y := by
  simp [State.setIsland]
@[simp] theorem State.tile_setIsland (s : State) (k : BulkId) (x : Island) (j : Nat) : (s.setIsland k x).tile j = s.tile j := rfl
@[simp] theorem State.station_setIsland (s : State) (k : BulkId) (x : Island) (j : Nat) : (s.setIsland k x).station j = s.station j := rfl
@[simp] theorem State.bulk_setIsland (s : State) (k : BulkId) (x : Island) (j : Nat) : (s.setIsland k x).bulk j = s.bulk j := rfl
@[simp] theorem State.router_setIsland (s : State) (k : BulkId) (x : Island) (j : Nat) : (s.setIsland k x).router j = s.router j := rfl

/-! ## `setStation` -/

@[simp] theorem State.setStation_agenda (s : State) (k : BulkId) (x : Station) : (s.setStation k x).agenda = s.agenda := rfl
@[simp] theorem State.setStation_focus (s : State) (k : BulkId) (x : Station) : (s.setStation k x).focus = s.focus := rfl
@[simp] theorem State.setStation_cur (s : State) (k : BulkId) (x : Station) : (s.setStation k x).cur = s.cur := rfl
@[simp] theorem State.setStation_iw (s : State) (k : BulkId) (x : Station) : (s.setStation k x).iw = s.iw := rfl
@[simp] theorem State.setStation_mem (s : State) (k : BulkId) (x : Station) : (s.setStation k x).mem = s.mem := rfl
@[simp] theorem State.setStation_seals (s : State) (k : BulkId) (x : Station) : (s.setStation k x).seals = s.seals := rfl
@[simp] theorem State.setStation_majors (s : State) (k : BulkId) (x : Station) : (s.setStation k x).majors = s.majors := rfl
@[simp] theorem State.setStation_ecc (s : State) (k : BulkId) (x : Station) : (s.setStation k x).ecc = s.ecc := rfl
@[simp] theorem State.setStation_cores (s : State) (k : BulkId) (x : Station) : (s.setStation k x).cores = s.cores := rfl
@[simp] theorem State.setStation_mapgen (s : State) (k : BulkId) (x : Station) : (s.setStation k x).mapgen = s.mapgen := rfl
@[simp] theorem State.setStation_tiles (s : State) (k : BulkId) (x : Station) : (s.setStation k x).tiles = s.tiles := rfl
@[simp] theorem State.setStation_islands (s : State) (k : BulkId) (x : Station) : (s.setStation k x).islands = s.islands := rfl
@[simp] theorem State.setStation_bulks (s : State) (k : BulkId) (x : Station) : (s.setStation k x).bulks = s.bulks := rfl
@[simp] theorem State.setStation_domains (s : State) (k : BulkId) (x : Station) : (s.setStation k x).domains = s.domains := rfl
@[simp] theorem State.setStation_packets (s : State) (k : BulkId) (x : Station) : (s.setStation k x).packets = s.packets := rfl
@[simp] theorem State.setStation_routers (s : State) (k : BulkId) (x : Station) : (s.setStation k x).routers = s.routers := rfl
@[simp] theorem State.setStation_routes (s : State) (k : BulkId) (x : Station) : (s.setStation k x).routes = s.routes := rfl
@[simp] theorem State.setStation_stationOf (s : State) (k : BulkId) (x : Station) : (s.setStation k x).stationOf = s.stationOf := rfl
@[simp] theorem State.setStation_lanes (s : State) (k : BulkId) (x : Station) : (s.setStation k x).lanes = s.lanes := rfl
@[simp] theorem State.setStation_watches (s : State) (k : BulkId) (x : Station) : (s.setStation k x).watches = s.watches := rfl
@[simp] theorem State.setStation_wires (s : State) (k : BulkId) (x : Station) : (s.setStation k x).wires = s.wires := rfl
@[simp] theorem State.setStation_groups (s : State) (k : BulkId) (x : Station) : (s.setStation k x).groups = s.groups := rfl
@[simp] theorem State.setStation_keys (s : State) (k : BulkId) (x : Station) : (s.setStation k x).keys = s.keys := rfl
@[simp] theorem State.setStation_ksel (s : State) (k : BulkId) (x : Station) : (s.setStation k x).ksel = s.ksel := rfl
@[simp] theorem State.setStation_regions (s : State) (k : BulkId) (x : Station) : (s.setStation k x).regions = s.regions := rfl
@[simp] theorem State.setStation_scrubs (s : State) (k : BulkId) (x : Station) : (s.setStation k x).scrubs = s.scrubs := rfl
@[simp] theorem State.setStation_migs (s : State) (k : BulkId) (x : Station) : (s.setStation k x).migs = s.migs := rfl
@[simp] theorem State.setStation_office (s : State) (k : BulkId) (x : Station) : (s.setStation k x).office = s.office := rfl
@[simp] theorem State.setStation_jobs (s : State) (k : BulkId) (x : Station) : (s.setStation k x).jobs = s.jobs := rfl
@[simp] theorem State.setStation_hostQueues (s : State) (k : BulkId) (x : Station) : (s.setStation k x).hostQueues = s.hostQueues := rfl
@[simp] theorem State.setStation_ports (s : State) (k : BulkId) (x : Station) : (s.setStation k x).ports = s.ports := rfl
@[simp] theorem State.setStation_power (s : State) (k : BulkId) (x : Station) : (s.setStation k x).power = s.power := rfl
@[simp] theorem State.setStation_progress (s : State) (k : BulkId) (x : Station) : (s.setStation k x).progress = s.progress := rfl
@[simp] theorem State.setStation_time (s : State) (k : BulkId) (x : Station) : (s.setStation k x).time = s.time := rfl
@[simp] theorem State.setStation_serial (s : State) (k : BulkId) (x : Station) : (s.setStation k x).serial = s.serial := rfl
@[simp] theorem State.setStation_free (s : State) (k : BulkId) (x : Station) : (s.setStation k x).free = s.free := rfl
@[simp] theorem State.station_setStation_same (s : State) (k : BulkId) (x : Station) : (s.setStation k x).station k = x := by
  simp [State.station, State.setStation]
theorem State.station_setStation_other (s : State) {k j : BulkId} (x : Station) (h : j ≠ k) : (s.setStation k x).station j = s.station j := by
  simp [State.station, State.setStation, Sparse.get_put_other _ _ h]
@[simp] theorem State.setStation_setStation (s : State) (k : BulkId) (x y : Station) : (s.setStation k x).setStation k y = s.setStation k y := by
  simp [State.setStation]
@[simp] theorem State.tile_setStation (s : State) (k : BulkId) (x : Station) (j : Nat) : (s.setStation k x).tile j = s.tile j := rfl
@[simp] theorem State.island_setStation (s : State) (k : BulkId) (x : Station) (j : Nat) : (s.setStation k x).island j = s.island j := rfl
@[simp] theorem State.bulk_setStation (s : State) (k : BulkId) (x : Station) (j : Nat) : (s.setStation k x).bulk j = s.bulk j := rfl
@[simp] theorem State.router_setStation (s : State) (k : BulkId) (x : Station) (j : Nat) : (s.setStation k x).router j = s.router j := rfl

/-! ## `setBulk` -/

@[simp] theorem State.setBulk_agenda (s : State) (k : BulkId) (x : Bulk) : (s.setBulk k x).agenda = s.agenda := rfl
@[simp] theorem State.setBulk_focus (s : State) (k : BulkId) (x : Bulk) : (s.setBulk k x).focus = s.focus := rfl
@[simp] theorem State.setBulk_cur (s : State) (k : BulkId) (x : Bulk) : (s.setBulk k x).cur = s.cur := rfl
@[simp] theorem State.setBulk_iw (s : State) (k : BulkId) (x : Bulk) : (s.setBulk k x).iw = s.iw := rfl
@[simp] theorem State.setBulk_mem (s : State) (k : BulkId) (x : Bulk) : (s.setBulk k x).mem = s.mem := rfl
@[simp] theorem State.setBulk_seals (s : State) (k : BulkId) (x : Bulk) : (s.setBulk k x).seals = s.seals := rfl
@[simp] theorem State.setBulk_majors (s : State) (k : BulkId) (x : Bulk) : (s.setBulk k x).majors = s.majors := rfl
@[simp] theorem State.setBulk_ecc (s : State) (k : BulkId) (x : Bulk) : (s.setBulk k x).ecc = s.ecc := rfl
@[simp] theorem State.setBulk_cores (s : State) (k : BulkId) (x : Bulk) : (s.setBulk k x).cores = s.cores := rfl
@[simp] theorem State.setBulk_mapgen (s : State) (k : BulkId) (x : Bulk) : (s.setBulk k x).mapgen = s.mapgen := rfl
@[simp] theorem State.setBulk_tiles (s : State) (k : BulkId) (x : Bulk) : (s.setBulk k x).tiles = s.tiles := rfl
@[simp] theorem State.setBulk_islands (s : State) (k : BulkId) (x : Bulk) : (s.setBulk k x).islands = s.islands := rfl
@[simp] theorem State.setBulk_stations (s : State) (k : BulkId) (x : Bulk) : (s.setBulk k x).stations = s.stations := rfl
@[simp] theorem State.setBulk_domains (s : State) (k : BulkId) (x : Bulk) : (s.setBulk k x).domains = s.domains := rfl
@[simp] theorem State.setBulk_packets (s : State) (k : BulkId) (x : Bulk) : (s.setBulk k x).packets = s.packets := rfl
@[simp] theorem State.setBulk_routers (s : State) (k : BulkId) (x : Bulk) : (s.setBulk k x).routers = s.routers := rfl
@[simp] theorem State.setBulk_routes (s : State) (k : BulkId) (x : Bulk) : (s.setBulk k x).routes = s.routes := rfl
@[simp] theorem State.setBulk_stationOf (s : State) (k : BulkId) (x : Bulk) : (s.setBulk k x).stationOf = s.stationOf := rfl
@[simp] theorem State.setBulk_lanes (s : State) (k : BulkId) (x : Bulk) : (s.setBulk k x).lanes = s.lanes := rfl
@[simp] theorem State.setBulk_watches (s : State) (k : BulkId) (x : Bulk) : (s.setBulk k x).watches = s.watches := rfl
@[simp] theorem State.setBulk_wires (s : State) (k : BulkId) (x : Bulk) : (s.setBulk k x).wires = s.wires := rfl
@[simp] theorem State.setBulk_groups (s : State) (k : BulkId) (x : Bulk) : (s.setBulk k x).groups = s.groups := rfl
@[simp] theorem State.setBulk_keys (s : State) (k : BulkId) (x : Bulk) : (s.setBulk k x).keys = s.keys := rfl
@[simp] theorem State.setBulk_ksel (s : State) (k : BulkId) (x : Bulk) : (s.setBulk k x).ksel = s.ksel := rfl
@[simp] theorem State.setBulk_regions (s : State) (k : BulkId) (x : Bulk) : (s.setBulk k x).regions = s.regions := rfl
@[simp] theorem State.setBulk_scrubs (s : State) (k : BulkId) (x : Bulk) : (s.setBulk k x).scrubs = s.scrubs := rfl
@[simp] theorem State.setBulk_migs (s : State) (k : BulkId) (x : Bulk) : (s.setBulk k x).migs = s.migs := rfl
@[simp] theorem State.setBulk_office (s : State) (k : BulkId) (x : Bulk) : (s.setBulk k x).office = s.office := rfl
@[simp] theorem State.setBulk_jobs (s : State) (k : BulkId) (x : Bulk) : (s.setBulk k x).jobs = s.jobs := rfl
@[simp] theorem State.setBulk_hostQueues (s : State) (k : BulkId) (x : Bulk) : (s.setBulk k x).hostQueues = s.hostQueues := rfl
@[simp] theorem State.setBulk_ports (s : State) (k : BulkId) (x : Bulk) : (s.setBulk k x).ports = s.ports := rfl
@[simp] theorem State.setBulk_power (s : State) (k : BulkId) (x : Bulk) : (s.setBulk k x).power = s.power := rfl
@[simp] theorem State.setBulk_progress (s : State) (k : BulkId) (x : Bulk) : (s.setBulk k x).progress = s.progress := rfl
@[simp] theorem State.setBulk_time (s : State) (k : BulkId) (x : Bulk) : (s.setBulk k x).time = s.time := rfl
@[simp] theorem State.setBulk_serial (s : State) (k : BulkId) (x : Bulk) : (s.setBulk k x).serial = s.serial := rfl
@[simp] theorem State.setBulk_free (s : State) (k : BulkId) (x : Bulk) : (s.setBulk k x).free = s.free := rfl
@[simp] theorem State.bulk_setBulk_same (s : State) (k : BulkId) (x : Bulk) : (s.setBulk k x).bulk k = x := by
  simp [State.bulk, State.setBulk]
theorem State.bulk_setBulk_other (s : State) {k j : BulkId} (x : Bulk) (h : j ≠ k) : (s.setBulk k x).bulk j = s.bulk j := by
  simp [State.bulk, State.setBulk, Sparse.get_put_other _ _ h]
@[simp] theorem State.setBulk_setBulk (s : State) (k : BulkId) (x y : Bulk) : (s.setBulk k x).setBulk k y = s.setBulk k y := by
  simp [State.setBulk]
@[simp] theorem State.tile_setBulk (s : State) (k : BulkId) (x : Bulk) (j : Nat) : (s.setBulk k x).tile j = s.tile j := rfl
@[simp] theorem State.island_setBulk (s : State) (k : BulkId) (x : Bulk) (j : Nat) : (s.setBulk k x).island j = s.island j := rfl
@[simp] theorem State.station_setBulk (s : State) (k : BulkId) (x : Bulk) (j : Nat) : (s.setBulk k x).station j = s.station j := rfl
@[simp] theorem State.router_setBulk (s : State) (k : BulkId) (x : Bulk) (j : Nat) : (s.setBulk k x).router j = s.router j := rfl

/-! ## `setRouter` -/

@[simp] theorem State.setRouter_agenda (s : State) (k : Nat) (x : Router) : (s.setRouter k x).agenda = s.agenda := rfl
@[simp] theorem State.setRouter_focus (s : State) (k : Nat) (x : Router) : (s.setRouter k x).focus = s.focus := rfl
@[simp] theorem State.setRouter_cur (s : State) (k : Nat) (x : Router) : (s.setRouter k x).cur = s.cur := rfl
@[simp] theorem State.setRouter_iw (s : State) (k : Nat) (x : Router) : (s.setRouter k x).iw = s.iw := rfl
@[simp] theorem State.setRouter_mem (s : State) (k : Nat) (x : Router) : (s.setRouter k x).mem = s.mem := rfl
@[simp] theorem State.setRouter_seals (s : State) (k : Nat) (x : Router) : (s.setRouter k x).seals = s.seals := rfl
@[simp] theorem State.setRouter_majors (s : State) (k : Nat) (x : Router) : (s.setRouter k x).majors = s.majors := rfl
@[simp] theorem State.setRouter_ecc (s : State) (k : Nat) (x : Router) : (s.setRouter k x).ecc = s.ecc := rfl
@[simp] theorem State.setRouter_cores (s : State) (k : Nat) (x : Router) : (s.setRouter k x).cores = s.cores := rfl
@[simp] theorem State.setRouter_mapgen (s : State) (k : Nat) (x : Router) : (s.setRouter k x).mapgen = s.mapgen := rfl
@[simp] theorem State.setRouter_tiles (s : State) (k : Nat) (x : Router) : (s.setRouter k x).tiles = s.tiles := rfl
@[simp] theorem State.setRouter_islands (s : State) (k : Nat) (x : Router) : (s.setRouter k x).islands = s.islands := rfl
@[simp] theorem State.setRouter_stations (s : State) (k : Nat) (x : Router) : (s.setRouter k x).stations = s.stations := rfl
@[simp] theorem State.setRouter_bulks (s : State) (k : Nat) (x : Router) : (s.setRouter k x).bulks = s.bulks := rfl
@[simp] theorem State.setRouter_domains (s : State) (k : Nat) (x : Router) : (s.setRouter k x).domains = s.domains := rfl
@[simp] theorem State.setRouter_packets (s : State) (k : Nat) (x : Router) : (s.setRouter k x).packets = s.packets := rfl
@[simp] theorem State.setRouter_routes (s : State) (k : Nat) (x : Router) : (s.setRouter k x).routes = s.routes := rfl
@[simp] theorem State.setRouter_stationOf (s : State) (k : Nat) (x : Router) : (s.setRouter k x).stationOf = s.stationOf := rfl
@[simp] theorem State.setRouter_lanes (s : State) (k : Nat) (x : Router) : (s.setRouter k x).lanes = s.lanes := rfl
@[simp] theorem State.setRouter_watches (s : State) (k : Nat) (x : Router) : (s.setRouter k x).watches = s.watches := rfl
@[simp] theorem State.setRouter_wires (s : State) (k : Nat) (x : Router) : (s.setRouter k x).wires = s.wires := rfl
@[simp] theorem State.setRouter_groups (s : State) (k : Nat) (x : Router) : (s.setRouter k x).groups = s.groups := rfl
@[simp] theorem State.setRouter_keys (s : State) (k : Nat) (x : Router) : (s.setRouter k x).keys = s.keys := rfl
@[simp] theorem State.setRouter_ksel (s : State) (k : Nat) (x : Router) : (s.setRouter k x).ksel = s.ksel := rfl
@[simp] theorem State.setRouter_regions (s : State) (k : Nat) (x : Router) : (s.setRouter k x).regions = s.regions := rfl
@[simp] theorem State.setRouter_scrubs (s : State) (k : Nat) (x : Router) : (s.setRouter k x).scrubs = s.scrubs := rfl
@[simp] theorem State.setRouter_migs (s : State) (k : Nat) (x : Router) : (s.setRouter k x).migs = s.migs := rfl
@[simp] theorem State.setRouter_office (s : State) (k : Nat) (x : Router) : (s.setRouter k x).office = s.office := rfl
@[simp] theorem State.setRouter_jobs (s : State) (k : Nat) (x : Router) : (s.setRouter k x).jobs = s.jobs := rfl
@[simp] theorem State.setRouter_hostQueues (s : State) (k : Nat) (x : Router) : (s.setRouter k x).hostQueues = s.hostQueues := rfl
@[simp] theorem State.setRouter_ports (s : State) (k : Nat) (x : Router) : (s.setRouter k x).ports = s.ports := rfl
@[simp] theorem State.setRouter_power (s : State) (k : Nat) (x : Router) : (s.setRouter k x).power = s.power := rfl
@[simp] theorem State.setRouter_progress (s : State) (k : Nat) (x : Router) : (s.setRouter k x).progress = s.progress := rfl
@[simp] theorem State.setRouter_time (s : State) (k : Nat) (x : Router) : (s.setRouter k x).time = s.time := rfl
@[simp] theorem State.setRouter_serial (s : State) (k : Nat) (x : Router) : (s.setRouter k x).serial = s.serial := rfl
@[simp] theorem State.setRouter_free (s : State) (k : Nat) (x : Router) : (s.setRouter k x).free = s.free := rfl
@[simp] theorem State.router_setRouter_same (s : State) (k : Nat) (x : Router) : (s.setRouter k x).router k = x := by
  simp [State.router, State.setRouter]
theorem State.router_setRouter_other (s : State) {k j : Nat} (x : Router) (h : j ≠ k) : (s.setRouter k x).router j = s.router j := by
  simp [State.router, State.setRouter, Sparse.get_put_other _ _ h]
@[simp] theorem State.setRouter_setRouter (s : State) (k : Nat) (x y : Router) : (s.setRouter k x).setRouter k y = s.setRouter k y := by
  simp [State.setRouter]
@[simp] theorem State.tile_setRouter (s : State) (k : Nat) (x : Router) (j : Nat) : (s.setRouter k x).tile j = s.tile j := rfl
@[simp] theorem State.island_setRouter (s : State) (k : Nat) (x : Router) (j : Nat) : (s.setRouter k x).island j = s.island j := rfl
@[simp] theorem State.station_setRouter (s : State) (k : Nat) (x : Router) (j : Nat) : (s.setRouter k x).station j = s.station j := rfl
@[simp] theorem State.bulk_setRouter (s : State) (k : Nat) (x : Router) (j : Nat) : (s.setRouter k x).bulk j = s.bulk j := rfl

/-! ## Tiles, slots, cores -/

theorem State.onTile_eq (s : State) (t : TileName) (f : Tile → Tile) : s.onTile t f = s.setTile t (f (s.tile t)) := rfl
theorem State.onIsland_eq (s : State) (b : BulkId) (f : Island → Island) : s.onIsland b f = s.setIsland b (f (s.island b)) := rfl
theorem State.onStation_eq (s : State) (b : BulkId) (f : Station → Station) :
    s.onStation b f = s.setStation b (f (s.station b)) := rfl
theorem State.onBulk_eq (s : State) (b : BulkId) (f : Bulk → Bulk) : s.onBulk b f = s.setBulk b (f (s.bulk b)) := rfl
theorem State.onSlot_eq (s : State) (t : TileName) (k : BitVec 2) (f : Slot → Slot) :
    s.onSlot t k f = s.setTile t ((s.tile t).setSlot k (f ((s.tile t).slot k))) := rfl
theorem State.onCore_eq (s : State) (b : BulkId) (c : BitVec 3) (f : PCore → PCore) :
    s.onCore b c f = s.setIsland b ((s.island b).setCore c (f ((s.island b).core c))) := rfl

@[simp] theorem Tile.slot_setSlot_same (x : Tile) (k : BitVec 2) (v : Slot) : (x.setSlot k v).slot k = v := by
  simp [Tile.slot, Tile.setSlot]

theorem Tile.slot_setSlot_other (x : Tile) {k j : BitVec 2} (v : Slot) (h : j ≠ k) :
    (x.setSlot k v).slot j = x.slot j := by
  have h' : k.toNat ≠ j.toNat := fun e => h (BitVec.eq_of_toNat_eq e.symm)
  simp [Tile.slot, Tile.setSlot, Vector.getElem_set_ne, h']

@[simp] theorem Tile.setSlot_setSlot (x : Tile) (k : BitVec 2) (v w : Slot) : (x.setSlot k v).setSlot k w = x.setSlot k w := by
  simp [Tile.setSlot]

@[simp] theorem Island.core_setCore_same (x : Island) (c : BitVec 3) (v : PCore) : (x.setCore c v).core c = v := by
  simp [Island.core, Island.setCore]

theorem Island.core_setCore_other (x : Island) {c d : BitVec 3} (v : PCore) (h : d ≠ c) :
    (x.setCore c v).core d = x.core d := by
  have h' : c.toNat ≠ d.toNat := fun e => h (BitVec.eq_of_toNat_eq e.symm)
  simp [Island.core, Island.setCore, Vector.getElem_set_ne, h']

@[simp] theorem Island.setCore_setCore (x : Island) (c : BitVec 3) (v w : PCore) : (x.setCore c v).setCore c w = x.setCore c w := by
  simp [Island.setCore]

@[simp] theorem Tile.setSlot_ptr (x : Tile) (k : BitVec 2) (v : Slot) : (x.setSlot k v).ptr = x.ptr := rfl
@[simp] theorem Tile.setSlot_queues (x : Tile) (k : BitVec 2) (v : Slot) : (x.setSlot k v).queues = x.queues := rfl
@[simp] theorem Tile.setSlot_bindings (x : Tile) (k : BitVec 2) (v : Slot) : (x.setSlot k v).bindings = x.bindings := rfl
@[simp] theorem Tile.setSlot_rows (x : Tile) (k : BitVec 2) (v : Slot) : (x.setSlot k v).rows = x.rows := rfl
@[simp] theorem Tile.setSlot_drafts (x : Tile) (k : BitVec 2) (v : Slot) : (x.setSlot k v).drafts = x.drafts := rfl
@[simp] theorem Tile.setSlot_mail (x : Tile) (k : BitVec 2) (v : Slot) : (x.setSlot k v).mail = x.mail := rfl
@[simp] theorem Tile.setSlot_mailHead (x : Tile) (k : BitVec 2) (v : Slot) : (x.setSlot k v).mailHead = x.mailHead := rfl
@[simp] theorem Tile.setSlot_pid (x : Tile) (k : BitVec 2) (v : Slot) : (x.setSlot k v).pid = x.pid := rfl
@[simp] theorem Tile.setSlot_trapctl (x : Tile) (k : BitVec 2) (v : Slot) : (x.setSlot k v).trapctl = x.trapctl := rfl
@[simp] theorem Tile.setSlot_rcMask (x : Tile) (k : BitVec 2) (v : Slot) : (x.setSlot k v).rcMask = x.rcMask := rfl
@[simp] theorem Tile.setSlot_fails (x : Tile) (k : BitVec 2) (v : Slot) : (x.setSlot k v).fails = x.fails := rfl
@[simp] theorem Tile.setSlot_outst (x : Tile) (k : BitVec 2) (v : Slot) : (x.setSlot k v).outst = x.outst := rfl
@[simp] theorem Tile.setSlot_dbgCtl (x : Tile) (k : BitVec 2) (v : Slot) : (x.setSlot k v).dbgCtl = x.dbgCtl := rfl
@[simp] theorem Tile.setSlot_dbgCount (x : Tile) (k : BitVec 2) (v : Slot) : (x.setSlot k v).dbgCount = x.dbgCount := rfl
@[simp] theorem Tile.setSlot_dbgActive (x : Tile) (k : BitVec 2) (v : Slot) : (x.setSlot k v).dbgActive = x.dbgActive := rfl
@[simp] theorem Tile.setSlot_dbgOf (x : Tile) (k : BitVec 2) (v : Slot) : (x.setSlot k v).dbgOf = x.dbgOf := rfl
@[simp] theorem Tile.setSlot_dbgFirst (x : Tile) (k : BitVec 2) (v : Slot) : (x.setSlot k v).dbgFirst = x.dbgFirst := rfl
@[simp] theorem Tile.setSlot_dbgOwed (x : Tile) (k : BitVec 2) (v : Slot) : (x.setSlot k v).dbgOwed = x.dbgOwed := rfl
@[simp] theorem Tile.setSlot_pre (x : Tile) (k : BitVec 2) (v : Slot) : (x.setSlot k v).pre = x.pre := rfl
@[simp] theorem Tile.setSlot_preSave (x : Tile) (k : BitVec 2) (v : Slot) : (x.setSlot k v).preSave = x.preSave := rfl
@[simp] theorem Tile.setSlot_preDone (x : Tile) (k : BitVec 2) (v : Slot) : (x.setSlot k v).preDone = x.preDone := rfl
@[simp] theorem Tile.setSlot_preErr (x : Tile) (k : BitVec 2) (v : Slot) : (x.setSlot k v).preErr = x.preErr := rfl
@[simp] theorem Tile.setSlot_image (x : Tile) (k : BitVec 2) (v : Slot) : (x.setSlot k v).image = x.image := rfl
@[simp] theorem Tile.setSlot_groupIds (x : Tile) (k : BitVec 2) (v : Slot) : (x.setSlot k v).groupIds = x.groupIds := rfl
@[simp] theorem Tile.setSlot_groupMask (x : Tile) (k : BitVec 2) (v : Slot) : (x.setSlot k v).groupMask = x.groupMask := rfl
@[simp] theorem Tile.setSlot_offTile (x : Tile) (k : BitVec 2) (v : Slot) : (x.setSlot k v).offTile = x.offTile := rfl
@[simp] theorem Tile.setSlot_sysOut (x : Tile) (k : BitVec 2) (v : Slot) : (x.setSlot k v).sysOut = x.sysOut := rfl
@[simp] theorem Tile.setSlot_code (x : Tile) (k : BitVec 2) (v : Slot) : (x.setSlot k v).code = x.code := rfl
@[simp] theorem Tile.setSlot_cancel (x : Tile) (k : BitVec 2) (v : Slot) : (x.setSlot k v).cancel = x.cancel := rfl
@[simp] theorem Tile.setSlot_arrived (x : Tile) (k : BitVec 2) (v : Slot) : (x.setSlot k v).arrived = x.arrived := rfl
@[simp] theorem Tile.setSlot_shareAdds (x : Tile) (k : BitVec 2) (v : Slot) : (x.setSlot k v).shareAdds = x.shareAdds := rfl
@[simp] theorem Tile.setSlot_vq (x : Tile) (k : BitVec 2) (v : Slot) : (x.setSlot k v).vq = x.vq := rfl
@[simp] theorem Tile.setSlot_mat (x : Tile) (k : BitVec 2) (v : Slot) : (x.setSlot k v).mat = x.mat := rfl
@[simp] theorem Tile.setSlot_fab (x : Tile) (k : BitVec 2) (v : Slot) : (x.setSlot k v).fab = x.fab := rfl
@[simp] theorem Tile.setSlot_recs (x : Tile) (k : BitVec 2) (v : Slot) : (x.setSlot k v).recs = x.recs := rfl
@[simp] theorem Tile.setSlot_sq (x : Tile) (k : BitVec 2) (v : Slot) : (x.setSlot k v).sq = x.sq := rfl
@[simp] theorem Tile.setSlot_lvl (x : Tile) (k : BitVec 2) (v : Slot) : (x.setSlot k v).lvl = x.lvl := rfl
@[simp] theorem Tile.setQueue_slots (x : Tile) (q : QNum) (v : Queue) : (x.setQueue q v).slots = x.slots := rfl
@[simp] theorem Tile.setQueue_ptr (x : Tile) (q : QNum) (v : Queue) : (x.setQueue q v).ptr = x.ptr := rfl
@[simp] theorem Tile.setQueue_bindings (x : Tile) (q : QNum) (v : Queue) : (x.setQueue q v).bindings = x.bindings := rfl
@[simp] theorem Tile.setQueue_rows (x : Tile) (q : QNum) (v : Queue) : (x.setQueue q v).rows = x.rows := rfl
@[simp] theorem Tile.setQueue_drafts (x : Tile) (q : QNum) (v : Queue) : (x.setQueue q v).drafts = x.drafts := rfl
@[simp] theorem Tile.setQueue_mail (x : Tile) (q : QNum) (v : Queue) : (x.setQueue q v).mail = x.mail := rfl
@[simp] theorem Tile.setQueue_mailHead (x : Tile) (q : QNum) (v : Queue) : (x.setQueue q v).mailHead = x.mailHead := rfl
@[simp] theorem Tile.setQueue_pid (x : Tile) (q : QNum) (v : Queue) : (x.setQueue q v).pid = x.pid := rfl
@[simp] theorem Tile.setQueue_trapctl (x : Tile) (q : QNum) (v : Queue) : (x.setQueue q v).trapctl = x.trapctl := rfl
@[simp] theorem Tile.setQueue_rcMask (x : Tile) (q : QNum) (v : Queue) : (x.setQueue q v).rcMask = x.rcMask := rfl
@[simp] theorem Tile.setQueue_fails (x : Tile) (q : QNum) (v : Queue) : (x.setQueue q v).fails = x.fails := rfl
@[simp] theorem Tile.setQueue_outst (x : Tile) (q : QNum) (v : Queue) : (x.setQueue q v).outst = x.outst := rfl
@[simp] theorem Tile.setQueue_dbgCtl (x : Tile) (q : QNum) (v : Queue) : (x.setQueue q v).dbgCtl = x.dbgCtl := rfl
@[simp] theorem Tile.setQueue_dbgCount (x : Tile) (q : QNum) (v : Queue) : (x.setQueue q v).dbgCount = x.dbgCount := rfl
@[simp] theorem Tile.setQueue_dbgActive (x : Tile) (q : QNum) (v : Queue) : (x.setQueue q v).dbgActive = x.dbgActive := rfl
@[simp] theorem Tile.setQueue_dbgOf (x : Tile) (q : QNum) (v : Queue) : (x.setQueue q v).dbgOf = x.dbgOf := rfl
@[simp] theorem Tile.setQueue_dbgFirst (x : Tile) (q : QNum) (v : Queue) : (x.setQueue q v).dbgFirst = x.dbgFirst := rfl
@[simp] theorem Tile.setQueue_dbgOwed (x : Tile) (q : QNum) (v : Queue) : (x.setQueue q v).dbgOwed = x.dbgOwed := rfl
@[simp] theorem Tile.setQueue_pre (x : Tile) (q : QNum) (v : Queue) : (x.setQueue q v).pre = x.pre := rfl
@[simp] theorem Tile.setQueue_preSave (x : Tile) (q : QNum) (v : Queue) : (x.setQueue q v).preSave = x.preSave := rfl
@[simp] theorem Tile.setQueue_preDone (x : Tile) (q : QNum) (v : Queue) : (x.setQueue q v).preDone = x.preDone := rfl
@[simp] theorem Tile.setQueue_preErr (x : Tile) (q : QNum) (v : Queue) : (x.setQueue q v).preErr = x.preErr := rfl
@[simp] theorem Tile.setQueue_image (x : Tile) (q : QNum) (v : Queue) : (x.setQueue q v).image = x.image := rfl
@[simp] theorem Tile.setQueue_groupIds (x : Tile) (q : QNum) (v : Queue) : (x.setQueue q v).groupIds = x.groupIds := rfl
@[simp] theorem Tile.setQueue_groupMask (x : Tile) (q : QNum) (v : Queue) : (x.setQueue q v).groupMask = x.groupMask := rfl
@[simp] theorem Tile.setQueue_offTile (x : Tile) (q : QNum) (v : Queue) : (x.setQueue q v).offTile = x.offTile := rfl
@[simp] theorem Tile.setQueue_sysOut (x : Tile) (q : QNum) (v : Queue) : (x.setQueue q v).sysOut = x.sysOut := rfl
@[simp] theorem Tile.setQueue_code (x : Tile) (q : QNum) (v : Queue) : (x.setQueue q v).code = x.code := rfl
@[simp] theorem Tile.setQueue_cancel (x : Tile) (q : QNum) (v : Queue) : (x.setQueue q v).cancel = x.cancel := rfl
@[simp] theorem Tile.setQueue_arrived (x : Tile) (q : QNum) (v : Queue) : (x.setQueue q v).arrived = x.arrived := rfl
@[simp] theorem Tile.setQueue_shareAdds (x : Tile) (q : QNum) (v : Queue) : (x.setQueue q v).shareAdds = x.shareAdds := rfl
@[simp] theorem Tile.setQueue_vq (x : Tile) (q : QNum) (v : Queue) : (x.setQueue q v).vq = x.vq := rfl
@[simp] theorem Tile.setQueue_mat (x : Tile) (q : QNum) (v : Queue) : (x.setQueue q v).mat = x.mat := rfl
@[simp] theorem Tile.setQueue_fab (x : Tile) (q : QNum) (v : Queue) : (x.setQueue q v).fab = x.fab := rfl
@[simp] theorem Tile.setQueue_recs (x : Tile) (q : QNum) (v : Queue) : (x.setQueue q v).recs = x.recs := rfl
@[simp] theorem Tile.setQueue_sq (x : Tile) (q : QNum) (v : Queue) : (x.setQueue q v).sq = x.sq := rfl
@[simp] theorem Tile.setQueue_lvl (x : Tile) (q : QNum) (v : Queue) : (x.setQueue q v).lvl = x.lvl := rfl

@[simp] theorem Tile.slot_setQueue (x : Tile) (q : QNum) (v : Queue) (k : BitVec 2) : (x.setQueue q v).slot k = x.slot k := rfl
@[simp] theorem Tile.queue_setSlot (x : Tile) (k : BitVec 2) (v : Slot) (q : QNum) : (x.setSlot k v).queue q = x.queue q := rfl

@[simp] theorem Tile.queue_setQueue_same (x : Tile) (q : QNum) (v : Queue) : (x.setQueue q v).queue q = v := by
  simp [Tile.queue, Tile.setQueue]

theorem Tile.queue_setQueue_other (x : Tile) {q r : QNum} (v : Queue) (h : r ≠ q) : (x.setQueue q v).queue r = x.queue r := by
  have h' : q.toNat ≠ r.toNat := fun e => h (BitVec.eq_of_toNat_eq e.symm)
  simp [Tile.queue, Tile.setQueue, Vector.getElem_set_ne, h']

/-! ## The context of the executing agent -/

@[simp] theorem State.setCtxOf_cur (s : State) (ag : Agent) (c : Ctx) : (s.setCtxOf ag c).cur = s.cur := by
  cases ag <;> rfl
@[simp] theorem State.setCtxOf_mem (s : State) (ag : Agent) (c : Ctx) : (s.setCtxOf ag c).mem = s.mem := by
  cases ag <;> rfl
@[simp] theorem State.setCtxOf_iw (s : State) (ag : Agent) (c : Ctx) : (s.setCtxOf ag c).iw = s.iw := by
  cases ag <;> rfl

@[simp] theorem State.ctxOf_setCtxOf (s : State) (ag : Agent) (c : Ctx) : (s.setCtxOf ag c).ctxOf ag = c := by
  cases ag <;> simp [State.setCtxOf, State.ctxOf, State.slot, State.core, State.onSlot_eq, State.onCore_eq]

@[simp] theorem State.setCtxOf_setCtxOf (s : State) (ag : Agent) (c d : Ctx) :
    (s.setCtxOf ag c).setCtxOf ag d = s.setCtxOf ag d := by
  cases ag <;> simp [State.setCtxOf, State.onSlot_eq, State.onCore_eq]

@[simp] theorem State.setCtx_cur (s : State) (c : Ctx) : (s.setCtx c).cur = s.cur := by simp [State.setCtx]
@[simp] theorem State.setCtx_mem (s : State) (c : Ctx) : (s.setCtx c).mem = s.mem := by simp [State.setCtx]
@[simp] theorem State.setCtx_iw (s : State) (c : Ctx) : (s.setCtx c).iw = s.iw := by simp [State.setCtx]
@[simp] theorem State.ctx_setCtx (s : State) (c : Ctx) : (s.setCtx c).ctx = c := by simp [State.setCtx, State.ctx]
@[simp] theorem State.setCtx_setCtx (s : State) (c d : Ctx) : (s.setCtx c).setCtx d = s.setCtx d := by
  simp [State.setCtx]

theorem State.onCtx_eq (s : State) (f : Ctx → Ctx) : s.onCtx f = s.setCtx (f s.ctx) := rfl

/-! ## Registers -/

@[simp] theorem Ctx.get_zero (c : Ctx) : c.get 0 = 0 := by simp [Ctx.get]
@[simp] theorem Ctx.set_zero (c : Ctx) (v : Word) : c.set 0 v = c := by simp [Ctx.set]

theorem Ctx.get_set_same (c : Ctx) {d : Reg} (v : Word) (h : d ≠ 0) : (c.set d v).get d = v := by
  unfold Ctx.get Ctx.set
  rw [if_neg h, if_neg h]
  simp

theorem Ctx.get_set_other (c : Ctx) {d r : Reg} (v : Word) (h : r ≠ d) : (c.set d v).get r = c.get r := by
  have h' : d.toNat ≠ r.toNat := fun e => h (BitVec.eq_of_toNat_eq e.symm)
  by_cases h0 : d = 0
  · subst h0; rw [Ctx.set_zero]
  · unfold Ctx.get Ctx.set
    rw [if_neg h0]
    by_cases hr : r = 0
    · rw [if_pos hr, if_pos hr]
    · rw [if_neg hr, if_neg hr]; simp [Vector.getElem_set_ne, h']

@[simp] theorem Ctx.set_eregs (c : Ctx) (d : Reg) (v : Word) : (c.set d v).eregs = c.eregs := by unfold Ctx.set; split <;> rfl
@[simp] theorem Ctx.set_pc (c : Ctx) (d : Reg) (v : Word) : (c.set d v).pc = c.pc := by unfold Ctx.set; split <;> rfl
@[simp] theorem Ctx.set_loop0 (c : Ctx) (d : Reg) (v : Word) : (c.set d v).loop0 = c.loop0 := by unfold Ctx.set; split <;> rfl
@[simp] theorem Ctx.set_loop1 (c : Ctx) (d : Reg) (v : Word) : (c.set d v).loop1 = c.loop1 := by unfold Ctx.set; split <;> rfl
@[simp] theorem Ctx.set_loopH0 (c : Ctx) (d : Reg) (v : Word) : (c.set d v).loopH0 = c.loopH0 := by unfold Ctx.set; split <;> rfl
@[simp] theorem Ctx.set_loopH1 (c : Ctx) (d : Reg) (v : Word) : (c.set d v).loopH1 = c.loopH1 := by unfold Ctx.set; split <;> rfl
@[simp] theorem Ctx.set_wait (c : Ctx) (d : Reg) (v : Word) : (c.set d v).wait = c.wait := by unfold Ctx.set; split <;> rfl
@[simp] theorem Ctx.set_ipc (c : Ctx) (d : Reg) (v : Word) : (c.set d v).ipc = c.ipc := by unfold Ctx.set; split <;> rfl
@[simp] theorem Ctx.set_noEnd (c : Ctx) (d : Reg) (v : Word) : (c.set d v).noEnd = c.noEnd := by unfold Ctx.set; split <;> rfl
@[simp] theorem Ctx.set_pend (c : Ctx) (d : Reg) (v : Word) : (c.set d v).pend = c.pend := by unfold Ctx.set; split <;> rfl
@[simp] theorem Ctx.set_out (c : Ctx) (d : Reg) (v : Word) : (c.set d v).out = c.out := by unfold Ctx.set; split <;> rfl

end Sys2Proof.Machine
end

