-- ==== Sys2Proof/Laws/Ops.lean ====
section
/-! SUPPORT. One lemma for each shared operation, saying everything that it does. -/

namespace Sys2Proof.Machine

/-! ## Registers and the end of an instruction -/

@[simp] theorem State.setCtx_len (s : State) (c : Ctx) : (s.setCtx c).len = s.len := by
  unfold State.len State.setCtx; rw [State.setCtxOf_iw]

@[simp] theorem State.rd_zero (s : State) : s.rd 0 = 0 := Ctx.get_zero _

theorem Ctx.endOuter_regs (c : Ctx) (x next : Word) : (c.endOuter x next).regs = c.regs := by
  unfold Ctx.endOuter; split <;> [rfl; (split <;> rfl)]

theorem Ctx.endAction_regs (c : Ctx) (x next : Word) : (c.endAction x next).regs = c.regs := by
  unfold Ctx.endAction
  split
  · exact Ctx.endOuter_regs c x next
  · split
    · rfl
    · split
      · rfl
      · exact Ctx.endOuter_regs _ x next

/-- Passing an instruction changes the program counter and the loop levels alone. -/
theorem Ctx.advance_regs (c : Ctx) (len : Nat) : (c.advance len).regs = c.regs := by
  unfold Ctx.advance
  dsimp only
  split
  · rfl
  · exact Ctx.endAction_regs c _ _

/-- An instruction that only completes passes. -/
theorem State.retire_passes (s : State) : Passes s s.retire := rfl

/-- A register that is no destination reads as before. -/
theorem State.rd_put_other (s : State) {d r : Reg} (v : Word) (h : r ≠ d) : (s.put d v).rd r = s.rd r := by
  unfold State.put State.wr State.retire State.rd
  rw [State.onCtx_eq, State.ctx_setCtx, State.ctx_setCtx]
  unfold Ctx.get
  rw [Ctx.advance_regs]
  exact Ctx.get_set_other s.ctx v h

/-- The destination reads as the result. -/
theorem State.rd_put_same (s : State) {d : Reg} (v : Word) (h : d ≠ 0) : (s.put d v).rd d = v := by
  unfold State.put State.wr State.retire State.rd
  rw [State.onCtx_eq, State.ctx_setCtx, State.ctx_setCtx]
  unfold Ctx.get
  rw [Ctx.advance_regs]
  exact Ctx.get_set_same s.ctx v h

/-- A result changes the executing agent's context alone. -/
theorem State.put_mem (s : State) (d : Reg) (v : Word) : (s.put d v).mem = s.mem := by
  unfold State.put State.wr State.retire; rw [State.onCtx_eq]; simp

/-! ## Packets -/

/-- An injected packet is in the network under the next number, and every other packet is as before. -/
theorem State.inject_packet (s : State) (src dst vc flits stamp : Nat) (marked : Bool) (body : Body) :
    OnePacket s.serial (newPacket src dst vc flits stamp marked body) s (s.inject src dst vc flits stamp marked body) :=
  ⟨Sparse.find?_put_same _ _ _, fun _ h => Sparse.find?_put_other _ h _⟩

/-- Injecting a packet takes a number and flits at the source's router, and changes nothing else. -/
theorem State.inject_rest (s : State) (src dst vc flits stamp : Nat) (marked : Bool) (body : Body) :
    SameBut [.packets, .routers, .serial] s (s.inject src dst vc flits stamp marked body) := rfl

@[simp] theorem State.tile_inject (s : State) (src dst vc flits stamp : Nat) (marked : Bool) (body : Body) (t : TileName) :
    (s.inject src dst vc flits stamp marked body).tile t = s.tile t := rfl

@[simp] theorem State.inject_mem (s : State) (src dst vc flits stamp : Nat) (marked : Bool) (body : Body) :
    (s.inject src dst vc flits stamp marked body).mem = s.mem := rfl

/-! ## Progress (R341) -/

/-- Noting progress changes the record of progress alone. -/
theorem State.noteProgress_rest (s : State) (r : Nat) : SameBut [.progress] s (s.noteProgress r) := by
  unfold State.noteProgress; split <;> rfl

/-- A retirement changes the record of progress alone. -/
theorem State.retired_rest (s before : State) (ag : Agent) : SameBut [.progress] s (s.retired before ag) := by
  unfold State.retired
  split
  · exact s.noteProgress_rest _
  · split
    · exact s.noteProgress_rest _
    · rfl

/-! ## Taking a trap -/

/-- The slots of a tile after a trap, where PARKALL is 0 and no debug step runs. -/
theorem Tile.trapSlots_alone (x : Tile) (k : BitVec 2) (cause : BitVec 8) (epc eval : Word) (hp : bit x.trapctl 0 = false)
    (hs : x.dbgActive = false) (hr : (x.slot k).state = .ready) :
    x.trapSlots k cause epc eval = x.onSlot k fun y => { y with state := .parked, cause := cause, epc := epc, eval := eval } := by
  unfold Tile.trapSlots
  simp only [hp, Bool.false_eq_true, if_false]
  have e : (x.slot k).trapPark cause epc eval
      = { x.slot k with state := .parked, cause := cause, epc := epc, eval := eval } := by
    unfold Slot.trapPark Slot.park; rw [hr]
  unfold Tile.onSlot
  dsimp only
  rw [e]
  exact if_neg (by rw [Tile.setSlot_dbgActive, hs, Bool.false_and]; exact Bool.false_ne_true)

@[simp] theorem State.tile_sendRecord (s : State) (n : Nat) (r : TrapRec) (u : TileName) :
    (s.sendRecord n r).tile u = s.tile u := rfl

/-- A precise trap of a READY slot, where PARKALL is 0 and no debug step runs, is the entry that R46 and R322
describe. -/
theorem State.trap_traps {u : TileName} {k : BitVec 2} {s : State} (h : TrapReady u k s) (cause : Cause) (eval : Word) :
    Traps u k cause eval s (s.trap cause eval) := by
  have e : s.trap cause eval
      = (s.setTile u ((s.tile u).onSlot k fun y =>
          { y with state := .parked, cause := cause.code, epc := s.pc, eval := eval })).sendRecord (tileNode u)
            (slotRecord u k cause.code s.pc eval true) := by
    unfold State.trap
    rw [h.cur]
    dsimp only
    unfold State.slotTrap State.onTile slotRecord
    rw [if_neg (by rw [h.ready]; decide)]
    dsimp only
    rw [Tile.trapSlots_alone _ _ _ _ _ h.noParkAll h.noStep h.ready]
  rw [e]
  exact ⟨⟨(State.tile_sendRecord _ _ _ u).trans (State.tile_setTile_same s u _),
    fun v hv => (State.tile_sendRecord _ _ _ v).trans (State.tile_setTile_other s _ hv)⟩, State.inject_packet _ _ _ _ _ _ _ _, rfl⟩

/-- A trap on a proctor core that runs no migrated activation below level H is the entry of R302. -/
theorem State.coreTrap_enters (s : State) (b : BulkId) (c : BitVec 3) (r : TrapRec)
    (h : (s.core b c).h = true ∨ (s.core b c).home = none) :
    EntersH b c r.cause r.epc r.eval (s.core b c).hvimm s (s.coreTrap b c r) := by
  have e : s.coreTrap b c r = s.onCore b c (·.enterH r.cause r.epc r.eval) := by
    have none_of : (if (s.core b c).h then none else (s.core b c).home) = none := by
      obtain h | h := h <;> rw [h] <;> simp
    unfold State.coreTrap
    dsimp only
    rw [none_of]
  rw [e, State.onCore_eq]
  refine ⟨⟨(State.island_setIsland_same _ _ _).trans ?_, fun d hd => State.island_setIsland_other s _ hd⟩, rfl⟩
  unfold PCore.enterH
  rw [show (s.island b).core c = s.core b c from rfl]
  cases (s.core b c).h <;> cases (s.core b c).ien <;> rfl

/-! ## Bytes of memory -/

theorem mem_upFrom {j : Nat} : ∀ {n i : Nat}, j ∈ upFrom i n ↔ i ≤ j ∧ j < i + n
  | 0, i => by simp [upFrom]
  | n + 1, i => by simp [upFrom, mem_upFrom (n := n) (i := i + 1)]; omega

/-- A byte outside a written range reads as before. -/
theorem Memory.read_writeN_other (m : Memory) (k j : Nat) (bs : List Byte) (h : j < k ∨ k + bs.length ≤ j) :
    (m.writeN k bs).read j = m.read j := by
  apply Memory.read_writeAt_other
  intro b hb
  have hi : b.1 < bs.length := by
    unfold indexed at hb
    have := (List.of_mem_zip hb).1
    have := mem_upFrom.mp this
    omega
  omega

/-! ## Positions on the wafer (R6, R42) -/

theorem TileName.ret_mk (r b c : Nat) (hb : b < 128) (hc : c < 16) : TileName.ret (TileName.mk r b c) = r := by
  unfold TileName.ret TileName.mk; omega
theorem TileName.blk_mk (r b c : Nat) (hb : b < 128) (hc : c < 16) : TileName.blk (TileName.mk r b c) = b := by
  unfold TileName.blk TileName.mk; omega
theorem TileName.core_mk (r b c : Nat) (hc : c < 16) : TileName.core (TileName.mk r b c) = c := by
  unfold TileName.core TileName.mk; omega

/-- Bulkhead and coordinates of the tile at a position. -/
theorem tileAt_position (r x y : Nat) (hx : x < 48) (hy : y < 40) :
    TileName.ret (tileAt r x y) = r ∧ tileX (tileAt r x y) = x ∧ tileY (tileAt r x y) = y := by
  unfold tileAt tileX tileY
  rw [TileName.ret_mk _ _ _ (by omega) (by omega), TileName.blk_mk _ _ _ (by omega) (by omega), TileName.core_mk _ _ _ (by omega)]
  omega

theorem tileX_lt (t : TileName) : tileX t < 48 := by
  unfold tileX TileName.core; omega

/-- A neighbour is another tile. -/
theorem neighbour_ne {t u : TileName} {d : BitVec 2} (h : neighbour t d = some u) : u ≠ t := by
  rintro rfl
  have hx := tileX_lt u
  have key : ∀ x y, x < 384 → (8 * (y / 40) + x / 48 = TileName.ret u ∧ x % 48 = tileX u ∧ y % 40 = tileY u) →
      x = 48 * (TileName.ret u % 8) + tileX u ∧ y = 40 * (TileName.ret u / 8) + tileY u := fun x y _ _ => by omega
  have pos : ∀ x y, x < 384 → some (tileAt (8 * (y / 40) + x / 48) (x % 48) (y % 40)) = some u →
      x = 48 * (TileName.ret u % 8) + tileX u ∧ y = 40 * (TileName.ret u / 8) + tileY u := by
    intro x y hx h
    have p := tileAt_position (8 * (y / 40) + x / 48) (x % 48) (y % 40) (by omega) (by omega)
    rw [Option.some.inj h] at p
    exact key x y hx ⟨p.1.symm, p.2.1.symm, p.2.2.symm⟩
  unfold neighbour at h
  dsimp only at h
  split at h <;> split at h <;> first | cases h | (have := pos _ _ (by omega) h; omega)

end Sys2Proof.Machine
end

