-- ==== Sys2Proof/Laws/PerInstr.lean ====
section
/-! SUPPORT. Statements per instruction. The family Framed: the two low bits of an instruction's word name its length
(R101, R106, R116): 3 for a word of 32 bits, less for a halfword; an event has no word. -/

namespace Sys2Proof.Laws

/-- The two low bits of an appended word are its last two. -/
theorem low_two {n : Nat} (x : BitVec n) (y : BitVec 2) : bitsAt (x ++ y) 0 2 = y := by
  apply BitVec.eq_of_getLsbD_eq
  intro i hi
  simp [bitsAt, BitVec.getLsbD_append, hi]

/-- A halfword whose two low bits are not 3 is compact. -/
theorem compact_of_low {n : Nat} (x : BitVec n) (y : BitVec 2) (h : BitVec 16) (e : bitsAt h 0 2 = bitsAt (x ++ y) 0 2)
    (hy : (y == 3#2) = false) : isWide h = false := by
  rw [isWide, e, low_two, hy]

/-- An instruction's word says its own length. -/
def Framed.Statement (i : Instr) : Prop :=
  match encode i with
  | .wide w => bitsAt w 0 2 = 3#2
  | .compact h => isWide h = false
  | .none => True

theorem Framed.add (d a b : Reg) : Framed.Statement (.add d a b) := low_two _ _
theorem Framed.sub (d a b : Reg) : Framed.Statement (.sub d a b) := low_two _ _
theorem Framed.and (d a b : Reg) : Framed.Statement (.and d a b) := low_two _ _
theorem Framed.or (d a b : Reg) : Framed.Statement (.or d a b) := low_two _ _
theorem Framed.xor (d a b : Reg) : Framed.Statement (.xor d a b) := low_two _ _
theorem Framed.andn (d a b : Reg) : Framed.Statement (.andn d a b) := low_two _ _
theorem Framed.shl (d a b : Reg) : Framed.Statement (.shl d a b) := low_two _ _
theorem Framed.shr (d a b : Reg) : Framed.Statement (.shr d a b) := low_two _ _
theorem Framed.sha (d a b : Reg) : Framed.Statement (.sha d a b) := low_two _ _
theorem Framed.rot (d a b : Reg) : Framed.Statement (.rot d a b) := low_two _ _
theorem Framed.mul (d a b : Reg) : Framed.Statement (.mul d a b) := low_two _ _
theorem Framed.mulh (d a b : Reg) : Framed.Statement (.mulh d a b) := low_two _ _
theorem Framed.mulhn (d a b : Reg) : Framed.Statement (.mulhn d a b) := low_two _ _
theorem Framed.div (d a b : Reg) : Framed.Statement (.div d a b) := low_two _ _
theorem Framed.divn (d a b : Reg) : Framed.Statement (.divn d a b) := low_two _ _
theorem Framed.rem (d a b : Reg) : Framed.Statement (.rem d a b) := low_two _ _
theorem Framed.remn (d a b : Reg) : Framed.Statement (.remn d a b) := low_two _ _
theorem Framed.min (d a b : Reg) : Framed.Statement (.min d a b) := low_two _ _
theorem Framed.max (d a b : Reg) : Framed.Statement (.max d a b) := low_two _ _
theorem Framed.minn (d a b : Reg) : Framed.Statement (.minn d a b) := low_two _ _
theorem Framed.maxn (d a b : Reg) : Framed.Statement (.maxn d a b) := low_two _ _
theorem Framed.seq (d a b : Reg) : Framed.Statement (.seq d a b) := low_two _ _
theorem Framed.slt (d a b : Reg) : Framed.Statement (.slt d a b) := low_two _ _
theorem Framed.sltn (d a b : Reg) : Framed.Statement (.sltn d a b) := low_two _ _
theorem Framed.sel (d a b : Reg) : Framed.Statement (.sel d a b) := low_two _ _
theorem Framed.addsh1 (d a b : Reg) : Framed.Statement (.addsh1 d a b) := low_two _ _
theorem Framed.addsh2 (d a b : Reg) : Framed.Statement (.addsh2 d a b) := low_two _ _
theorem Framed.addsh3 (d a b : Reg) : Framed.Statement (.addsh3 d a b) := low_two _ _
theorem Framed.popc (d a : Reg) : Framed.Statement (.popc d a) := low_two _ _
theorem Framed.clz (d a : Reg) : Framed.Statement (.clz d a) := low_two _ _
theorem Framed.ctz (d a : Reg) : Framed.Statement (.ctz d a) := low_two _ _
theorem Framed.bext (d a b : Reg) : Framed.Statement (.bext d a b) := low_two _ _
theorem Framed.bexts (d a b : Reg) : Framed.Statement (.bexts d a b) := low_two _ _
theorem Framed.bins (d a b : Reg) : Framed.Statement (.bins d a b) := low_two _ _
theorem Framed.mov (d a : Reg) : Framed.Statement (.mov d a) := low_two _ _
theorem Framed.addi (d a : Reg) (imm : BitVec 15) : Framed.Statement (.addi d a imm) := low_two _ _
theorem Framed.andi (d a : Reg) (imm : BitVec 13) : Framed.Statement (.andi d a imm) := low_two _ _
theorem Framed.ori (d a : Reg) (imm : BitVec 13) : Framed.Statement (.ori d a imm) := low_two _ _
theorem Framed.xori (d a : Reg) (imm : BitVec 13) : Framed.Statement (.xori d a imm) := low_two _ _
theorem Framed.slti (d a : Reg) (imm : BitVec 13) : Framed.Statement (.slti d a imm) := low_two _ _
theorem Framed.shli (d a : Reg) (n : BitVec 6) : Framed.Statement (.shli d a n) := low_two _ _
theorem Framed.shri (d a : Reg) (n : BitVec 6) : Framed.Statement (.shri d a n) := low_two _ _
theorem Framed.shai (d a : Reg) (n : BitVec 6) : Framed.Statement (.shai d a n) := low_two _ _
theorem Framed.roti (d a : Reg) (n : BitVec 6) : Framed.Statement (.roti d a n) := low_two _ _
theorem Framed.movi (d : Reg) (imm : BitVec 20) : Framed.Statement (.movi d imm) := low_two _ _
theorem Framed.lih (d : Reg) (imm : BitVec 20) : Framed.Statement (.lih d imm) := low_two _ _
theorem Framed.ldb (d a : Reg) (off : BitVec 12) : Framed.Statement (.ldb d a off) := low_two _ _
theorem Framed.ldh (d a : Reg) (off : BitVec 12) : Framed.Statement (.ldh d a off) := low_two _ _
theorem Framed.ldw (d a : Reg) (off : BitVec 12) : Framed.Statement (.ldw d a off) := low_two _ _
theorem Framed.ldd (d a : Reg) (off : BitVec 12) : Framed.Statement (.ldd d a off) := low_two _ _
theorem Framed.ldbs (d a : Reg) (off : BitVec 12) : Framed.Statement (.ldbs d a off) := low_two _ _
theorem Framed.ldhs (d a : Reg) (off : BitVec 12) : Framed.Statement (.ldhs d a off) := low_two _ _
theorem Framed.ldws (d a : Reg) (off : BitVec 12) : Framed.Statement (.ldws d a off) := low_two _ _
theorem Framed.ldq (d : Reg) (q : QNum) (off : BitVec 12) : Framed.Statement (.ldq d q off) := low_two _ _
theorem Framed.stb (c a : Reg) (off : BitVec 12) : Framed.Statement (.stb c a off) := low_two _ _
theorem Framed.sth (c a : Reg) (off : BitVec 12) : Framed.Statement (.sth c a off) := low_two _ _
theorem Framed.stw (c a : Reg) (off : BitVec 12) : Framed.Statement (.stw c a off) := low_two _ _
theorem Framed.std (c a : Reg) (off : BitVec 12) : Framed.Statement (.std c a off) := low_two _ _
theorem Framed.beq (a c : Reg) (off : BitVec 12) : Framed.Statement (.beq a c off) := low_two _ _
theorem Framed.bne (a c : Reg) (off : BitVec 12) : Framed.Statement (.bne a c off) := low_two _ _
theorem Framed.blt (a c : Reg) (off : BitVec 12) : Framed.Statement (.blt a c off) := low_two _ _
theorem Framed.bge (a c : Reg) (off : BitVec 12) : Framed.Statement (.bge a c off) := low_two _ _
theorem Framed.bltn (a c : Reg) (off : BitVec 12) : Framed.Statement (.bltn a c off) := low_two _ _
theorem Framed.bgen (a c : Reg) (off : BitVec 12) : Framed.Statement (.bgen a c off) := low_two _ _
theorem Framed.bbs (a c : Reg) (off : BitVec 12) : Framed.Statement (.bbs a c off) := low_two _ _
theorem Framed.bbc (a c : Reg) (off : BitVec 12) : Framed.Statement (.bbc a c off) := low_two _ _
theorem Framed.b (off : BitVec 25) : Framed.Statement (.b off) := low_two _ _
theorem Framed.call (off : BitVec 25) : Framed.Statement (.call off) := low_two _ _
theorem Framed.j (a : Reg) (off : BitVec 14) : Framed.Statement (.j a off) := low_two _ _
theorem Framed.jal (d a : Reg) (off : BitVec 14) : Framed.Statement (.jal d a off) := low_two _ _
theorem Framed.loop (a : Reg) (len : BitVec 12) : Framed.Statement (.loop a len) := low_two _ _
theorem Framed.xset (k : EReg) (a : Reg) : Framed.Statement (.xset k a) := low_two _ _
theorem Framed.xget (d : Reg) (k : EReg) : Framed.Statement (.xget d k) := low_two _ _
theorem Framed.cadd (a b : Reg) : Framed.Statement (.cadd a b) := low_two _ _
theorem Framed.caddf (d a b : Reg) : Framed.Statement (.caddf d a b) := low_two _ _
theorem Framed.cwait (a b : Reg) : Framed.Statement (.cwait a b) := low_two _ _
theorem Framed.cwaitt (d a b : Reg) : Framed.Statement (.cwaitt d a b) := low_two _ _
theorem Framed.cread (d a : Reg) : Framed.Statement (.cread d a) := low_two _ _
theorem Framed.cwatch (a b : Reg) : Framed.Statement (.cwatch a b) := low_two _ _
theorem Framed.redadd (m : BitVec 2) (a b : Reg) : Framed.Statement (.redadd m a b) := low_two _ _
theorem Framed.redaddf (a b : Reg) : Framed.Statement (.redaddf a b) := low_two _ _
theorem Framed.redmin (m : BitVec 2) (a b : Reg) : Framed.Statement (.redmin m a b) := low_two _ _
theorem Framed.redmax (m : BitVec 2) (a b : Reg) : Framed.Statement (.redmax m a b) := low_two _ _
theorem Framed.redand (m : BitVec 2) (a b : Reg) : Framed.Statement (.redand m a b) := low_two _ _
theorem Framed.redor (m : BitVec 2) (a b : Reg) : Framed.Statement (.redor m a b) := low_two _ _
theorem Framed.redxor (m : BitVec 2) (a b : Reg) : Framed.Statement (.redxor m a b) := low_two _ _
theorem Framed.fence (kind : BitVec 2) (scope : BitVec 3) : Framed.Statement (.fence kind scope) := low_two _ _
theorem Framed.barw (wire : BitVec 2) : Framed.Statement (.barw wire) := low_two _ _
theorem Framed.send (lc : Bool) (a b d : Reg) : Framed.Statement (.send lc a b d) := low_two _ _
theorem Framed.sends (lc : Bool) (a b d : Reg) : Framed.Statement (.sends lc a b d) := low_two _ _
theorem Framed.commit : Framed.Statement (.commit) := low_two _ _
theorem Framed.abort : Framed.Statement (.abort) := low_two _ _
theorem Framed.fwd (dir : BitVec 2) (a : Reg) : Framed.Statement (.fwd dir a) := low_two _ _
theorem Framed.fwdw (dir : BitVec 2) (d : Reg) : Framed.Statement (.fwdw dir d) := low_two _ _
theorem Framed.llput (a : Reg) : Framed.Statement (.llput a) := low_two _ _
theorem Framed.llget (d : Reg) : Framed.Statement (.llget d) := low_two _ _
theorem Framed.arm (q : QNum) (a b : Reg) : Framed.Statement (.arm q a b) := low_two _ _
theorem Framed.disarm (q : QNum) (a : Reg) : Framed.Statement (.disarm q a) := low_two _ _
theorem Framed.trig : Framed.Statement (.trig) := low_two _ _
theorem Framed.endI : Framed.Statement (.endI) := low_two _ _
theorem Framed.join (a : Reg) : Framed.Statement (.join a) := low_two _ _
theorem Framed.leave (a : Reg) : Framed.Statement (.leave a) := low_two _ _
theorem Framed.qwait (d : Reg) (q : QNum) : Framed.Statement (.qwait d q) := low_two _ _
theorem Framed.qadv (q : QNum) : Framed.Statement (.qadv q) := low_two _ _
theorem Framed.qfree (q : QNum) (a : Reg) : Framed.Statement (.qfree q a) := low_two _ _
theorem Framed.qpush (q : QNum) (a b : Reg) : Framed.Statement (.qpush q a b) := low_two _ _
theorem Framed.qstat (d : Reg) (q : QNum) : Framed.Statement (.qstat d q) := low_two _ _
theorem Framed.trap (imm : BitVec 12) : Framed.Statement (.trap imm) := low_two _ _
theorem Framed.syscall (c : Reg) : Framed.Statement (.syscall c) := low_two _ _
theorem Framed.migrate : Framed.Statement (.migrate) := low_two _ _
theorem Framed.brk (imm : BitVec 12) : Framed.Statement (.brk imm) := low_two _ _
theorem Framed.mfs (c : Reg) (imm : BitVec 12) : Framed.Statement (.mfs c imm) := low_two _ _
theorem Framed.mts (c : Reg) (imm : BitVec 12) : Framed.Statement (.mts c imm) := low_two _ _
theorem Framed.eret : Framed.Statement (.eret) := low_two _ _
theorem Framed.wfi : Framed.Statement (.wfi) := low_two _ _
theorem Framed.hvcall (imm : BitVec 12) : Framed.Statement (.hvcall imm) := low_two _ _
theorem Framed.atinv (c : Reg) : Framed.Statement (.atinv c) := low_two _ _
theorem Framed.dcwb (c : Reg) : Framed.Statement (.dcwb c) := low_two _ _
theorem Framed.dcinv (c : Reg) : Framed.Statement (.dcinv c) := low_two _ _
theorem Framed.icinv (c : Reg) : Framed.Statement (.icinv c) := low_two _ _
theorem Framed.nop : Framed.Statement (.nop) := low_two _ _
theorem Framed.vadd (ty : Ty) (vd va vb : VReg) : Framed.Statement (.vadd ty vd va vb) := low_two _ _
theorem Framed.vsub (ty : Ty) (vd va vb : VReg) : Framed.Statement (.vsub ty vd va vb) := low_two _ _
theorem Framed.vmul (ty : Ty) (vd va vb : VReg) : Framed.Statement (.vmul ty vd va vb) := low_two _ _
theorem Framed.vfma (ty : Ty) (vd va vb : VReg) : Framed.Statement (.vfma ty vd va vb) := low_two _ _
theorem Framed.vmin (ty : Ty) (vd va vb : VReg) : Framed.Statement (.vmin ty vd va vb) := low_two _ _
theorem Framed.vmax (ty : Ty) (vd va vb : VReg) : Framed.Statement (.vmax ty vd va vb) := low_two _ _
theorem Framed.vand (ty : Ty) (vd va vb : VReg) : Framed.Statement (.vand ty vd va vb) := low_two _ _
theorem Framed.vor (ty : Ty) (vd va vb : VReg) : Framed.Statement (.vor ty vd va vb) := low_two _ _
theorem Framed.vxor (ty : Ty) (vd va vb : VReg) : Framed.Statement (.vxor ty vd va vb) := low_two _ _
theorem Framed.vshl (ty : Ty) (vd va vb : VReg) : Framed.Statement (.vshl ty vd va vb) := low_two _ _
theorem Framed.vshr (ty : Ty) (vd va vb : VReg) : Framed.Statement (.vshr ty vd va vb) := low_two _ _
theorem Framed.vsha (ty : Ty) (vd va vb : VReg) : Framed.Statement (.vsha ty vd va vb) := low_two _ _
theorem Framed.vabs (ty : Ty) (vd va : VReg) : Framed.Statement (.vabs ty vd va) := low_two _ _
theorem Framed.vneg (ty : Ty) (vd va : VReg) : Framed.Statement (.vneg ty vd va) := low_two _ _
theorem Framed.vrec (ty : Ty) (vd va vb : VReg) : Framed.Statement (.vrec ty vd va vb) := low_two _ _
theorem Framed.vexp2 (ty : Ty) (vd va : VReg) : Framed.Statement (.vexp2 ty vd va) := low_two _ _
theorem Framed.vlog2 (ty : Ty) (vd va : VReg) : Framed.Statement (.vlog2 ty vd va) := low_two _ _
theorem Framed.vrcp (ty : Ty) (vd va : VReg) : Framed.Statement (.vrcp ty vd va) := low_two _ _
theorem Framed.vrsq (ty : Ty) (vd va : VReg) : Framed.Statement (.vrsq ty vd va) := low_two _ _
theorem Framed.vsig (ty : Ty) (vd va : VReg) : Framed.Statement (.vsig ty vd va) := low_two _ _
theorem Framed.vcvt (ty src : Ty) (mode : BitVec 2) (sat : Bool) (vd va : VReg) : Framed.Statement (.vcvt ty src mode sat vd va) := low_two _ _
theorem Framed.vperm (ty : Ty) (vd va vb : VReg) : Framed.Statement (.vperm ty vd va vb) := low_two _ _
theorem Framed.vshf (ty : Ty) (vd va vb : VReg) : Framed.Statement (.vshf ty vd va vb) := low_two _ _
theorem Framed.vscan (ty : Ty) (vd va : VReg) (op : BitVec 2) : Framed.Statement (.vscan ty vd va op) := low_two _ _
theorem Framed.vmov (ty : Ty) (vd va : VReg) : Framed.Statement (.vmov ty vd va) := low_two _ _
theorem Framed.vld (v : VReg) (a : Reg) (off : BitVec 6) : Framed.Statement (.vld v a off) := low_two _ _
theorem Framed.vst (v : VReg) (a : Reg) (off : BitVec 6) : Framed.Statement (.vst v a off) := low_two _ _
theorem Framed.vldq (v : VReg) (q : QNum) (off : BitVec 6) : Framed.Statement (.vldq v q off) := low_two _ _
theorem Framed.vbcast (ty : Ty) (v : VReg) (a : Reg) : Framed.Statement (.vbcast ty v a) := low_two _ _
theorem Framed.vext (ty : Ty) (a : Reg) (v : VReg) (lane : BitVec 6) : Framed.Statement (.vext ty a v lane) := low_two _ _
theorem Framed.vins (ty : Ty) (v : VReg) (a : Reg) (lane : BitVec 6) : Framed.Statement (.vins ty v a lane) := low_two _ _
theorem Framed.vcmpeq (ty : Ty) (a : Reg) (v vx : VReg) : Framed.Statement (.vcmpeq ty a v vx) := low_two _ _
theorem Framed.vcmplt (ty : Ty) (a : Reg) (v vx : VReg) : Framed.Statement (.vcmplt ty a v vx) := low_two _ _
theorem Framed.vcmple (ty : Ty) (a : Reg) (v vx : VReg) : Framed.Statement (.vcmple ty a v vx) := low_two _ _
theorem Framed.vsel (ty : Ty) (v : VReg) (a : Reg) (vx : VReg) : Framed.Statement (.vsel ty v a vx) := low_two _ _
theorem Framed.vredadd (ty : Ty) (a : Reg) (v : VReg) : Framed.Statement (.vredadd ty a v) := low_two _ _
theorem Framed.vredmax (ty : Ty) (a : Reg) (v : VReg) : Framed.Statement (.vredmax ty a v) := low_two _ _
theorem Framed.vredmin (ty : Ty) (a : Reg) (v : VReg) : Framed.Statement (.vredmin ty a v) := low_two _ _
theorem Framed.xscan (ty : Ty) (v : VReg) (dirIn dirOut op role : BitVec 2) : Framed.Statement (.xscan ty v dirIn dirOut op role) := low_two _ _
theorem Framed.vfence : Framed.Statement (.vfence) := low_two _ _
theorem Framed.vstm (v : VReg) (a m : Reg) : Framed.Statement (.vstm v a m) := low_two _ _
theorem Framed.gang (w : BitVec 3) (pos : BitVec 2) : Framed.Statement (.gang w pos) := low_two _ _
theorem Framed.mopaAcc (ty : Ty) (acc : Acc) : Framed.Statement (.mopaAcc ty acc) := low_two _ _
theorem Framed.mopaBlock (ty : Ty) (a b : Reg) : Framed.Statement (.mopaBlock ty a b) := low_two _ _
theorem Framed.mopbAcc (ty : Ty) (acc : Acc) : Framed.Statement (.mopbAcc ty acc) := low_two _ _
theorem Framed.mopbBlock (ty : Ty) (a b : Reg) : Framed.Statement (.mopbBlock ty a b) := low_two _ _
theorem Framed.mma (acc : Acc) (pb : Bool) : Framed.Statement (.mma acc pb) := low_two _ _
theorem Framed.mmas (acc : Acc) (a : Reg) : Framed.Statement (.mmas acc a) := low_two _ _
theorem Framed.msca (acc : Acc) (pb : Bool) (vsa vsb : VReg) : Framed.Statement (.msca acc pb vsa vsb) := low_two _ _
theorem Framed.mzero (acc : Acc) : Framed.Statement (.mzero acc) := low_two _ _
theorem Framed.mstat (d : Reg) : Framed.Statement (.mstat d) := low_two _ _
theorem Framed.mwait : Framed.Statement (.mwait) := low_two _ _
theorem Framed.dpatch (cell : BitVec 9) (a d : Reg) : Framed.Statement (.dpatch cell a d) := low_two _ _
theorem Framed.dset (cell : BitVec 8) (a : Reg) : Framed.Statement (.dset cell a) := low_two _ _
theorem Framed.dget (d : Reg) (cell : BitVec 8) : Framed.Statement (.dget d cell) := low_two _ _
theorem Framed.dres (d : Reg) (cell : BitVec 8) : Framed.Statement (.dres d cell) := low_two _ _
theorem Framed.dsave (a : Reg) : Framed.Statement (.dsave a) := low_two _ _
theorem Framed.dload (a : Reg) : Framed.Statement (.dload a) := low_two _ _
theorem Framed.dclk (div : BitVec 4) (a : Reg) : Framed.Statement (.dclk div a) := low_two _ _
theorem Framed.dstep (a : Reg) : Framed.Statement (.dstep a) := low_two _ _
theorem Framed.drun : Framed.Statement (.drun) := low_two _ _
theorem Framed.dhalt : Framed.Statement (.dhalt) := low_two _ _
theorem Framed.dwait : Framed.Statement (.dwait) := low_two _ _
theorem Framed.drdc (clr : Bool) (d : Reg) (cnt : BitVec 5) : Framed.Statement (.drdc clr d cnt) := low_two _ _
theorem Framed.dclrc (cnt : BitVec 5) : Framed.Statement (.dclrc cnt) := low_two _ _
theorem Framed.dstat (d : Reg) : Framed.Statement (.dstat d) := low_two _ _
theorem Framed.dinj (a : Reg) : Framed.Statement (.dinj a) := low_two _ _
theorem Framed.fetch (acq rel : Bool) (scope : BitVec 3) (lc : Bool) (d a b : Reg) : Framed.Statement (.fetch acq rel scope lc d a b) := low_two _ _
theorem Framed.put (acq rel : Bool) (scope : BitVec 3) (lc : Bool) (d a b : Reg) : Framed.Statement (.put acq rel scope lc d a b) := low_two _ _
theorem Framed.copy (acq rel : Bool) (scope : BitVec 3) (lc : Bool) (d a b : Reg) : Framed.Statement (.copy acq rel scope lc d a b) := low_two _ _
theorem Framed.mcast (acq rel : Bool) (scope : BitVec 3) (lc : Bool) (d a b : Reg) : Framed.Statement (.mcast acq rel scope lc d a b) := low_two _ _
theorem Framed.gather (acq rel : Bool) (scope : BitVec 3) (lc : Bool) (d a b : Reg) : Framed.Statement (.gather acq rel scope lc d a b) := low_two _ _
theorem Framed.scatter (acq rel : Bool) (scope : BitVec 3) (lc : Bool) (d a b : Reg) : Framed.Statement (.scatter acq rel scope lc d a b) := low_two _ _
theorem Framed.trec (d a : Reg) : Framed.Statement (.trec d a) := low_two _ _
theorem Framed.trinv (a : Reg) : Framed.Statement (.trinv a) := low_two _ _
theorem Framed.sfence : Framed.Statement (.sfence) := low_two _ _
theorem Framed.cMov (d b : BitVec 4) : Framed.Statement (.cMov d b) := compact_of_low _ _ _ rfl rfl
theorem Framed.cAdd (d b : BitVec 4) : Framed.Statement (.cAdd d b) := compact_of_low _ _ _ rfl rfl
theorem Framed.cSub (d b : BitVec 4) : Framed.Statement (.cSub d b) := compact_of_low _ _ _ rfl rfl
theorem Framed.cAnd (d b : BitVec 4) : Framed.Statement (.cAnd d b) := compact_of_low _ _ _ rfl rfl
theorem Framed.cOr (d b : BitVec 4) : Framed.Statement (.cOr d b) := compact_of_low _ _ _ rfl rfl
theorem Framed.cXor (d b : BitVec 4) : Framed.Statement (.cXor d b) := compact_of_low _ _ _ rfl rfl
theorem Framed.cShl (d b : BitVec 4) : Framed.Statement (.cShl d b) := compact_of_low _ _ _ rfl rfl
theorem Framed.cShr (d b : BitVec 4) : Framed.Statement (.cShr d b) := compact_of_low _ _ _ rfl rfl
theorem Framed.cAddi (d : BitVec 4) (imm : BitVec 7) : Framed.Statement (.cAddi d imm) := compact_of_low _ _ _ rfl rfl
theorem Framed.cMovi (d : BitVec 4) (imm : BitVec 7) : Framed.Statement (.cMovi d imm) := compact_of_low _ _ _ rfl rfl
theorem Framed.cShli (d : BitVec 4) (n : BitVec 6) : Framed.Statement (.cShli d n) := compact_of_low _ _ _ rfl rfl
theorem Framed.cLdd (d a : BitVec 4) (off : BitVec 3) : Framed.Statement (.cLdd d a off) := compact_of_low _ _ _ rfl rfl
theorem Framed.cStd (c a : BitVec 4) (off : BitVec 3) : Framed.Statement (.cStd c a off) := compact_of_low _ _ _ rfl rfl
theorem Framed.cLdw (d a : BitVec 4) (off : BitVec 3) : Framed.Statement (.cLdw d a off) := compact_of_low _ _ _ rfl rfl
theorem Framed.cStw (c a : BitVec 4) (off : BitVec 3) : Framed.Statement (.cStw c a off) := compact_of_low _ _ _ rfl rfl
theorem Framed.cBeqz (a : BitVec 4) (off : BitVec 7) : Framed.Statement (.cBeqz a off) := compact_of_low _ _ _ rfl rfl
theorem Framed.cBnez (a : BitVec 4) (off : BitVec 7) : Framed.Statement (.cBnez a off) := compact_of_low _ _ _ rfl rfl
theorem Framed.cB (off : BitVec 11) : Framed.Statement (.cB off) := compact_of_low _ _ _ rfl rfl
theorem Framed.cJ (a : BitVec 4) : Framed.Statement (.cJ a) := compact_of_low _ _ _ rfl rfl
theorem Framed.cEnd : Framed.Statement (.cEnd) := compact_of_low _ _ _ rfl rfl
theorem Framed.cQadv (q : QNum) : Framed.Statement (.cQadv q) := compact_of_low _ _ _ rfl rfl
theorem Framed.compactHint : Framed.Statement (.compactHint) := compact_of_low _ _ _ rfl rfl
theorem Framed.messageArrival (p : Nat) : Framed.Statement (.messageArrival p) := trivial
theorem Framed.activationFiring (t : TileName) : Framed.Statement (.activationFiring t) := trivial
theorem Framed.shareAddDeparture (t : TileName) (i : Nat) : Framed.Statement (.shareAddDeparture t i) := trivial
theorem Framed.remoteAccessAtHome (p : Nat) : Framed.Statement (.remoteAccessAtHome p) := trivial
theorem Framed.counterRequestAtHome (p : Nat) : Framed.Statement (.counterRequestAtHome p) := trivial
theorem Framed.reductionAtHome (p : Nat) : Framed.Statement (.reductionAtHome p) := trivial
theorem Framed.loadResponse (p : Nat) : Framed.Statement (.loadResponse p) := trivial
theorem Framed.offTileAck (p : Nat) : Framed.Statement (.offTileAck p) := trivial
theorem Framed.wakeArrival (p : Nat) : Framed.Statement (.wakeArrival p) := trivial
theorem Framed.cwaittTimeout (ag : Agent) : Framed.Statement (.cwaittTimeout ag) := trivial
theorem Framed.macResultArrival (p : Nat) : Framed.Statement (.macResultArrival p) := trivial
theorem Framed.wireRelease (b : BulkId) (col : Bool) (i : Nat) : Framed.Statement (.wireRelease b col i) := trivial
theorem Framed.fwdValueArrival (p : Nat) : Framed.Statement (.fwdValueArrival p) := trivial
theorem Framed.laneGateRefusal (p : Nat) : Framed.Statement (.laneGateRefusal p) := trivial
theorem Framed.groupDirectoryRequest (p : Nat) : Framed.Statement (.groupDirectoryRequest p) := trivial
theorem Framed.groupAckArrival (p : Nat) : Framed.Statement (.groupAckArrival p) := trivial
theorem Framed.migratedActivationPlacement (p : Nat) (c : BitVec 3) : Framed.Statement (.migratedActivationPlacement p c) := trivial
theorem Framed.vectorCommandStart (t : TileName) : Framed.Statement (.vectorCommandStart t) := trivial
theorem Framed.vectorCommandComplete (t : TileName) (i : Nat) : Framed.Statement (.vectorCommandComplete t i) := trivial
theorem Framed.gangJoinCompletion (t : TileName) : Framed.Statement (.gangJoinCompletion t) := trivial
theorem Framed.gangAbort (t : TileName) : Framed.Statement (.gangAbort t) := trivial
theorem Framed.matrixArrayStart (t : TileName) : Framed.Statement (.matrixArrayStart t) := trivial
theorem Framed.matrixArrayComplete (t : TileName) : Framed.Statement (.matrixArrayComplete t) := trivial
theorem Framed.mscaStageStart (t : TileName) : Framed.Statement (.mscaStageStart t) := trivial
theorem Framed.mscaStageComplete (t : TileName) : Framed.Statement (.mscaStageComplete t) := trivial
theorem Framed.domainStart (t : TileName) : Framed.Statement (.domainStart t) := trivial
theorem Framed.fabricStep (t : TileName) : Framed.Statement (.fabricStep t) := trivial
theorem Framed.domainHalt (t : TileName) : Framed.Statement (.domainHalt t) := trivial
theorem Framed.streamCommandStart (t : TileName) : Framed.Statement (.streamCommandStart t) := trivial
theorem Framed.streamWriteAtHome (p : Nat) : Framed.Statement (.streamWriteAtHome p) := trivial
theorem Framed.streamReadResponse (p : Nat) : Framed.Statement (.streamReadResponse p) := trivial
theorem Framed.streamCounterAdd (t : TileName) : Framed.Statement (.streamCounterAdd t) := trivial
theorem Framed.levellingBoundary (t : TileName) : Framed.Statement (.levellingBoundary t) := trivial
theorem Framed.levellingEntryArrival (p : Nat) : Framed.Statement (.levellingEntryArrival p) := trivial
theorem Framed.flitForward (node : Nat) (port : Nat) (merge : Bool) : Framed.Statement (.flitForward node port merge) := trivial
theorem Framed.packetPromotion (node : Nat) (port : Nat) (vc : Nat) : Framed.Statement (.packetPromotion node port vc) := trivial
theorem Framed.gateRefusal (p : Nat) : Framed.Statement (.gateRefusal p) := trivial
theorem Framed.codeStoreRefusal (p : Nat) : Framed.Statement (.codeStoreRefusal p) := trivial
theorem Framed.messageRefusal (p : Nat) : Framed.Statement (.messageRefusal p) := trivial
theorem Framed.stationTranslate (p : Nat) : Framed.Statement (.stationTranslate p) := trivial
theorem Framed.walkRead (p : Nat) : Framed.Statement (.walkRead p) := trivial
theorem Framed.stationForwardedRequest (p : Nat) : Framed.Statement (.stationForwardedRequest p) := trivial
theorem Framed.pageReencryption (page : Nat) : Framed.Statement (.pageReencryption page) := trivial
theorem Framed.trapRecordArrival (p : Nat) : Framed.Statement (.trapRecordArrival p) := trivial
theorem Framed.invigilatorExpiry (r : Nat) : Framed.Statement (.invigilatorExpiry r) := trivial
theorem Framed.backgroundScrub (ecc : Nat) : Framed.Statement (.backgroundScrub ecc) := trivial
theorem Framed.slotResume (t : TileName) (k : BitVec 2) : Framed.Statement (.slotResume t k) := trivial
theorem Framed.slotKill (t : TileName) (k : BitVec 2) : Framed.Statement (.slotKill t k) := trivial
theorem Framed.slotRegisterWrite (t : TileName) (k : BitVec 2) (off : Nat) (v : Word) : Framed.Statement (.slotRegisterWrite t k off v) := trivial
theorem Framed.integClear (t : TileName) : Framed.Statement (.integClear t) := trivial
theorem Framed.dbgCtlWrite (t : TileName) (v : Word) : Framed.Statement (.dbgCtlWrite t v) := trivial
theorem Framed.debugStep (t : TileName) (v : Word) : Framed.Statement (.debugStep t v) := trivial
theorem Framed.preemptStop (t : TileName) : Framed.Statement (.preemptStop t) := trivial
theorem Framed.preemptSave (t : TileName) (v : Word) : Framed.Statement (.preemptSave t v) := trivial
theorem Framed.preemptLoad (t : TileName) (v : Word) : Framed.Statement (.preemptLoad t v) := trivial
theorem Framed.preemptRun (t : TileName) : Framed.Statement (.preemptRun t) := trivial
theorem Framed.preemptSaveComplete (t : TileName) : Framed.Statement (.preemptSaveComplete t) := trivial
theorem Framed.preemptLoadComplete (t : TileName) : Framed.Statement (.preemptLoadComplete t) := trivial
theorem Framed.queueCancel (t : TileName) (v : Word) : Framed.Statement (.queueCancel t v) := trivial
theorem Framed.xlateRetry (b : BulkId) (xid : Nat) : Framed.Statement (.xlateRetry b xid) := trivial
theorem Framed.fabricStateWrite (t : TileName) (off : Nat) (v : Word) : Framed.Statement (.fabricStateWrite t off v) := trivial
theorem Framed.stInvRegion (b : BulkId) : Framed.Statement (.stInvRegion b) := trivial
theorem Framed.stInvPid (b : BulkId) (pid : BitVec 16) : Framed.Statement (.stInvPid b pid) := trivial
theorem Framed.stInvPage (b : BulkId) (pid : BitVec 16) : Framed.Statement (.stInvPage b pid) := trivial
theorem Framed.stInvComplete (b : BulkId) : Framed.Statement (.stInvComplete b) := trivial
theorem Framed.registerWrite (t : TileName) (off : Nat) (v : Word) : Framed.Statement (.registerWrite t off v) := trivial
theorem Framed.sqDoorbell (q : Nat) (tail : Nat) : Framed.Statement (.sqDoorbell q tail) := trivial
theorem Framed.hostStartDescriptor (q : Nat) : Framed.Statement (.hostStartDescriptor q) := trivial
theorem Framed.singleRegionReset (r : Nat) : Framed.Statement (.singleRegionReset r) := trivial
theorem Framed.bulkheadReset (b : BulkId) : Framed.Statement (.bulkheadReset b) := trivial
theorem Framed.bulkheadFailure (b : BulkId) : Framed.Statement (.bulkheadFailure b) := trivial
theorem Framed.powerOn : Framed.Statement (.powerOn) := trivial
theorem Framed.moduleBoot : Framed.Statement (.moduleBoot) := trivial
theorem Framed.version (m : BitVec 2) : Framed.Statement (.version m) := trivial
theorem Framed.attest (m : BitVec 2) : Framed.Statement (.attest m) := trivial
theorem Framed.readScrubRecord (m : BitVec 2) : Framed.Statement (.readScrubRecord m) := trivial
theorem Framed.readBulkheadRecord (m : BitVec 2) : Framed.Statement (.readBulkheadRecord m) := trivial
theorem Framed.readModuleRecord (m : BitVec 2) : Framed.Statement (.readModuleRecord m) := trivial
theorem Framed.readRetirementEntry (m : BitVec 2) : Framed.Statement (.readRetirementEntry m) := trivial
theorem Framed.readLatencyHeader (m : BitVec 2) : Framed.Statement (.readLatencyHeader m) := trivial
theorem Framed.readRegionInfo (m : BitVec 2) : Framed.Statement (.readRegionInfo m) := trivial
theorem Framed.readChallenge (m : BitVec 2) : Framed.Statement (.readChallenge m) := trivial
theorem Framed.claim (m : BitVec 2) : Framed.Statement (.claim m) := trivial
theorem Framed.release (m : BitVec 2) : Framed.Statement (.release m) := trivial
theorem Framed.assign (m : BitVec 2) : Framed.Statement (.assign m) := trivial
theorem Framed.teardown (m : BitVec 2) : Framed.Statement (.teardown m) := trivial
theorem Framed.teardownDrained (r : Nat) : Framed.Statement (.teardownDrained r) := trivial
theorem Framed.keyZeroiseDone (r : Nat) : Framed.Statement (.keyZeroiseDone r) := trivial
theorem Framed.scrubHallCleared (b : BulkId) : Framed.Statement (.scrubHallCleared b) := trivial
theorem Framed.scrubBlockCleared (b : BulkId) : Framed.Statement (.scrubBlockCleared b) := trivial
theorem Framed.scrubFinalise (r : Nat) : Framed.Statement (.scrubFinalise r) := trivial
theorem Framed.scrubRestart (r : Nat) : Framed.Statement (.scrubRestart r) := trivial
theorem Framed.preemptRelease (m : BitVec 2) : Framed.Statement (.preemptRelease m) := trivial
theorem Framed.preemptResume (m : BitVec 2) : Framed.Statement (.preemptResume m) := trivial
theorem Framed.restore (m : BitVec 2) : Framed.Statement (.restore m) := trivial
theorem Framed.windowSet (m : BitVec 2) : Framed.Statement (.windowSet m) := trivial
theorem Framed.windowWithdraw (m : BitVec 2) : Framed.Statement (.windowWithdraw m) := trivial
theorem Framed.windowRemovalComplete (m : BitVec 2) : Framed.Statement (.windowRemovalComplete m) := trivial
theorem Framed.keysAdd (m : BitVec 2) : Framed.Statement (.keysAdd m) := trivial
theorem Framed.keysFree (m : BitVec 2) : Framed.Statement (.keysFree m) := trivial
theorem Framed.retire (m : BitVec 2) : Framed.Statement (.retire m) := trivial
theorem Framed.migrateStart (m : BitVec 2) : Framed.Statement (.migrateStart m) := trivial
theorem Framed.migrateCancel (m : BitVec 2) : Framed.Statement (.migrateCancel m) := trivial
theorem Framed.migrateRestore (m : BitVec 2) : Framed.Statement (.migrateRestore m) := trivial
theorem Framed.migrationPrepare (b : BulkId) (port : Nat) : Framed.Statement (.migrationPrepare b port) := trivial
theorem Framed.migrationItem (b : BulkId) (port : Nat) : Framed.Statement (.migrationItem b port) := trivial
theorem Framed.migrationAccept (b : BulkId) (port : Nat) : Framed.Statement (.migrationAccept b port) := trivial
theorem Framed.migrationCommit (b : BulkId) (port : Nat) : Framed.Statement (.migrationCommit b port) := trivial
theorem Framed.migrationDone (b : BulkId) (port : Nat) : Framed.Statement (.migrationDone b port) := trivial
theorem Framed.migrationCancel (b : BulkId) (port : Nat) : Framed.Statement (.migrationCancel b port) := trivial
theorem Framed.migrationAborted (b : BulkId) (port : Nat) : Framed.Statement (.migrationAborted b port) := trivial
theorem Framed.migrationRefused (b : BulkId) (port : Nat) : Framed.Statement (.migrationRefused b port) := trivial
theorem Framed.migrationLost (b : BulkId) (port : Nat) : Framed.Statement (.migrationLost b port) := trivial
theorem Framed.linkFrameTransmit (b : BulkId) (port : Nat) : Framed.Statement (.linkFrameTransmit b port) := trivial
theorem Framed.linkDataReceive (b : BulkId) (port : Nat) : Framed.Statement (.linkDataReceive b port) := trivial
theorem Framed.linkMarkerReceive (b : BulkId) (port : Nat) : Framed.Statement (.linkMarkerReceive b port) := trivial
theorem Framed.linkAckReceive (b : BulkId) (port : Nat) : Framed.Statement (.linkAckReceive b port) := trivial
theorem Framed.linkNakReceive (b : BulkId) (port : Nat) : Framed.Statement (.linkNakReceive b port) := trivial
theorem Framed.linkIdleReceive (b : BulkId) (port : Nat) : Framed.Statement (.linkIdleReceive b port) := trivial
theorem Framed.linkKeepaliveExpiry (b : BulkId) (port : Nat) : Framed.Statement (.linkKeepaliveExpiry b port) := trivial
theorem Framed.linkAckTimer (b : BulkId) (port : Nat) : Framed.Statement (.linkAckTimer b port) := trivial
theorem Framed.linkKeyLoad (b : BulkId) (port : Nat) (gen : Nat) : Framed.Statement (.linkKeyLoad b port gen) := trivial
theorem Framed.linkTestRun (b : BulkId) (port : Nat) (v : Word) : Framed.Statement (.linkTestRun b port v) := trivial
theorem Framed.linkErrorInject (b : BulkId) (port : Nat) (v : Word) : Framed.Statement (.linkErrorInject b port v) := trivial
theorem Framed.telemetrySample : Framed.Statement (.telemetrySample) := trivial
theorem Framed.modcapWrite (mw : Nat) : Framed.Statement (.modcapWrite mw) := trivial
theorem Framed.capWrite (b : BulkId) (mw : Nat) : Framed.Statement (.capWrite b mw) := trivial
theorem Framed.migrateReturnArrival (p : Nat) : Framed.Statement (.migrateReturnArrival p) := trivial
theorem Framed.syscallRequestArrival (p : Nat) : Framed.Statement (.syscallRequestArrival p) := trivial
theorem Framed.linkTrainingComplete (b : BulkId) (port : Nat) : Framed.Statement (.linkTrainingComplete b port) := trivial
theorem Framed.edgeModuleFailure (b : BulkId) : Framed.Statement (.edgeModuleFailure b) := trivial

end Sys2Proof.Laws
end

