-- ==== Sys2Proof/Tests/Slice0.lean ====
section
/-! SUPPORT. Tests of the model on fixed values, and witnesses: for every statement with hypotheses, concrete states and
operands that meet all the hypotheses of each of its clauses. The expected words and results are the spec's own printed
ones, or follow by hand from the rule that a test cites. -/

namespace Sys2Proof.Test

open Sys2Proof.Machine

set_option Elab.async false

/-! ### Words of every instruction, each the fixed bits of its encoding table and the fields at their places -/

/-- Words written out from the encoding tables: ALU (R131, R132, R133). -/
theorem test_words_alu :
    decodeTableWord 32 (0x00000003 + 1 * 2 ^ 7 + 2 * 2 ^ 12 + 3 * 2 ^ 17) = some (.add 1 2 3)
    ∧ decodeTableWord 32 (0x00400003 + 1 * 2 ^ 7 + 2 * 2 ^ 12 + 3 * 2 ^ 17) = some (.sub 1 2 3)
    ∧ decodeTableWord 32 (0x00800003 + 1 * 2 ^ 7 + 2 * 2 ^ 12 + 3 * 2 ^ 17) = some (.and 1 2 3)
    ∧ decodeTableWord 32 (0x00C00003 + 1 * 2 ^ 7 + 2 * 2 ^ 12 + 3 * 2 ^ 17) = some (.or 1 2 3)
    ∧ decodeTableWord 32 (0x01000003 + 1 * 2 ^ 7 + 2 * 2 ^ 12 + 3 * 2 ^ 17) = some (.xor 1 2 3)
    ∧ decodeTableWord 32 (0x01400003 + 1 * 2 ^ 7 + 2 * 2 ^ 12 + 3 * 2 ^ 17) = some (.andn 1 2 3)
    ∧ decodeTableWord 32 (0x01800003 + 1 * 2 ^ 7 + 2 * 2 ^ 12 + 3 * 2 ^ 17) = some (.shl 1 2 3)
    ∧ decodeTableWord 32 (0x01C00003 + 1 * 2 ^ 7 + 2 * 2 ^ 12 + 3 * 2 ^ 17) = some (.shr 1 2 3)
    ∧ decodeTableWord 32 (0x02000003 + 1 * 2 ^ 7 + 2 * 2 ^ 12 + 3 * 2 ^ 17) = some (.sha 1 2 3)
    ∧ decodeTableWord 32 (0x02400003 + 1 * 2 ^ 7 + 2 * 2 ^ 12 + 3 * 2 ^ 17) = some (.rot 1 2 3)
    ∧ decodeTableWord 32 (0x02800003 + 1 * 2 ^ 7 + 2 * 2 ^ 12 + 3 * 2 ^ 17) = some (.mul 1 2 3)
    ∧ decodeTableWord 32 (0x02C00003 + 1 * 2 ^ 7 + 2 * 2 ^ 12 + 3 * 2 ^ 17) = some (.mulh 1 2 3)
    ∧ decodeTableWord 32 (0x03000003 + 1 * 2 ^ 7 + 2 * 2 ^ 12 + 3 * 2 ^ 17) = some (.mulhn 1 2 3)
    ∧ decodeTableWord 32 (0x03400003 + 1 * 2 ^ 7 + 2 * 2 ^ 12 + 3 * 2 ^ 17) = some (.div 1 2 3)
    ∧ decodeTableWord 32 (0x03800003 + 1 * 2 ^ 7 + 2 * 2 ^ 12 + 3 * 2 ^ 17) = some (.divn 1 2 3)
    ∧ decodeTableWord 32 (0x03C00003 + 1 * 2 ^ 7 + 2 * 2 ^ 12 + 3 * 2 ^ 17) = some (.rem 1 2 3)
    ∧ decodeTableWord 32 (0x04000003 + 1 * 2 ^ 7 + 2 * 2 ^ 12 + 3 * 2 ^ 17) = some (.remn 1 2 3)
    ∧ decodeTableWord 32 (0x04400003 + 1 * 2 ^ 7 + 2 * 2 ^ 12 + 3 * 2 ^ 17) = some (.min 1 2 3)
    ∧ decodeTableWord 32 (0x04800003 + 1 * 2 ^ 7 + 2 * 2 ^ 12 + 3 * 2 ^ 17) = some (.max 1 2 3)
    ∧ decodeTableWord 32 (0x04C00003 + 1 * 2 ^ 7 + 2 * 2 ^ 12 + 3 * 2 ^ 17) = some (.minn 1 2 3)
    ∧ decodeTableWord 32 (0x05000003 + 1 * 2 ^ 7 + 2 * 2 ^ 12 + 3 * 2 ^ 17) = some (.maxn 1 2 3)
    ∧ decodeTableWord 32 (0x05400003 + 1 * 2 ^ 7 + 2 * 2 ^ 12 + 3 * 2 ^ 17) = some (.seq 1 2 3)
    ∧ decodeTableWord 32 (0x05800003 + 1 * 2 ^ 7 + 2 * 2 ^ 12 + 3 * 2 ^ 17) = some (.slt 1 2 3)
    ∧ decodeTableWord 32 (0x05C00003 + 1 * 2 ^ 7 + 2 * 2 ^ 12 + 3 * 2 ^ 17) = some (.sltn 1 2 3)
    ∧ decodeTableWord 32 (0x06000003 + 1 * 2 ^ 7 + 2 * 2 ^ 12 + 3 * 2 ^ 17) = some (.sel 1 2 3)
    ∧ decodeTableWord 32 (0x06400003 + 1 * 2 ^ 7 + 2 * 2 ^ 12 + 3 * 2 ^ 17) = some (.addsh1 1 2 3)
    ∧ decodeTableWord 32 (0x06800003 + 1 * 2 ^ 7 + 2 * 2 ^ 12 + 3 * 2 ^ 17) = some (.addsh2 1 2 3)
    ∧ decodeTableWord 32 (0x06C00003 + 1 * 2 ^ 7 + 2 * 2 ^ 12 + 3 * 2 ^ 17) = some (.addsh3 1 2 3)
    ∧ decodeTableWord 32 (0x07000003 + 1 * 2 ^ 7 + 2 * 2 ^ 12) = some (.popc 1 2)
    ∧ decodeTableWord 32 (0x07400003 + 1 * 2 ^ 7 + 2 * 2 ^ 12) = some (.clz 1 2)
    ∧ decodeTableWord 32 (0x07800003 + 1 * 2 ^ 7 + 2 * 2 ^ 12) = some (.ctz 1 2)
    ∧ decodeTableWord 32 (0x07C00003 + 1 * 2 ^ 7 + 2 * 2 ^ 12 + 3 * 2 ^ 17) = some (.bext 1 2 3)
    ∧ decodeTableWord 32 (0x08000003 + 1 * 2 ^ 7 + 2 * 2 ^ 12 + 3 * 2 ^ 17) = some (.bexts 1 2 3)
    ∧ decodeTableWord 32 (0x08400003 + 1 * 2 ^ 7 + 2 * 2 ^ 12 + 3 * 2 ^ 17) = some (.bins 1 2 3)
    ∧ decodeTableWord 32 (0x08800003 + 1 * 2 ^ 7 + 2 * 2 ^ 12) = some (.mov 1 2) := by decide +kernel

/-- Words written out from the encoding tables: immediate forms (R134). -/
theorem test_words_immediate_forms :
    decodeTableWord 32 (0x00000007 + 1 * 2 ^ 7 + 2 * 2 ^ 12 + 0x7ffd * 2 ^ 17) = some (.addi 1 2 0x7ffd)
    ∧ decodeTableWord 32 (0x0000000B + 1 * 2 ^ 7 + 2 * 2 ^ 12 + 0x1ffd * 2 ^ 17) = some (.andi 1 2 0x1ffd)
    ∧ decodeTableWord 32 (0x4000000B + 1 * 2 ^ 7 + 2 * 2 ^ 12 + 0x1ffd * 2 ^ 17) = some (.ori 1 2 0x1ffd)
    ∧ decodeTableWord 32 (0x8000000B + 1 * 2 ^ 7 + 2 * 2 ^ 12 + 0x1ffd * 2 ^ 17) = some (.xori 1 2 0x1ffd)
    ∧ decodeTableWord 32 (0xC000000B + 1 * 2 ^ 7 + 2 * 2 ^ 12 + 0x1ffd * 2 ^ 17) = some (.slti 1 2 0x1ffd)
    ∧ decodeTableWord 32 (0x0000000F + 1 * 2 ^ 7 + 2 * 2 ^ 12 + 37 * 2 ^ 23) = some (.shli 1 2 37)
    ∧ decodeTableWord 32 (0x2000000F + 1 * 2 ^ 7 + 2 * 2 ^ 12 + 37 * 2 ^ 23) = some (.shri 1 2 37)
    ∧ decodeTableWord 32 (0x4000000F + 1 * 2 ^ 7 + 2 * 2 ^ 12 + 37 * 2 ^ 23) = some (.shai 1 2 37)
    ∧ decodeTableWord 32 (0x6000000F + 1 * 2 ^ 7 + 2 * 2 ^ 12 + 37 * 2 ^ 23) = some (.roti 1 2 37)
    ∧ decodeTableWord 32 (0x00000013 + 1 * 2 ^ 7 + 0xffffd * 2 ^ 12) = some (.movi 1 0xffffd)
    ∧ decodeTableWord 32 (0x00000017 + 1 * 2 ^ 7 + 0xffffd * 2 ^ 12) = some (.lih 1 0xffffd) := by decide +kernel

/-- Words written out from the encoding tables: loads and stores (R136, R143). -/
theorem test_words_loads_and_stores :
    decodeTableWord 32 (0x0000001B + 1 * 2 ^ 7 + 2 * 2 ^ 12 + 0xffd * 2 ^ 20) = some (.ldb 1 2 0xffd)
    ∧ decodeTableWord 32 (0x0002001B + 1 * 2 ^ 7 + 2 * 2 ^ 12 + 0xffd * 2 ^ 20) = some (.ldh 1 2 0xffd)
    ∧ decodeTableWord 32 (0x0004001B + 1 * 2 ^ 7 + 2 * 2 ^ 12 + 0xffd * 2 ^ 20) = some (.ldw 1 2 0xffd)
    ∧ decodeTableWord 32 (0x0006001B + 1 * 2 ^ 7 + 2 * 2 ^ 12 + 0xffd * 2 ^ 20) = some (.ldd 1 2 0xffd)
    ∧ decodeTableWord 32 (0x0008001B + 1 * 2 ^ 7 + 2 * 2 ^ 12 + 0xffd * 2 ^ 20) = some (.ldbs 1 2 0xffd)
    ∧ decodeTableWord 32 (0x000A001B + 1 * 2 ^ 7 + 2 * 2 ^ 12 + 0xffd * 2 ^ 20) = some (.ldhs 1 2 0xffd)
    ∧ decodeTableWord 32 (0x000C001B + 1 * 2 ^ 7 + 2 * 2 ^ 12 + 0xffd * 2 ^ 20) = some (.ldws 1 2 0xffd)
    ∧ decodeTableWord 32 (0x000E001B + 1 * 2 ^ 7 + 5 * 2 ^ 12 + 0xffd * 2 ^ 20) = some (.ldq 1 5 0xffd)
    ∧ decodeTableWord 32 (0x0000001F + 4 * 2 ^ 7 + 2 * 2 ^ 12 + 0xffd * 2 ^ 20) = some (.stb 4 2 0xffd)
    ∧ decodeTableWord 32 (0x0002001F + 4 * 2 ^ 7 + 2 * 2 ^ 12 + 0xffd * 2 ^ 20) = some (.sth 4 2 0xffd)
    ∧ decodeTableWord 32 (0x0004001F + 4 * 2 ^ 7 + 2 * 2 ^ 12 + 0xffd * 2 ^ 20) = some (.stw 4 2 0xffd)
    ∧ decodeTableWord 32 (0x0006001F + 4 * 2 ^ 7 + 2 * 2 ^ 12 + 0xffd * 2 ^ 20) = some (.std 4 2 0xffd) := by decide +kernel

/-- Words written out from the encoding tables: branches, calls and loops (R145, R146, R148). -/
theorem test_words_branches_calls_and_loops :
    decodeTableWord 32 (0x00000023 + 2 * 2 ^ 12 + 4 * 2 ^ 7 + 0xffd * 2 ^ 20) = some (.beq 2 4 0xffd)
    ∧ decodeTableWord 32 (0x00020023 + 2 * 2 ^ 12 + 4 * 2 ^ 7 + 0xffd * 2 ^ 20) = some (.bne 2 4 0xffd)
    ∧ decodeTableWord 32 (0x00040023 + 2 * 2 ^ 12 + 4 * 2 ^ 7 + 0xffd * 2 ^ 20) = some (.blt 2 4 0xffd)
    ∧ decodeTableWord 32 (0x00060023 + 2 * 2 ^ 12 + 4 * 2 ^ 7 + 0xffd * 2 ^ 20) = some (.bge 2 4 0xffd)
    ∧ decodeTableWord 32 (0x00080023 + 2 * 2 ^ 12 + 4 * 2 ^ 7 + 0xffd * 2 ^ 20) = some (.bltn 2 4 0xffd)
    ∧ decodeTableWord 32 (0x000A0023 + 2 * 2 ^ 12 + 4 * 2 ^ 7 + 0xffd * 2 ^ 20) = some (.bgen 2 4 0xffd)
    ∧ decodeTableWord 32 (0x000C0023 + 2 * 2 ^ 12 + 4 * 2 ^ 7 + 0xffd * 2 ^ 20) = some (.bbs 2 4 0xffd)
    ∧ decodeTableWord 32 (0x000E0023 + 2 * 2 ^ 12 + 4 * 2 ^ 7 + 0xffd * 2 ^ 20) = some (.bbc 2 4 0xffd)
    ∧ decodeTableWord 32 (0x00000027 + 0x1fffffd * 2 ^ 7) = some (.b 0x1fffffd)
    ∧ decodeTableWord 32 (0x0000002B + 0x1fffffd * 2 ^ 7) = some (.call 0x1fffffd)
    ∧ decodeTableWord 32 (0x0000002F + 2 * 2 ^ 12 + 0x3ffd * 2 ^ 17) = some (.j 2 0x3ffd)
    ∧ decodeTableWord 32 (0x8000002F + 1 * 2 ^ 7 + 2 * 2 ^ 12 + 0x3ffd * 2 ^ 17) = some (.jal 1 2 0x3ffd)
    ∧ decodeTableWord 32 (0x00000033 + 2 * 2 ^ 12 + 0x810 * 2 ^ 20) = some (.loop 2 0x810) := by decide +kernel

/-- Words written out from the encoding tables: extension registers (R152). -/
theorem test_words_extension_registers :
    decodeTableWord 32 (0x0000005F + 6 * 2 ^ 7 + 2 * 2 ^ 12) = some (.xset 6 2)
    ∧ decodeTableWord 32 (0x0040005F + 1 * 2 ^ 7 + 6 * 2 ^ 12) = some (.xget 1 6) := by decide +kernel

/-- Words written out from the encoding tables: counters and reductions (R157, R158, R159, R160, R162). -/
theorem test_words_counters_and_reductions :
    decodeTableWord 32 (0x00000037 + 2 * 2 ^ 12 + 3 * 2 ^ 17) = some (.cadd 2 3)
    ∧ decodeTableWord 32 (0x00400037 + 1 * 2 ^ 7 + 2 * 2 ^ 12 + 3 * 2 ^ 17) = some (.caddf 1 2 3)
    ∧ decodeTableWord 32 (0x00800037 + 2 * 2 ^ 12 + 3 * 2 ^ 17) = some (.cwait 2 3)
    ∧ decodeTableWord 32 (0x00C00037 + 1 * 2 ^ 7 + 2 * 2 ^ 12 + 3 * 2 ^ 17) = some (.cwaitt 1 2 3)
    ∧ decodeTableWord 32 (0x01000037 + 1 * 2 ^ 7 + 2 * 2 ^ 12) = some (.cread 1 2)
    ∧ decodeTableWord 32 (0x01400037 + 2 * 2 ^ 12 + 3 * 2 ^ 17) = some (.cwatch 2 3)
    ∧ decodeTableWord 32 (0x01800037 + 1 * 2 ^ 27 + 2 * 2 ^ 12 + 3 * 2 ^ 17) = some (.redadd 1 2 3)
    ∧ decodeTableWord 32 (0x01C00037 + 2 * 2 ^ 12 + 3 * 2 ^ 17) = some (.redaddf 2 3)
    ∧ decodeTableWord 32 (0x02000037 + 2 * 2 ^ 27 + 2 * 2 ^ 12 + 3 * 2 ^ 17) = some (.redmin 2 2 3)
    ∧ decodeTableWord 32 (0x02400037 + 2 * 2 ^ 27 + 2 * 2 ^ 12 + 3 * 2 ^ 17) = some (.redmax 2 2 3)
    ∧ decodeTableWord 32 (0x02800037 + 1 * 2 ^ 27 + 2 * 2 ^ 12 + 3 * 2 ^ 17) = some (.redand 1 2 3)
    ∧ decodeTableWord 32 (0x02C00037 + 1 * 2 ^ 27 + 2 * 2 ^ 12 + 3 * 2 ^ 17) = some (.redor 1 2 3)
    ∧ decodeTableWord 32 (0x03000037 + 1 * 2 ^ 27 + 2 * 2 ^ 12 + 3 * 2 ^ 17) = some (.redxor 1 2 3) := by decide +kernel

/-- Words written out from the encoding tables: fences and wires (R163, R165). -/
theorem test_words_fences_and_wires :
    decodeTableWord 32 (0x03400037 + 2 * 2 ^ 27 + 4 * 2 ^ 29) = some (.fence 2 4)
    ∧ decodeTableWord 32 (0x03800037 + 2 * 2 ^ 27) = some (.barw 2) := by decide +kernel

/-- Words written out from the encoding tables: messages (R166, R168, R169, R170, R171, R172, R173, R174). -/
theorem test_words_messages :
    decodeTableWord 32 (0x0000003B + 1 * 2 ^ 26 + 2 * 2 ^ 12 + 3 * 2 ^ 17 + 1 * 2 ^ 7) = some (.send true 2 3 1)
    ∧ decodeTableWord 32 (0x0800003B + 1 * 2 ^ 26 + 2 * 2 ^ 12 + 3 * 2 ^ 17 + 1 * 2 ^ 7) = some (.sends true 2 3 1)
    ∧ decodeTableWord 32 (0x1000003B) = some (.commit)
    ∧ decodeTableWord 32 (0x1800003B) = some (.abort)
    ∧ decodeTableWord 32 (0x2000003B + 2 * 2 ^ 22 + 2 * 2 ^ 12) = some (.fwd 2 2)
    ∧ decodeTableWord 32 (0x2800003B + 2 * 2 ^ 22 + 1 * 2 ^ 7) = some (.fwdw 2 1)
    ∧ decodeTableWord 32 (0x3000003B + 2 * 2 ^ 12) = some (.llput 2)
    ∧ decodeTableWord 32 (0x3800003B + 1 * 2 ^ 7) = some (.llget 1)
    ∧ decodeTableWord 32 (0x4000003B + 5 * 2 ^ 22 + 2 * 2 ^ 12 + 3 * 2 ^ 17) = some (.arm 5 2 3)
    ∧ decodeTableWord 32 (0x4800003B + 5 * 2 ^ 22 + 2 * 2 ^ 12) = some (.disarm 5 2)
    ∧ decodeTableWord 32 (0x5000003B) = some (.trig)
    ∧ decodeTableWord 32 (0x5800003B) = some (.endI)
    ∧ decodeTableWord 32 (0x6000003B + 2 * 2 ^ 12) = some (.join 2)
    ∧ decodeTableWord 32 (0x6800003B + 2 * 2 ^ 12) = some (.leave 2) := by decide +kernel

/-- Words written out from the encoding tables: queues (R176, R177, R178, R179). -/
theorem test_words_queues :
    decodeTableWord 32 (0x0000003F + 1 * 2 ^ 7 + 5 * 2 ^ 22) = some (.qwait 1 5)
    ∧ decodeTableWord 32 (0x0800003F + 5 * 2 ^ 22) = some (.qadv 5)
    ∧ decodeTableWord 32 (0x1000003F + 5 * 2 ^ 22 + 2 * 2 ^ 12) = some (.qfree 5 2)
    ∧ decodeTableWord 32 (0x1800003F + 5 * 2 ^ 22 + 2 * 2 ^ 12 + 3 * 2 ^ 17) = some (.qpush 5 2 3)
    ∧ decodeTableWord 32 (0x2000003F + 1 * 2 ^ 7 + 5 * 2 ^ 22) = some (.qstat 1 5) := by decide +kernel

/-- Words written out from the encoding tables: system (R105, R180, R181, R182, R183, R184). -/
theorem test_words_system :
    decodeTableWord 32 (0x00000043 + 0xffd * 2 ^ 12) = some (.trap 0xffd)
    ∧ decodeTableWord 32 (0x08000043 + 4 * 2 ^ 7) = some (.syscall 4)
    ∧ decodeTableWord 32 (0x10000043) = some (.migrate)
    ∧ decodeTableWord 32 (0x18000043 + 0xffd * 2 ^ 12) = some (.brk 0xffd)
    ∧ decodeTableWord 32 (0x20000043 + 4 * 2 ^ 7 + 0xffd * 2 ^ 12) = some (.mfs 4 0xffd)
    ∧ decodeTableWord 32 (0x28000043 + 4 * 2 ^ 7 + 0xffd * 2 ^ 12) = some (.mts 4 0xffd)
    ∧ decodeTableWord 32 (0x30000043) = some (.eret)
    ∧ decodeTableWord 32 (0x38000043) = some (.wfi)
    ∧ decodeTableWord 32 (0x40000043 + 0xffd * 2 ^ 12) = some (.hvcall 0xffd)
    ∧ decodeTableWord 32 (0x48000043 + 4 * 2 ^ 7) = some (.atinv 4)
    ∧ decodeTableWord 32 (0x50000043 + 4 * 2 ^ 7) = some (.dcwb 4)
    ∧ decodeTableWord 32 (0x58000043 + 4 * 2 ^ 7) = some (.dcinv 4)
    ∧ decodeTableWord 32 (0x60000043 + 4 * 2 ^ 7) = some (.icinv 4)
    ∧ decodeTableWord 32 (0x0000007F) = some (.nop) := by decide +kernel

/-- Words written out from the encoding tables: VEC-A (R196, R197). -/
theorem test_words_vec_a :
    decodeTableWord 32 (0x00000047 + 7 * 2 ^ 25 + 33 * 2 ^ 7 + 18 * 2 ^ 13 + 12 * 2 ^ 19) = some (.vadd 7 33 18 12)
    ∧ decodeTableWord 32 (0x10000047 + 7 * 2 ^ 25 + 33 * 2 ^ 7 + 18 * 2 ^ 13 + 12 * 2 ^ 19) = some (.vsub 7 33 18 12)
    ∧ decodeTableWord 32 (0x20000047 + 7 * 2 ^ 25 + 33 * 2 ^ 7 + 18 * 2 ^ 13 + 12 * 2 ^ 19) = some (.vmul 7 33 18 12)
    ∧ decodeTableWord 32 (0x30000047 + 7 * 2 ^ 25 + 33 * 2 ^ 7 + 18 * 2 ^ 13 + 12 * 2 ^ 19) = some (.vfma 7 33 18 12)
    ∧ decodeTableWord 32 (0x40000047 + 7 * 2 ^ 25 + 33 * 2 ^ 7 + 18 * 2 ^ 13 + 12 * 2 ^ 19) = some (.vmin 7 33 18 12)
    ∧ decodeTableWord 32 (0x50000047 + 7 * 2 ^ 25 + 33 * 2 ^ 7 + 18 * 2 ^ 13 + 12 * 2 ^ 19) = some (.vmax 7 33 18 12)
    ∧ decodeTableWord 32 (0x60000047 + 7 * 2 ^ 25 + 33 * 2 ^ 7 + 18 * 2 ^ 13 + 12 * 2 ^ 19) = some (.vand 7 33 18 12)
    ∧ decodeTableWord 32 (0x70000047 + 7 * 2 ^ 25 + 33 * 2 ^ 7 + 18 * 2 ^ 13 + 12 * 2 ^ 19) = some (.vor 7 33 18 12)
    ∧ decodeTableWord 32 (0x80000047 + 7 * 2 ^ 25 + 33 * 2 ^ 7 + 18 * 2 ^ 13 + 12 * 2 ^ 19) = some (.vxor 7 33 18 12)
    ∧ decodeTableWord 32 (0x90000047 + 7 * 2 ^ 25 + 33 * 2 ^ 7 + 18 * 2 ^ 13 + 12 * 2 ^ 19) = some (.vshl 7 33 18 12)
    ∧ decodeTableWord 32 (0xA0000047 + 7 * 2 ^ 25 + 33 * 2 ^ 7 + 18 * 2 ^ 13 + 12 * 2 ^ 19) = some (.vshr 7 33 18 12)
    ∧ decodeTableWord 32 (0xB0000047 + 7 * 2 ^ 25 + 33 * 2 ^ 7 + 18 * 2 ^ 13 + 12 * 2 ^ 19) = some (.vsha 7 33 18 12)
    ∧ decodeTableWord 32 (0xC0000047 + 7 * 2 ^ 25 + 33 * 2 ^ 7 + 18 * 2 ^ 13) = some (.vabs 7 33 18)
    ∧ decodeTableWord 32 (0xD0000047 + 7 * 2 ^ 25 + 33 * 2 ^ 7 + 18 * 2 ^ 13) = some (.vneg 7 33 18)
    ∧ decodeTableWord 32 (0xE0000047 + 1 * 2 ^ 25 + 33 * 2 ^ 7 + 18 * 2 ^ 13 + 12 * 2 ^ 19) = some (.vrec 1 33 18 12) := by decide +kernel

/-- Words written out from the encoding tables: VEC-B (R198, R199, R201, R208). -/
theorem test_words_vec_b :
    decodeTableWord 32 (0x0000004B + 2 * 2 ^ 25 + 33 * 2 ^ 7 + 18 * 2 ^ 13) = some (.vexp2 2 33 18)
    ∧ decodeTableWord 32 (0x1000004B + 2 * 2 ^ 25 + 33 * 2 ^ 7 + 18 * 2 ^ 13) = some (.vlog2 2 33 18)
    ∧ decodeTableWord 32 (0x2000004B + 1 * 2 ^ 25 + 33 * 2 ^ 7 + 18 * 2 ^ 13) = some (.vrcp 1 33 18)
    ∧ decodeTableWord 32 (0x3000004B + 2 * 2 ^ 25 + 33 * 2 ^ 7 + 18 * 2 ^ 13) = some (.vrsq 2 33 18)
    ∧ decodeTableWord 32 (0x4000004B + 2 * 2 ^ 25 + 33 * 2 ^ 7 + 18 * 2 ^ 13) = some (.vsig 2 33 18)
    ∧ decodeTableWord 32 (0x5000004B + 3 * 2 ^ 25 + 1 * 2 ^ 19 + 3 * 2 ^ 22 + 1 * 2 ^ 24 + 33 * 2 ^ 7 + 18 * 2 ^ 13) = some (.vcvt 3 1 3 true 33 18)
    ∧ decodeTableWord 32 (0x6000004B + 7 * 2 ^ 25 + 33 * 2 ^ 7 + 18 * 2 ^ 13 + 12 * 2 ^ 19) = some (.vperm 7 33 18 12)
    ∧ decodeTableWord 32 (0x7000004B + 7 * 2 ^ 25 + 33 * 2 ^ 7 + 18 * 2 ^ 13 + 12 * 2 ^ 19) = some (.vshf 7 33 18 12)
    ∧ decodeTableWord 32 (0x8000004B + 6 * 2 ^ 25 + 33 * 2 ^ 7 + 18 * 2 ^ 13 + 2 * 2 ^ 19) = some (.vscan 6 33 18 2)
    ∧ decodeTableWord 32 (0x9000004B + 7 * 2 ^ 25 + 33 * 2 ^ 7 + 18 * 2 ^ 13) = some (.vmov 7 33 18) := by decide +kernel

/-- Words written out from the encoding tables: VEC-X (R193, R202, R203, R204, R205, R206, R207, R209). -/
theorem test_words_vec_x :
    decodeTableWord 32 (0x0000004F + 37 * 2 ^ 18 + 2 * 2 ^ 13 + 61 * 2 ^ 7) = some (.vld 37 2 61)
    ∧ decodeTableWord 32 (0x0800004F + 37 * 2 ^ 18 + 2 * 2 ^ 13 + 61 * 2 ^ 7) = some (.vst 37 2 61)
    ∧ decodeTableWord 32 (0x1000004F + 37 * 2 ^ 18 + 5 * 2 ^ 13 + 61 * 2 ^ 7) = some (.vldq 37 5 61)
    ∧ decodeTableWord 32 (0x1800004F + 7 * 2 ^ 24 + 37 * 2 ^ 18 + 2 * 2 ^ 13) = some (.vbcast 7 37 2)
    ∧ decodeTableWord 32 (0x2000004F + 7 * 2 ^ 24 + 2 * 2 ^ 13 + 37 * 2 ^ 18 + 9 * 2 ^ 7) = some (.vext 7 2 37 9)
    ∧ decodeTableWord 32 (0x2800004F + 7 * 2 ^ 24 + 37 * 2 ^ 18 + 2 * 2 ^ 13 + 9 * 2 ^ 7) = some (.vins 7 37 2 9)
    ∧ decodeTableWord 32 (0x3000004F + 7 * 2 ^ 24 + 2 * 2 ^ 13 + 37 * 2 ^ 18 + 12 * 2 ^ 7) = some (.vcmpeq 7 2 37 12)
    ∧ decodeTableWord 32 (0x3800004F + 7 * 2 ^ 24 + 2 * 2 ^ 13 + 37 * 2 ^ 18 + 12 * 2 ^ 7) = some (.vcmplt 7 2 37 12)
    ∧ decodeTableWord 32 (0x4000004F + 7 * 2 ^ 24 + 2 * 2 ^ 13 + 37 * 2 ^ 18 + 12 * 2 ^ 7) = some (.vcmple 7 2 37 12)
    ∧ decodeTableWord 32 (0x4800004F + 7 * 2 ^ 24 + 37 * 2 ^ 18 + 2 * 2 ^ 13 + 12 * 2 ^ 7) = some (.vsel 7 37 2 12)
    ∧ decodeTableWord 32 (0x5000004F + 7 * 2 ^ 24 + 2 * 2 ^ 13 + 37 * 2 ^ 18) = some (.vredadd 7 2 37)
    ∧ decodeTableWord 32 (0x5800004F + 7 * 2 ^ 24 + 2 * 2 ^ 13 + 37 * 2 ^ 18) = some (.vredmax 7 2 37)
    ∧ decodeTableWord 32 (0x6000004F + 7 * 2 ^ 24 + 2 * 2 ^ 13 + 37 * 2 ^ 18) = some (.vredmin 7 2 37)
    ∧ decodeTableWord 32 (0x6800004F + 6 * 2 ^ 24 + 37 * 2 ^ 18 + 1 * 2 ^ 9 + 3 * 2 ^ 11 + 1 * 2 ^ 7 + 2 * 2 ^ 13) = some (.xscan 6 37 1 3 1 2)
    ∧ decodeTableWord 32 (0x7000004F) = some (.vfence)
    ∧ decodeTableWord 32 (0x7800004F + 37 * 2 ^ 18 + 2 * 2 ^ 13 + 7 * 2 ^ 7) = some (.vstm 37 2 7) := by decide +kernel

/-- Words written out from the encoding tables: matrix (R213, R215, R216, R219, R224, R226, R228). -/
theorem test_words_matrix :
    decodeTableWord 32 (0x00000053 + 2 * 2 ^ 22 + 3 * 2 ^ 26) = some (.gang 2 3)
    ∧ decodeTableWord 32 (0x10000053 + 7 * 2 ^ 22 + 2 * 2 ^ 26) = some (.mopaAcc 7 2)
    ∧ decodeTableWord 32 (0x12000053 + 3 * 2 ^ 22 + 2 * 2 ^ 12 + 3 * 2 ^ 17) = some (.mopaBlock 3 2 3)
    ∧ decodeTableWord 32 (0x20000053 + 7 * 2 ^ 22 + 2 * 2 ^ 26) = some (.mopbAcc 7 2)
    ∧ decodeTableWord 32 (0x22000053 + 7 * 2 ^ 22 + 2 * 2 ^ 12 + 3 * 2 ^ 17) = some (.mopbBlock 7 2 3)
    ∧ decodeTableWord 32 (0x30000053 + 2 * 2 ^ 26 + 1 * 2 ^ 25) = some (.mma 2 true)
    ∧ decodeTableWord 32 (0x40000053 + 2 * 2 ^ 26 + 2 * 2 ^ 12) = some (.mmas 2 2)
    ∧ decodeTableWord 32 (0x50000053 + 2 * 2 ^ 26 + 1 * 2 ^ 25 + 33 * 2 ^ 16 + 18 * 2 ^ 10) = some (.msca 2 true 33 18)
    ∧ decodeTableWord 32 (0x60000053 + 2 * 2 ^ 26) = some (.mzero 2)
    ∧ decodeTableWord 32 (0x70000053 + 1 * 2 ^ 7) = some (.mstat 1)
    ∧ decodeTableWord 32 (0x80000053) = some (.mwait) := by decide +kernel

/-- Words written out from the encoding tables: integrator fabric (R243, R249, R250, R251, R252, R253, R254). -/
theorem test_words_integrator_fabric :
    decodeTableWord 32 (0x00000057 + 0x100 * 2 ^ 17 + 2 * 2 ^ 12 + 1 * 2 ^ 7) = some (.dpatch 0x100 2 1)
    ∧ decodeTableWord 32 (0x10000057 + 0x81 * 2 ^ 17 + 2 * 2 ^ 12) = some (.dset 0x81 2)
    ∧ decodeTableWord 32 (0x20000057 + 1 * 2 ^ 7 + 0x81 * 2 ^ 17) = some (.dget 1 0x81)
    ∧ decodeTableWord 32 (0x30000057 + 1 * 2 ^ 7 + 0x81 * 2 ^ 17) = some (.dres 1 0x81)
    ∧ decodeTableWord 32 (0x40000057 + 2 * 2 ^ 12) = some (.dsave 2)
    ∧ decodeTableWord 32 (0x50000057 + 2 * 2 ^ 12) = some (.dload 2)
    ∧ decodeTableWord 32 (0x60000057 + 9 * 2 ^ 17 + 2 * 2 ^ 12) = some (.dclk 9 2)
    ∧ decodeTableWord 32 (0x70000057 + 2 * 2 ^ 12) = some (.dstep 2)
    ∧ decodeTableWord 32 (0x80000057) = some (.drun)
    ∧ decodeTableWord 32 (0x90000057) = some (.dhalt)
    ∧ decodeTableWord 32 (0xA0000057) = some (.dwait)
    ∧ decodeTableWord 32 (0xB0000057 + 1 * 2 ^ 22 + 1 * 2 ^ 7 + 17 * 2 ^ 17) = some (.drdc true 1 17)
    ∧ decodeTableWord 32 (0xC0000057 + 17 * 2 ^ 17) = some (.dclrc 17)
    ∧ decodeTableWord 32 (0xD0000057 + 1 * 2 ^ 7) = some (.dstat 1)
    ∧ decodeTableWord 32 (0xE0000057 + 2 * 2 ^ 12) = some (.dinj 2) := by decide +kernel

/-- Words written out from the encoding tables: streams (R259, R261, R262, R263, R269). -/
theorem test_words_streams :
    decodeTableWord 32 (0x0000005B + 1 * 2 ^ 27 + 1 * 2 ^ 26 + 4 * 2 ^ 23 + 1 * 2 ^ 22 + 1 * 2 ^ 7 + 2 * 2 ^ 12 + 3 * 2 ^ 17) = some (.fetch true true 4 true 1 2 3)
    ∧ decodeTableWord 32 (0x1000005B + 1 * 2 ^ 27 + 1 * 2 ^ 26 + 4 * 2 ^ 23 + 1 * 2 ^ 22 + 1 * 2 ^ 7 + 2 * 2 ^ 12 + 3 * 2 ^ 17) = some (.put true true 4 true 1 2 3)
    ∧ decodeTableWord 32 (0x2000005B + 1 * 2 ^ 27 + 1 * 2 ^ 26 + 4 * 2 ^ 23 + 1 * 2 ^ 22 + 1 * 2 ^ 7 + 2 * 2 ^ 12 + 3 * 2 ^ 17) = some (.copy true true 4 true 1 2 3)
    ∧ decodeTableWord 32 (0x3000005B + 1 * 2 ^ 27 + 1 * 2 ^ 26 + 4 * 2 ^ 23 + 1 * 2 ^ 22 + 1 * 2 ^ 7 + 2 * 2 ^ 12 + 3 * 2 ^ 17) = some (.mcast true true 4 true 1 2 3)
    ∧ decodeTableWord 32 (0x4000005B + 1 * 2 ^ 27 + 1 * 2 ^ 26 + 4 * 2 ^ 23 + 1 * 2 ^ 22 + 1 * 2 ^ 7 + 2 * 2 ^ 12 + 3 * 2 ^ 17) = some (.gather true true 4 true 1 2 3)
    ∧ decodeTableWord 32 (0x5000005B + 1 * 2 ^ 27 + 1 * 2 ^ 26 + 4 * 2 ^ 23 + 1 * 2 ^ 22 + 1 * 2 ^ 7 + 2 * 2 ^ 12 + 3 * 2 ^ 17) = some (.scatter true true 4 true 1 2 3)
    ∧ decodeTableWord 32 (0x6000005B + 1 * 2 ^ 7 + 2 * 2 ^ 12) = some (.trec 1 2)
    ∧ decodeTableWord 32 (0x7000005B + 2 * 2 ^ 12) = some (.trinv 2)
    ∧ decodeTableWord 32 (0x8000005B) = some (.sfence) := by decide +kernel

/-- Words written out from the encoding tables: compact (R105, R116). -/
theorem test_words_compact :
    decodeTableWord 16 (0x0000 + 1 * 2 ^ 9 + 3 * 2 ^ 5) = some (.cMov 1 3)
    ∧ decodeTableWord 16 (0x0004 + 1 * 2 ^ 9 + 3 * 2 ^ 5) = some (.cAdd 1 3)
    ∧ decodeTableWord 16 (0x0008 + 1 * 2 ^ 9 + 3 * 2 ^ 5) = some (.cSub 1 3)
    ∧ decodeTableWord 16 (0x000C + 1 * 2 ^ 9 + 3 * 2 ^ 5) = some (.cAnd 1 3)
    ∧ decodeTableWord 16 (0x0010 + 1 * 2 ^ 9 + 3 * 2 ^ 5) = some (.cOr 1 3)
    ∧ decodeTableWord 16 (0x0014 + 1 * 2 ^ 9 + 3 * 2 ^ 5) = some (.cXor 1 3)
    ∧ decodeTableWord 16 (0x0018 + 1 * 2 ^ 9 + 3 * 2 ^ 5) = some (.cShl 1 3)
    ∧ decodeTableWord 16 (0x001C + 1 * 2 ^ 9 + 3 * 2 ^ 5) = some (.cShr 1 3)
    ∧ decodeTableWord 16 (0x2000 + 1 * 2 ^ 9 + 0x7d * 2 ^ 2) = some (.cAddi 1 0x7d)
    ∧ decodeTableWord 16 (0x4000 + 1 * 2 ^ 9 + 0x7d * 2 ^ 2) = some (.cMovi 1 0x7d)
    ∧ decodeTableWord 16 (0x6000 + 1 * 2 ^ 9 + 37 * 2 ^ 3) = some (.cShli 1 37)
    ∧ decodeTableWord 16 (0x8000 + 1 * 2 ^ 9 + 2 * 2 ^ 5 + 5 * 2 ^ 2) = some (.cLdd 1 2 5)
    ∧ decodeTableWord 16 (0xA000 + 4 * 2 ^ 9 + 2 * 2 ^ 5 + 5 * 2 ^ 2) = some (.cStd 4 2 5)
    ∧ decodeTableWord 16 (0xC000 + 1 * 2 ^ 9 + 2 * 2 ^ 5 + 5 * 2 ^ 2) = some (.cLdw 1 2 5)
    ∧ decodeTableWord 16 (0xE000 + 4 * 2 ^ 9 + 2 * 2 ^ 5 + 5 * 2 ^ 2) = some (.cStw 4 2 5)
    ∧ decodeTableWord 16 (0x0001 + 2 * 2 ^ 9 + 0x7d * 2 ^ 2) = some (.cBeqz 2 0x7d)
    ∧ decodeTableWord 16 (0x2001 + 2 * 2 ^ 9 + 0x7d * 2 ^ 2) = some (.cBnez 2 0x7d)
    ∧ decodeTableWord 16 (0x4001 + 0x7fd * 2 ^ 2) = some (.cB 0x7fd)
    ∧ decodeTableWord 16 (0x6001 + 2 * 2 ^ 9) = some (.cJ 2)
    ∧ decodeTableWord 16 (0x8001) = some (.cEnd)
    ∧ decodeTableWord 16 (0xA001 + 5 * 2 ^ 10) = some (.cQadv 5)
    ∧ decodeTableWord 16 (0xC001) = some (.compactHint) := by decide +kernel

/-! ### States of the tests -/

theorem padTo_length : ∀ (n : Nat) (l : List Byte), (padTo n l).length = n
  | 0, _ => rfl
  | n + 1, [] => congrArg (· + 1) (padTo_length n [])
  | n + 1, _ :: l => congrArg (· + 1) (padTo_length n l)

/-- Registers by number and value. -/
def regs (l : List (Nat × Nat)) : Vector Word 32 := Vector.ofFn fun i => BitVec.ofNat 64 (Sparse.get 0 l i.val)
def eregs (l : List (Nat × Nat)) : Vector Word 8 := Vector.ofFn fun i => BitVec.ofNat 64 (Sparse.get 0 l i.val)

/-- A context at an address, with registers. -/
def ctx (pc : Nat) (rs es : List (Nat × Nat)) : Ctx :=
  { Ctx.reset with regs := regs rs, eregs := eregs es, pc := BitVec.ofNat 64 pc }

/-- A READY slot with registers, at an address. -/
def slot (pc : Nat) (rs es : List (Nat × Nat)) : Slot :=
  { Slot.reset with state := .ready, act := 7, ctx := ctx pc rs es }

/-- A bulkhead of a region. -/
def live (r : Nat) : Bulk := { Bulk.reset with st := .live, region := BitVec.ofNat 6 r, gate := 1 }

/-- Bytes in memory at a key. -/
def bytesAt (k : Nat) (bs : List Nat) : Memory := Memory.writeN [] k (bs.map (BitVec.ofNat 8))

/-- A word in the scratch of tile 5, at an offset. -/
def at5 (off v : Nat) : Memory := Memory.writeN [] (scratchKey 5 off) (bytesOfNat 8 v)

/-- Tile 5, of bulkhead 0 and region 1, whose slot 0 issues an instruction of four bytes. -/
def onTile (x : Tile) (y : Slot) (m : Memory) : State :=
  { State.reset with tiles := [(5, x.setSlot 0 y)], bulks := [(0, live 1)], cur := .slot 5 0, iw := 3, mem := m, serial := 100 }

/-- The same with a plain tile. -/
def on (rs es : List (Nat × Nat)) (m : Memory) : State := onTile Tile.reset (slot 0x100 rs es) m

/-- The address of an offset of tile 5 by tag 0x1. -/
def far5 (off : Nat) : Nat := 2 ^ 60 + 5 * 2 ^ 24 + off

/-- The same with the Dean's tables in edge memory: a leaf of 1 GiB at address 0, under HROOT of core 0. -/
def dean (leaf : Nat) (s : State) : State :=
  { s.onIsland 0 (fun x => x.setCore 0 { x.core 0 with hroot := 0x300001 }) with
    mem := (s.mem.writeN (physKey 0x300000) (bytesOfNat 8 0x400001)).writeN (physKey 0x400000) (bytesOfNat 8 leaf),
    keys := [(0, { token := 70, region := 0 })],
    seals := s.seals ++ [(0x300000 / 64, { token := 70, ok := true, minor := 1 }), (0x400000 / 64, { token := 70, ok := true, minor := 1 })] }

/-- Core 2 of bulkhead 0 executes, at level H or G. -/
def onCore (h : Bool) (rs : List (Nat × Nat)) (x : Island) (m : Memory) : State :=
  { State.reset with
    islands := [(0, x.setCore 2 { x.core 2 with ctx := ctx 0x2000 rs [], h := h, running := true, hventry := 0x8000000000001000,
                                                  pepc := 0x3000, psaved := 2 })],
    bulks := [(0, live 1)], cur := .core 0 2, iw := 3, mem := m, serial := 100 }

/-! ### Words that the spec prints, with the instructions it prints them for -/

/-- The words printed for R125, R135 and R153. -/
theorem test_printed_words_scalar :
    decodeTableWord 16 0x8840 = some (.cLdd 4 2 0)
    ∧ decodeTableWord 32 0x0086229B = some (.ldd 5 2 8)
    ∧ decodeTableWord 32 0x000A4303 = some (.add 6 4 5)
    ∧ decodeTableWord 32 0xFFFA6307 = some (.addi 6 6 (-3))
    ∧ decodeTableWord 32 0x00406023 = some (.beq 6 0 4)
    ∧ decodeTableWord 32 0x0106231F = some (.std 6 2 16)
    ∧ decodeTableWord 16 0x8001 = some .cEnd
    ∧ decodeTableWord 32 0x6789A213 = some (.movi 4 0x6789A)
    ∧ decodeTableWord 32 0x12345217 = some (.lih 4 0x12345)
    ∧ decodeTableWord 32 0x6080B58F = some (.roti 11 11 1)
    ∧ decodeTableWord 32 0x00D6A503 = some (.or 10 10 11)
    ∧ decodeTableWord 32 0x08802403 = some (.mov 8 2)
    ∧ decodeTableWord 32 0x00607033 = some (.loop 7 6)
    ∧ decodeTableWord 32 0x000090DF = some (.xset 1 9) := by decide +kernel

/-- The words printed for R125 and R186. -/
theorem test_printed_words_sync :
    decodeTableWord 32 0x4B400037 = some (.fence 1 2)
    ∧ decodeTableWord 32 0x000AC037 = some (.cadd 12 5)
    ∧ decodeTableWord 32 0x00DAC4B7 = some (.cwaitt 9 12 13)
    ∧ decodeTableWord 32 0x124AA037 = some (.redmax 2 10 5)
    ∧ decodeTableWord 32 0x03800037 = some (.barw 0)
    ∧ decodeTableWord 32 0x13800037 = some (.barw 2)
    ∧ decodeTableWord 32 0x040C43BB = some (.send true 4 6 7)
    ∧ decodeTableWord 32 0x1000003B = some .commit
    ∧ decodeTableWord 32 0x2040803B = some (.fwd 1 8)
    ∧ decodeTableWord 32 0x28C004BB = some (.fwdw 3 9)
    ∧ decodeTableWord 32 0x408A403B = some (.arm 2 4 5)
    ∧ decodeTableWord 32 0x5000003B = some .trig
    ∧ decodeTableWord 32 0x5800003B = some .endI
    ∧ decodeTableWord 32 0x0040033F = some (.qwait 6 1)
    ∧ decodeTableWord 32 0x1040603F = some (.qfree 1 6)
    ∧ decodeTableWord 16 0xA401 = some (.cQadv 1)
    ∧ decodeTableWord 32 0x0002A043 = some (.trap 0x2A)
    ∧ decodeTableWord 32 0x08000243 = some (.syscall 4)
    ∧ decodeTableWord 32 0x28020243 = some (.mts 4 0x020)
    ∧ decodeTableWord 32 0x20005243 = some (.mfs 4 0x005)
    ∧ decodeTableWord 32 0x30000043 = some .eret := by decide +kernel

/-- The words printed for R125, R211 and R212. -/
theorem test_printed_words_vector_matrix :
    decodeTableWord 32 0x014068C7 = some (.vadd 0 17 3 40)
    ∧ decodeTableWord 32 0x0010A14F = some (.vld 4 5 2)
    ∧ decodeTableWord 32 0x6E102E4F = some (.xscan 6 4 3 1 0 1)
    ∧ decodeTableWord 32 0x6E100E4F = some (.xscan 6 4 3 1 0 0)
    ∧ decodeTableWord 32 0x6E104E4F = some (.xscan 6 4 3 1 0 2)
    ∧ decodeTableWord 32 0x30490247 = some (.vfma 0 4 8 9)
    ∧ decodeTableWord 32 0xE2184A47 = some (.vrec 1 20 2 3)
    ∧ decodeTableWord 32 0x5008444B = some (.vcvt 0 1 0 false 8 2)
    ∧ decodeTableWord 32 0x5742884B = some (.vcvt 3 0 1 true 16 20)
    ∧ decodeTableWord 32 0x8019024B = some (.vscan 0 4 8 3)
    ∧ decodeTableWord 32 0x3808C1CF = some (.vcmplt 0 6 2 3)
    ∧ decodeTableWord 32 0x781543CF = some (.vstm 5 10 7)
    ∧ decodeTableWord 32 0x7000004F = some .vfence
    ∧ decodeTableWord 32 0x08800053 = some (.gang 2 2)
    ∧ decodeTableWord 32 0x10400053 = some (.mopaAcc 1 0)
    ∧ decodeTableWord 32 0x134A4053 = some (.mopaBlock 5 4 5)
    ∧ decodeTableWord 32 0x234A6053 = some (.mopbBlock 5 6 5)
    ∧ decodeTableWord 32 0x3A000053 = some (.mma 2 true)
    ∧ decodeTableWord 32 0x44006053 = some (.mmas 1 6)
    ∧ decodeTableWord 32 0x5A041453 = some (.msca 2 true 4 5)
    ∧ decodeTableWord 32 0x6C000053 = some (.mzero 3)
    ∧ decodeTableWord 32 0x700004D3 = some (.mstat 9)
    ∧ decodeTableWord 32 0x80000053 = some .mwait := by decide +kernel

/-- The words printed for R125, R249, R254 and R257. -/
theorem test_printed_words_fabric_stream :
    decodeTableWord 32 0x000042D7 = some (.dpatch 0 4 5)
    ∧ decodeTableWord 32 0x02006057 = some (.dpatch 0x100 6 0)
    ∧ decodeTableWord 32 0x100E3057 = some (.dset 7 3)
    ∧ decodeTableWord 32 0xB04804D7 = some (.drdc true 9 4)
    ∧ decodeTableWord 32 0xC03E0057 = some (.dclrc 31)
    ∧ decodeTableWord 32 0xD00003D7 = some (.dstat 7)
    ∧ decodeTableWord 32 0xE0006057 = some (.dinj 6)
    ∧ decodeTableWord 32 0x1490735B = some (.put false true 1 false 6 7 8)
    ∧ decodeTableWord 32 0x3490735B = some (.mcast false true 1 false 6 7 8)
    ∧ decodeTableWord 32 0x2058B55B = some (.copy false false 0 true 10 11 12)
    ∧ decodeTableWord 32 0x099805DB = some (.fetch true false 3 false 11 0 12)
    ∧ decodeTableWord 32 0x600074DB = some (.trec 9 7)
    ∧ decodeTableWord 32 0x7000405B = some (.trinv 4)
    ∧ decodeTableWord 32 0x8000005B = some .sfence := by decide +kernel

/-- What R103 step 2 calls ILLEGAL has no instruction: the zero halfword and `C.MOV s0, s0`, a reserved compact code,
majors 0x18 to 0x1E, codes beyond a group's list, and reserved field values. -/
theorem test_refused_words :
    decodeTableWord 16 0x0000 = none ∧ decodeTableWord 16 0xE001 = none
    ∧ decodeTableWord 32 0x00000063 = none ∧ decodeTableWord 32 0x0000007B = none
    ∧ decodeTableWord 32 (0x00000003 + 35 * 2 ^ 22) = none
    ∧ decodeTableWord 32 (0x0000000F + 4 * 2 ^ 29) = none
    ∧ decodeTableWord 32 (0x0000001F + 4 * 2 ^ 17) = none
    ∧ decodeTableWord 32 (0x00000037 + 15 * 2 ^ 22) = none
    ∧ decodeTableWord 32 (0x0000003B + 14 * 2 ^ 27) = none
    ∧ decodeTableWord 32 (0x0000003F + 5 * 2 ^ 27) = none
    ∧ decodeTableWord 32 (0x00000043 + 13 * 2 ^ 27) = none
    ∧ decodeTableWord 32 (0x00000047 + 15 * 2 ^ 28) = none
    ∧ decodeTableWord 32 (0x0000004B + 10 * 2 ^ 28) = none
    ∧ decodeTableWord 32 (0x0000004F + 16 * 2 ^ 27) = none
    ∧ decodeTableWord 32 (0x00000053 + 9 * 2 ^ 28) = none
    ∧ decodeTableWord 32 (0x00000057 + 15 * 2 ^ 28) = none
    ∧ decodeTableWord 32 (0x10000057 + 2 ^ 25) = none
    ∧ decodeTableWord 32 (0x0000005B + 9 * 2 ^ 28) = none
    ∧ decodeTableWord 32 0x00007033 = none := by decide +kernel

/-! ### Well-formedness: an ill-formed term for each check, refused -/

theorem test_ill_formed :
    (Instr.loop 1 0).wf = false ∧ (Instr.redand 2 1 2).wf = false ∧ (Instr.redmin 3 1 2).wf = false
    ∧ (Instr.fence 3 0).wf = false ∧ (Instr.fence 0 5).wf = false ∧ (Instr.barw 3).wf = false
    ∧ (Instr.vadd 5 1 2 3).wf = false ∧ (Instr.vshl 0 1 2 3).wf = false ∧ (Instr.vrec 6 1 2 3).wf = false
    ∧ (Instr.vexp2 3 1 2).wf = false ∧ (Instr.vcvt 0 1 0 true 2 2).wf = false ∧ (Instr.vcvt 0 7 0 false 2 0).wf = false
    ∧ (Instr.vcvt 3 0 0 true 0 2).wf = false ∧ (Instr.vscan 1 0 0 0).wf = false ∧ (Instr.vscan 0 1 2 3).wf = false
    ∧ (Instr.vext 6 1 2 16).wf = false ∧ (Instr.vins 5 1 2 0).wf = false ∧ (Instr.xscan 0 2 1 1 0 0).wf = false
    ∧ (Instr.xscan 6 2 1 3 3 0).wf = false ∧ (Instr.xscan 0 3 1 3 3 0).wf = false ∧ (Instr.gang 3 0).wf = false
    ∧ (Instr.gang 1 2).wf = false ∧ (Instr.dpatch 257 1 2).wf = false ∧ (Instr.copy false false 5 false 1 2 3).wf = false
    ∧ (Instr.cMov 0 0).wf = false := by decide +kernel

/-! ### Results that the spec prints or that follow from its rules by hand -/

/-- What `f` reads in the next state of an instruction. -/
def after (i : Instr) (s : State) (f : State → Nat) : Option Nat :=
  match exec i s with
  | .next t => some (f t)
  | _ => none

/-- The value of a register after an instruction. -/
def regAfter (i : Instr) (s : State) (r : Reg) : Option Nat := after i s fun t => (t.rd r).toNat

/-- The table of R132. -/
theorem test_division :
    regAfter (.div 1 2 3) (on [(2, 2 ^ 64 - 7), (3, 2)] [] []) 1 = some (2 ^ 64 - 3)
    ∧ regAfter (.rem 1 2 3) (on [(2, 2 ^ 64 - 7), (3, 2)] [] []) 1 = some (2 ^ 64 - 1)
    ∧ regAfter (.rem 1 2 3) (on [(2, 7), (3, 2 ^ 64 - 2)] [] []) 1 = some 1
    ∧ regAfter (.divn 1 2 3) (on [(2, 0xFFFFFFFFFFFFFFF9), (3, 2)] [] []) 1 = some 0x7FFFFFFFFFFFFFFC
    ∧ regAfter (.div 1 2 3) (on [(2, 5)] [] []) 1 = some (2 ^ 64 - 1)
    ∧ regAfter (.remn 1 2 3) (on [(2, 42)] [] []) 1 = some 42
    ∧ regAfter (.div 1 2 3) (on [(2, 2 ^ 63), (3, 2 ^ 64 - 1)] [] []) 1 = some (2 ^ 63)
    ∧ regAfter (.rem 1 2 3) (on [(2, 2 ^ 63), (3, 2 ^ 64 - 1)] [] []) 1 = some 0 := by decide +kernel

/-- The examples of R133, and a `BINS` that runs over bit 63. -/
theorem test_bit_fields :
    regAfter (.bext 1 2 3) (on [(2, 0xF5A0), (3, 0x204)] [] []) 1 = some 0x5A
    ∧ regAfter (.bexts 1 2 3) (on [(2, 0xF5A0), (3, 0x204)] [] []) 1 = some 0x5A
    ∧ regAfter (.bexts 1 2 3) (on [(2, 0x0A50), (3, 0x204)] [] []) 1 = some 0xFFFFFFFFFFFFFFA5
    ∧ regAfter (.bins 1 2 3) (on [(1, 1), (2, 0xFF), (3, 8 * 2 ^ 6 + 60)] [] []) 1 = some 0xF000000000000001 := by decide +kernel

/-- Wraps, rotations and products of R131, and the immediates of R134 and R135. -/
theorem test_alu :
    regAfter (.add 1 2 3) (on [(2, 2 ^ 64 - 1), (3, 2)] [] []) 1 = some 1
    ∧ regAfter (.rot 1 2 3) (on [(2, 1), (3, 65)] [] []) 1 = some (2 ^ 63)
    ∧ regAfter (.sha 1 2 3) (on [(2, 2 ^ 63), (3, 63)] [] []) 1 = some (2 ^ 64 - 1)
    ∧ regAfter (.mulh 1 2 2) (on [(2, 2 ^ 64 - 1)] [] []) 1 = some 0
    ∧ regAfter (.mulhn 1 2 2) (on [(2, 2 ^ 64 - 1)] [] []) 1 = some (2 ^ 64 - 2)
    ∧ regAfter (.sel 1 2 3) (on [(1, 0xF0), (2, 0xAA), (3, 0x55)] [] []) 1 = some 0xA5
    ∧ regAfter (.clz 1 2) (on [] [] []) 1 = some 64
    ∧ regAfter (.addi 1 2 (-1)) (on [] [] []) 1 = some (2 ^ 64 - 1)
    ∧ regAfter (.lih 4 0x12345) (on [(4, 0x6789A)] [] []) 4 = some 0x123456789A
    ∧ regAfter (.lih 4 0xFFFFF) (on [(4, 2 ^ 63 + 5)] [] []) 4 = some (2 ^ 64 - 2 ^ 20 + 5) := by decide +kernel

/-- A signed and an unsigned byte load, and a byte store that leaves its neighbour (R136). -/
theorem test_loads_and_stores :
    regAfter (.ldbs 1 2 7) (on [(2, 0x40)] [] (at5 0x40 0x8070605040302010)) 1 = some (2 ^ 64 - 128)
    ∧ regAfter (.ldb 1 2 7) (on [(2, 0x40)] [] (at5 0x40 0x8070605040302010)) 1 = some 0x80
    ∧ after (.stb 1 2 1) (on [(1, 0x1FF), (2, 0x40)] [] (at5 0x40 0x3020)) (fun t => ofBytes (t.mem.readN (scratchKey 5 0x40) 3))
      = some 0xFF20 := by decide +kernel

/-- A branch back by two halfwords, taken and not taken, and the link of `JAL` (R145, R146). -/
theorem test_branches :
    after (.blt 2 3 (-2)) (on [(2, 2 ^ 64 - 1), (3, 0)] [] []) (fun t => t.pc.toNat) = some 0xFC
    ∧ after (.bltn 2 3 (-2)) (on [(2, 2 ^ 64 - 1), (3, 0)] [] []) (fun t => t.pc.toNat) = some 0x104
    ∧ regAfter (.jal 1 2 0) (on [(2, 0x2000)] [] []) 1 = some 0x104 := by decide +kernel

/-- The conversions of the example that follows R211: FP32 500.0 saturates to 0x7E, and −0.001 becomes 0x80 by RZ and
0x81 by RNE. -/
theorem test_conversions :
    convert 3 0 1 true 0x43FA0000 = 0x7E ∧ convert 3 0 1 true 0xBA83126F = 0x80 ∧ convert 3 0 0 true 0xBA83126F = 0x81 := by
  decide +kernel

/-- The example of R70. -/
theorem test_dset : (yOfFP 0x3E99999A).toNat = 5033165 ∧ fpOfY 5033165 = 0x3E99999A ∧ (yOfFP 0x3FC00000).toNat = 2 ^ 24 := by
  decide +kernel

/-- The region shapes of R288. -/
theorem test_shapes :
    connected [0, 1, 8, 9] = true ∧ connected [2, 3, 10, 11] = true ∧ connected [0, 2] = false := by decide +kernel

/-! ### States of the witnesses -/

def sStep : State := { State.reset with tiles := [(0, Tile.reset.setSlot 0 (slot 0x27FFC [(2,9)] []))], mem := Memory.writeN [] (scratchKey 0 0x27FFC) (encodeBytes (.addi 1 2 (-1))) }
def sStepC : State := { State.reset with tiles := [(0, (Tile.reset.setSlot 0 (slot 0x27FFE [(2,9)] [])))], mem := Memory.writeN [] (scratchKey 0 0x27FFE) (encodeBytes (.cMov 1 2)) }
def sTurn (t : Turn) : State := { sStep with agenda := [t, .issue 0] }
def sRecov (l : List Turn) : State := { sStep with agenda := l, office := { Office.reset with recovery := true } }
def sAfter : State := match step sStep with | .next t => t | _ => State.reset
def sAlu : State := on [(1, 7), (2, 0x8000000000000000), (3, 0xFFFFFFFFFFFFFFFF), (4, 0)] [(5, 9)] []
/-- Loop levels: start offset, length and count. -/
def level (start len count : Nat) : Word := loopWord (BitVec.ofNat 64 start) len count
def sLoop (l0 l1 : Word) : State :=
  onTile Tile.reset { slot 0x100 [(1,3)] [] with ctx := { ctx 0x100 [(1,3)] [] with loop0 := l0, loop1 := l1 } } []
def sAcc : State := on [(1,0x27FFF),(2,4*2^60),(3,8*2^60-4),(4,2^60+5*2^24+0x800000),(5,2^60+5*2^24+0xFFFFFC)] [] []
def sCnt (v : Nat) (y : Slot) : State := onTile (Tile.reset.setSlot 1 (y)) { slot 0x100 [(1,0x40),(2,5),(3,2^64-1),(4,far5 0x40),(5,9)] [(0,far5 0x30077)] with counter := 0x40, share := 3 } (at5 0x40 v)
def waiter (target : Word) (flag : Option (Reg × Word)) (st : SlotState) : Slot := { slot 0x200 [] [] with state := st, ctx := { ctx 0x200 [] [] with wait := .counter (scratchKey 5 0x40) target flag } }
def sFence (o : List Outst) (rc : Nat) (fails : Nat) : State := onTile { Tile.reset with rcMask := BitVec.ofNat 2 rc, fails := BitVec.ofNat 16 fails } { slot 0x100 [] [] with shared := true, ctx := { ctx 0x100 [] [] with out := o } } []
def pendingLoad : List Outst := [{ id := 50, load := true, returns := true, acquire := false, strong := false }]
def sMsg (n : Nat) : State := on [(1,far5 0x1234),(2,0x27F00),(3,n),(4,far5 0x27FF8),(5,8)] [(0,0x30077)] (at5 0x27FF8 0x0807060504030201)
def aDraft (o : Nat) : Draft := { msg := slotMessage 5 0x30077 0x40 8 5 true { origin := .slot 5 0 7, rid := 9, epc := 0, iw := 3 } State.reset, dest := 0, slot := 0, order := o }
def sDraft (l : List (Option Draft)) : State := onTile { Tile.reset with drafts := Vector.ofFn fun i => (l[i.val]?).getD none } (slot 0x100 [(1,far5 0x1234),(2,0x27F00),(3,0x100)] [(0,0x30077)]) []
def sFwd (t : TileName) (ms : Vector (List Word) 4) : State :=
  { State.reset with tiles := [(t, { Tile.reset with mail := ms }.setSlot 0 (slot 0x100 [(1,77)] []))], bulks := [(0, live 1)], cur := .slot t 0, iw := 3, serial := 100, cores := [(1, 1)] }
def sList (l : Level) : State := onTile { Tile.reset with lvl := l } (slot 0x100 [(1,0x27FE0),(2,far5 0x40)] []) (at5 0x40 77)
def sEnd (sh : Bool) (x : Tile) : State := onTile x { slot 0x100 [] [] with shared := sh, counter := 0x40, share := 3 } []
/-- An entry with a whole message. -/
def entry (tag len : Nat) : Entry := { Entry.empty with tag := BitVec.ofNat 16 tag, len := BitVec.ofNat 9 len, full := true, here := true }
/-- A queue of four entries at 0x1000. -/
def queue (es : List (Nat × Entry)) (o w : Nat) : Queue := { Queue.reset with valid := true, base := 0x1000, logn := 2, oldest := BitVec.ofNat 8 o, write := BitVec.ofNat 8 w, entries := es, nextSeq := 9 }
def sQ (q : Queue) (rs : List (Nat × Nat)) : State := onTile (Tile.reset.setQueue 3 q) (slot 0x100 rs []) (at5 0x1078 5)
def held : Packet := { newPacket (tileNode 5) (nodeAt 0 0 0) 0 1 1 false (.req { acc := .load 8 false, addr := 0x8000000000004000, who := { origin := .slot 5 0 7, rid := 50, epc := 0x80, iw := 3 }, also := [], pid := 4, hLevel := false, dest := none, counted := false, lc := false }) with place := .walking { level := 3, entry := 0, restart := false } }
def mineE : Entry := { entry 7 8 with taken := true, held := true, holder := 0 }
def sQw : State := sQ (queue [(1,entry 7 8),(2,mineE)] 1 3) [(1,0x1080),(2,8+0x77*2^16),(3,0x27FF8),(4,0),(5,0x200),(6,0x40)]
def sT : State := on [(1,0x40),(2,0x28000),(3,0x41)] [(1,16)] []
def sH (h : Bool) : State := onCore h [(1,0xABCDEF0123456789),(2,0x40),(3,0x8000000000005000)] Island.reset []
def sAway : State := onCore false [(1,0x40)] (Island.reset.setCore 2 { PCore.reset with home := some (5,0,7), ien := true }) []
def sShare (off : Nat) : State := onTile Tile.reset { slot 0x100 [] [] with counter := BitVec.ofNat 64 (far5 off) } []
/-- A far page, readable and writable, at address 0x4000 of level H or process 0. -/
def farLeaf (h : Bool) : Leaf := { h := h, pid := 0, va := 0x4000, log := 12, pte := BitVec.ofNat 64 (2 ^ 51 + 0x1000 + 0x7 + 0x6) }
def sFar (h : Bool) : State :=
  { onCore h [(3,0x8000000000004048)] (Island.reset.setCore 2 { PCore.reset with dcache := [((2^51+0x1040)/64, (List.replicate 64 7, true))] }) [] with
    stations := [(0, { Station.reset with cache := [farLeaf h] })] }
/-- A vector command of slot 0. -/
def vcmd (i : Instr) (a m : Nat) : VCmd := { id := 40, instr := i, slot := 0, act := 7, epc := 0x80, iw := 3, a := BitVec.ofNat 64 a, m := BitVec.ofNat 64 m, started := true, sent := false, data := none, carry := none, forwarded := false }
def sVec (cs : List VCmd) (rs : List (Nat × Nat)) : State := onTile { Tile.reset with vq := cs, rows := [(2, BitVec.ofNat 512 (0x81 + 255*256 + 2^511)), (3, BitVec.ofNat 512 (0x7F7F7F7F7F00 + 2^511))] } (slot 0x100 rs []) (at5 0x40 0x0807060504030201)
def entry1 (tag len : Nat) : Entry := { Entry.empty with tag := BitVec.ofNat 16 tag, len := BitVec.ofNat 9 len, full := true, here := true }
def queue1 (es : List (Nat × Entry)) (o w : Nat) : Queue := { Queue.reset with valid := true, base := 0x1000, logn := 2, oldest := BitVec.ofNat 8 o, write := BitVec.ofNat 8 w, entries := es, nextSeq := 9 }
def blk : ScrubRec := { ScrubRec.reset with prog := [(0,5)], since := [(0, 100)] }
def desc (f : Nat) (blk : Bool) (acc : Nat) : Desc := { Desc.reset with fmt := BitVec.ofNat 3 f, block := blk, acc := BitVec.ofNat 2 acc }
def sMat (m : Matrix) : State := onTile { Tile.reset with mat := m, rows := [(0, 5), (16, BitVec.ofNat 512 (0x80 + 255*256)), (32, BitVec.ofNat 512 (0x7F))] } (slot 0x100 [(1,2*2^60+0x40),(2,0x10000+0x40)] []) []
def mcmd (i : Instr) (a b : Desc) : MCmd := { id := 40, instr := i, slot := 0, act := 7, epc := 0x80, iw := 3, descA := a, descB := b, metaAddr := 0 }
def mI8 : Matrix := { Matrix.reset with descA := desc 7 false 1, descB := desc 7 false 2 }
def cJ : MCmd := mcmd (.mma 0 false) (desc 7 false 1) (desc 7 false 2)
def sJoin (st : SlotState) (m : Matrix) : State := onTile { Tile.reset with mat := m } { slot 0x100 [] [] with state := st, ctx := { ctx 0x104 [] [] with wait := .gang, ipc := 0x100 } } []
def anOp : MOp := { cmd := cJ, leader := 5, members := [5], descLead := desc 7 false 1, metaRows := [], aRows := [], bRows := [], eccBad := false, eccCorr := false }
def rOp : MOp := { anOp with aRows := [BitVec.ofNat 512 (0x80 + 255*256), 3], bRows := [BitVec.ofNat 512 (0x80 + 2*256),1,BitVec.ofNat 512 (0x7F)] }
def cSc : MCmd := mcmd (.msca 0 true 16 32) Desc.reset Desc.reset
def sSc : State := onTile { Tile.reset with mat := {mI8 with scRunning := some cSc, partials := [(256,0x8003),(273,5)]}, rows := [(0, 0x3F800000), (16, BitVec.ofNat 512 (0x40490FDB + 0x3F800000*2^32)), (32, BitVec.ofNat 512 (0x3F800001 + 0x7F800000*2^32))] } (slot 0x100 [] []) []
def sBlk2 : State := onTile Tile.reset (slot 0x100 [(1,2*2^60+0xFFC00),(2,0x200000040),(3,4)] []) []
def vidle (i : Instr) (a : Nat) : VCmd := { vcmd i a (2 ^ 64 - 1) with started := false }
def aCell (y r dx : Nat) : Cell := { Cell.reset with y := BitVec.ofNat 32 y, res := BitVec.ofNat 24 r, dx := BitVec.ofNat 9 dx }
def sFab (f : Fabric) (m : Memory) : State := onTile { Tile.reset with fab := f } (slot 0x100 [(1,0x40),(2,3),(3,far5 0x80),(4,0x3F400000),(5,0x27FC0),(6,0x105)] []) m
def f0 : Fabric := { Fabric.reset with cells := [(3, aCell 5 6 257),(255, aCell 9 1 3)], counts := [(4,0x80000000)], sat := true, ovcell := 3, stepn := 77 }
def sRun (f : Fabric) (d : Domain) : State := { onTile { Tile.reset with fab := f } (slot 0x100 [] []) [] with domains := [(2^20+5, d)], bulks := [(0, {live 1 with timer := 50})] }
def fRun : Fabric := { f0 with cells := [(3, aCell 0x00FFFFFF 0xFFFFFF 256),(4, {aCell 0x800000 0x900000 256 with dy := (Vector.replicate 4 DyInput.reset).set 1 { src := 256, shift := 2, gain := 5 }}),(255, {aCell 9 1 3 with out := 1})], map := [(33,4),(32,3)], state := 2 }
def sStr (q : List SCmd) (rs es : List (Nat × Nat)) (m : Memory) : State := onTile { Tile.reset with sq := q, recs := [(2, {TRec.reset with gen := 5, valid := true, w0 := 0x40, w1 := BitVec.ofNat 64 (7 + 63*2^8), w2 := 0, w3 := 0 })] } (slot 0x100 rs es) m
def sS1 : State := sStr [] [(1,0x1000),(2,0x2000),(3,0x40)] [(0,0x100)] []
def c0 : SCmd := namedCommand 5 0 (.copy false false 0 false 1 2 3) false 1 2 3 none none 0x100 sS1
def c1 : SCmd := { c0 with started := true, pos := 0x100, engine := 5 }
def tick (rid : Nat) : Ticket := { origin := .slot 5 0 7, rid := rid, epc := 0x80, iw := 0x1234 }
def req (a : Access) (addr : Nat) : Req := { acc := a, addr := BitVec.ofNat 64 addr, who := tick 50, also := [], pid := 0, hLevel := false, dest := none, counted := false, lc := false }
/-- A packet from bulkhead 0's tile 5 that has arrived at a node. -/
def pk (dst : Nat) (b : Body) : Packet := { newPacket (tileNode 5) dst 0 1 1 false b with place := .arrived }
def sPk (k : Packet) (y : Slot) (m : Memory) : State := { onTile { Tile.reset with offTile := [50], outst := 3, fails := 0xFFFF } y m with packets := [(60, k)] }
def sl (w : Wait) (st : SlotState) : Slot := { slot 0x100 [(1,5)] [] with state := st, ctx := { ctx 0x100 [(1,5)] [] with wait := w, pend := [{ reg := 6, id := 50, failed := false }], out := [{ id := 50, load := true, returns := true, acquire := false, strong := false }] } }
def kLoad : Packet := pk (tileNode 5) (.reply (req (.load 2 true) 0) (.data [0xFE, 0xFF]))
def kAck : Packet := pk (tileNode 5) (.reply (req (.store 2 []) 0) .done)
def kWake : Packet := pk (tileNode 5) (.wake (tick 50) 9)
def kMac : Packet := pk (tileNode 5) (.mac (.slot 5 0 7) false)
def quiet : Slot := slot 0x100 [(1,5)] []
def kGate : Packet := pk (tileNode 5) (.reply (req (.store 2 []) 0) (.gate 77))
def kCode : Packet := pk (tileNode 5) (.reply (req (.store 2 []) 0) .codeRefused)
def kRef : Packet := pk (tileNode 5) (.msgRefused (tick 50) 6)
def badLane : Lane := { src := 5, dst := 4096*0+2048*1*8+5, dir := 1, value := 9, who := tick 50 }
def goodLane : Lane := { src := 5, dst := 6, dir := 1, value := 9, who := tick 50 }
def aMsg : Msg := { dest := 5, q := 3, tag := 4, len := 8, payload := [1,2,3,4,5,6,7,8], sender := tileId 5, ext := false, lc := false, wake := false, who := some (tick 50) }
def kMsg (e : Option Nat) : Packet := { pk (tileNode 5) (.msg aMsg) with entry := e }
def ch : Chunk := { id := 70, src := 0x8000000000001000, dst := 0x27FF8, len := 8, member := none, held := none }
def strReq : Req := { req (.sread 8) 0x1000 with who := { tick 50 with origin := .stream 5 40 70 } }
def strCmd : SCmd := { namedCommand 5 0 (.copy false false 0 false 1 2 3) false 1 2 3 none none 8 (sPk kRef quiet []) with id := 40, started := true, pos := 8, chunks := [ch] }
def kStr : Packet := pk (tileNode 5) (.reply strReq (.data [1,2,3,4,5,6,7,8]))
def sStr2 : State := { onTile { Tile.reset with sq := [strCmd] } quiet (at5 0x27FF8 77) with packets := [(60, kStr)] }
def kReq (a : Access) (off : Nat) : Packet := pk (tileNode 5) (.req (req a (far5 off)))
def sLocked : State := { onTile { Tile.reset with code := [(0x1000,0x1FFF)] } quiet [] with packets := [(60, kReq (.store 2 (indexed [1,2])) 0x1FFE)] }
def aBind : Binding := { valid := true, queue := 3, tag := 7, entry := 0x200, counter := 0x40, share := 2 }
def anEntry : Entry := { Entry.empty with tag := 7, len := 8, full := true, here := true, sender := 5 }
def aQueue : Queue := { Queue.reset with valid := true, base := 0x1000, logn := 2, oldest := 1, write := 2, entries := [(1, anEntry)], nextSeq := 9 }
def sFire : State := { State.reset with serial := 100, tiles := [(5, ({ Tile.reset with bindings := Tile.reset.bindings.set 4 aBind }.setQueue 3 aQueue).setSlot 0 quiet)] }
def anAdd : ShareAdd := { counter := 0x40, share := 3, status := 0, after := [], no := 0, epc := 0 }
def sWire : State := { onTile { Tile.reset with arrived := 3, rcMask := 1 } { quiet with state := .waiting, ctx := { quiet.ctx with wait := .wire true false } } [] with wires := [(1, [5])] }
def kGrp (j : Bool) : Packet := pk (nodeAt 0 20 16) (.group 5 9 j (.slot 5 0) 7)
def kGA (j : Bool) : Packet := pk (tileNode 5) (.groupAck 5 9 j (.slot 5 0) 7)
def img : MigImage := { tile := 5, slot := 0, act := 7, regs := regs [(3,4)], eregs := eregs [(1,2)], pc := 0x44, loop0 := 0, loop1 := 0, noEnd := true, pend := [] }
def kMig : Packet := pk (nodeAt 0 20 16) (.migrate img)
def sMigG : State := { sPk kMig quiet [] with islands := [(0, Island.reset.setCore 3 { PCore.reset with h := false })] }
def kBack : Packet := pk (tileNode 5) (.migrateBack img)
def kSys : Packet := pk (nodeAt 0 20 16) (.syscall 5 (List.replicate 64 1) 9 0x40)
def sLev (l : Level) (tm : Nat) (k : Packet) : State := { onTile { Tile.reset with lvl := l } quiet [] with bulks := [(0, { live 1 with timer := BitVec.ofNat 64 tm })], packets := [(60,k)] }
def kLev : Packet := pk (tileNode 5) (.level 6 5 (List.replicate 32 3))
def lvOn (d h : Nat) : Level := { Level.reset with ctl := BitVec.ofNat 64 (0x0000008000003000 % 2^32 + 1 + 5*2^32 + 2^36*8), depth := d, head := h }
def sBal : State := { onTile { Tile.reset with lvl := lvOn 9 30 } quiet (at5 0x3000 5) with bulks := [(0, { live 1 with timer := 4096 })], tiles := [(5, { Tile.reset with lvl := lvOn 9 30 }), (6, { Tile.reset with lvl := lvOn 1 30 })] }
def sBal2 : State := { sBal with tiles := [(5, { Tile.reset with lvl := lvOn 9 30 , groupIds := Vector.replicate 16 (0 : BitVec 8), groupMask := 1 }), (6, { Tile.reset with lvl := lvOn 1 30 , groupIds := Vector.replicate 16 (0 : BitVec 8), groupMask := 1 })] }
def sBehind : State := onTile { Tile.reset with shareAdds := [{ anAdd with after := [40] }], vq := [{ id := 40, instr := .vst 1 2 0, slot := 0, act := 7, epc := 0x80, iw := 3, a := 0x40, m := 0, started := false, sent := false, data := none, carry := none, forwarded := false }] } quiet (at5 0x40 7)
def outs (p vc : Nat) (h : Option Nat) : Sparse OutPort := [(p, { OutPort.reset with budget := Vector.replicate 8 2, hold := OutPort.reset.hold.setIfInBounds vc h })]
/-- A router whose only flit waits at an input. -/
def oneFlit (i vc : Nat) (f : Flit) (o : Sparse OutPort) : Router := { ins := [(8 * i + vc, { flits := [f], behind := [], served := false, age := 7, promoted := false })], outs := o }
def pkTo (src dst vc n : Nat) : Packet := { newPacket src dst vc n 1 false (.syscall 5 [] 0 0) with place := .moving }
def sNet (node : Nat) (r : Router) (k : Packet) (g : Bulk) : State := { State.reset with routers := [(node, r)], packets := [(60, k)], bulks := [(0, g), (1, live 1)], serial := 100 }
def nA : Nat := nodeAt 0 10 10
def kA : Packet := pkTo nA (nodeAt 0 12 10) 3 2
def fA : Flit := { pkt := 60, idx := 0, last := false }
def fB : Flit := { pkt := 60, idx := 1, last := true }
def kB : Packet := { pkTo nA (nodeAt 0 10 10) 3 2 with got := 1 }
def buf (age : Nat) : Router := {Router.reset with ins := [(35,{ flits := [fA], behind := [], served := false, age := age, promoted := false })]}
def gwE : Nat := 2048 + 16
def kG : Packet := pkTo nA (nodeAt 1 10 10) 3 2
def sG (g : Bulk) : State := sNet gwE (oneFlit 1 3 fA (outs 0 3 none)) kG g
def closed : Bulk := { live 1 with gate := 0 }
def bodyMsg : Msg := { dest := 5, q := 3, tag := 9, len := 40, payload := (List.range 40).map (BitVec.ofNat 8), sender := 0, ext := false, lc := false, wake := false, who := none }
def kBody : Packet := { newPacket (nodeAt 0 4 4) (tileNode 5) 2 3 1 false (.msg bodyMsg) with got := 1, entry := some 2 }
def fMid : Flit := { pkt := 60, idx := 1, last := false }
def sBody : State := { sNet (tileNode 5) (oneFlit 4 2 fMid (outs 4 2 (some 60))) kBody (live 1) with tiles := [(5, Tile.reset.setQueue 3 { Queue.reset with valid := true, base := 0x1000, logn := 2 })] }
def reqT (a : Access) (addr : Nat) (o : Origin) : Req := { acc := a, addr := BitVec.ofNat 64 addr, who := { origin := o, rid := 50, epc := 0x80, iw := 3 }, also := [], pid := 4, hLevel := false, dest := none, counted := false, lc := false }
def kT (r : Req) (pl : Place) : Packet := { newPacket (tileNode 5) (nodeAt 0 0 0) 0 1 1 false (.req r) with place := pl }
def sSt (x : Station) (k : Packet) (m : Memory) : State := { onTile Tile.reset (slot 0x100 [] []) m with stations := [(0, x)], packets := [(60, k)], ksel := [(8, 3)], keys := [(0, { token := 70, region := 0 }), (3, { token := 71, region := 1 })] }
def rSt : Req := reqT (.store 8 []) (2^63 + 0x4008) (.slot 5 0 7)
def stRange : Station := { Station.reset with range := [(0, BitVec.ofNat 64 (1 + 8 + 4 * 2^16)), (1, 0x4000), (2, 0x5000), (3, 0x10000)], nextXid := 9 }
def rHi : Req := reqT (.store 8 []) (2^63 + 2^57 + 0x4008) (.slot 5 0 7)
def wk (l : Nat) (re : Bool) : Walk := { level := l, entry := 0x8020, restart := re }
def sWalk : State := { sSt Station.reset (kT rSt (.walking (wk 4 false))) (Memory.writeN [] (2^64+0x8020) (bytesOfNat 8 (1 + 7 * 2^20))) with seals := [(0x200, { token := 70, ok := true, minor := 1 })] }
def rLine : Req := reqT (.store 64 (indexed (List.replicate 64 9))) (2^63 + 0x4000) (.slot 5 0 7)
def kTr : Packet := { newPacket (nodeAt 1 0 0) (nodeAt 0 0 0) 0 3 1 false (.treq rLine 0x10000 0 3) with place := .arrived }
def sSeal : State := { State.reset with seals := [(64*5+1, { token := 1, ok := true, minor := 127 }), (64*6, { token := 1, ok := false, minor := 3 })], majors := [(5, 9)] }
def aLeaf (pid va : Nat) : Leaf := { h := false, pid := BitVec.ofNat 16 pid, va := va, log := 12, pte := 0 }
def sInv : State := { sSt { Station.reset with cache := [aLeaf 4 0x4000, aLeaf 5 0x6000], invVa := 0x4000, invBusy := true, invWaits := [99] } (kT rSt (.walking (wk 3 false))) [] with packets := [(60, kT rSt (.walking (wk 3 false))), (61, kTr)] }
def sInv2 : State := { sInv with stations := [(0, { Station.reset with invBusy := true, invWaits := [99,61] })] }
def kStall : Packet := kT rSt (.stalled 9 1)
def aRec : TrapRec := { slotRecord 5 1 0x0C 0x100 0x55 true with away := true }
def kRec : Packet := { newPacket (tileNode 5) (State.reset.islandNode 0 (tileNode 5)) 5 2 1 false (.trapRec aRec) with place := .arrived }
def sRing (h t : Nat) : State := { State.reset with serial := 100, islands := [(0, { Island.reset with tqbase := 0x8000, tqhead := BitVec.ofNat 10 h, tqtail := BitVec.ofNat 10 t })], packets := [(60, kRec)] }
def sRing2 : State := dean 0xF { sRing 0 1 with seals := [(0x8000/64, { token := 70, ok := true, minor := 1 })] }
def sFreeze (i : Nat) : State := { onTile Tile.reset quiet [] with islands := [(0, { Island.reset with invctl := BitVec.ofNat 7 (1 + 2*10), idle := BitVec.ofNat 32 i })] }
def sScrub (b : Bool) : State := { onTile Tile.reset quiet [] with ecc := [(scratchKey 5 0x40 / 8, b)] }
def sDbg (st : SlotState) (c : Nat) : State := onTile { Tile.reset with dbgCtl := BitVec.ofNat 40 c } { quiet with state := st } []
def sPre (x : Tile) : State := onTile x quiet []
def sBadPre (x : Tile) : State := sPre x
def tPre (sv : Bool) : Tile := { Tile.reset with pre := 2, preSave := sv, image := BitVec.ofNat 52 (2^51 + 0x123) }
def cq (es : List (Nat × Entry)) : State := onTile (Tile.reset.setQueue 3 { Queue.reset with valid := true, base := 0x1000, logn := 2, oldest := 1, write := 3, entries := es }) quiet []
def ce (q : Nat) (tk : Bool) : Entry := { Entry.empty with full := true, here := true, seq := BitVec.ofNat 16 q, taken := tk }
def sFW (st : Nat) : State := onTile { Tile.reset with fab := { Fabric.reset with state := BitVec.ofNat 2 st, cells := [(254, { Cell.reset with y := 0x05000000 })] } } quiet []
def sReg (p : Nat) : State := onTile { Tile.reset with pre := BitVec.ofNat 2 p, rows := [(3, BitVec.allOnes 512)] } quiet []
def sTab : State := onTile { Tile.reset with pre := 1 } Slot.reset []
def sPre2 (x : Tile) (m : Memory) : State := dean (0xF + 2 ^ 51) (onTile x (slot 0x100 [(1,5)] []) m)
/-- Host queue 3, with a start descriptor at its head. -/
def desc8 (tile : Nat) (len pay : Nat) : List Byte := bytesOfNat 8 tile ++ bytesOfNat 2 0x77 ++ bytesOfNat 1 3 ++ bytesOfNat 1 1 ++ bytesOfNat 2 len ++ bytesOfNat 2 0 ++ bytesOfNat 8 pay ++ bytesOfNat 4 99
def sHost (owner tile len pay : Nat) : State :=
  { onTile Tile.reset quiet (Memory.writeN [] (2^67 + 0x1000 + 64*15) (desc8 tile len pay)) with
    office := { Office.reset with open8 := true },
    hostQueues := [(3, { HostQueue.reset with sqbase := 0x1000, sqsize := 4, sqhead := 15, sqtail := 2, cqbase := 0x2000, cqtail := 15, cqhead := 3, owner := owner })] }
def sMany : State := { onTile { Tile.reset with pid := 9, trapctl := 3 } quiet [] with
  bulks := [(0, { live 1 with timer := 77 }), (1, { live 1 with timer := 78 }), (2, live 2)],
  islands := [(0, { onCore false [] Island.reset [] |>.island 0 with stalled := true })],
  stations := [(0, { Station.reset with nextXid := 9, invBusy := true })],
  packets := [(60, newPacket (tileNode 5) (nodeAt 1 3 3) 0 1 1 false (.syscall 5 [] 0 0))],
  domains := [(2^20+5, { Domain.reset with div := 3 })] }
def sPow : State := { sMany with office := { Office.reset with flow := 450, power := 7, modcapNext := 29000000, gen := 7 }, mem := bytesAt (2^64+2^51+5) [7] ++ bytesAt (2^67) [8], power := [(3, { Power.reset with power := 400000, run := 9, clkn := 34 }), (4, { Power.reset with hot := 1500, clkn := 40 })] }
def sRec : State := { sMany with office := { Office.reset with recovery := true } }
def sCap (n : Nat) : State := { sPow with office := { Office.reset with modcapNext := n } }
/-- A mailbox with a command: bytes at its start. -/
def box (m : BitVec 2) (code : Nat) (args : List Nat) : Memory :=
  (Memory.writeN (Memory.writeN (Memory.writeN [] (mailKey m 0) (bytesOfNat 2 code)) (mailKey m 4) (bytesOfNat 4 0x1234)) (mailKey m 8) (args.map (BitVec.ofNat 8))).writeN (mailKey m 0xFF8) (bytesOfNat 8 1)
def sBox (m : BitVec 2) (code : Nat) (args : List Nat) (f : Office → Office) : State :=
  { State.reset with mem := box m code args, office := f { Office.reset with open8 := true, bells := [m, 3], device := [1,2,3], owner := some 1, log := [(0x0000000000000102, 5)], flow := 9 }, serial := 100,
                     regions := [(7, { Region.reset with bulks := [3,4] })], scrubs := [(8, { ScrubRec.reset with blocks := 3, total := 9, phase := 3, restarts := 2 })] }
def r7 : Region := { Region.reset with bulks := [3,4] }
def unowned (o : Office) : Office := { o with owner := none, successor := some 3 }
def box2 (m : BitVec 2) (code : Nat) (args : List Nat) : Memory :=
  (Memory.writeN (Memory.writeN (Memory.writeN [] (mailKey m 0) (bytesOfNat 2 code)) (mailKey m 4) (bytesOfNat 4 0x1234)) (mailKey m 8) (args.map (BitVec.ofNat 8))).writeN (mailKey m 0xFF8) (bytesOfNat 8 1)
def sBox2 (m : BitVec 2) (code : Nat) (args : List Nat) : State :=
  { State.reset with mem := box2 m code args, office := { Office.reset with open8 := true, bells := [m, 3], device := [1,2,3], owner := some 1 }, serial := 100,
                     cores := [(5,4)],
                     tiles := [(5, { Tile.reset with pid := 9, rows := [(3,4)] })],
                     bulks := [(0, { live 1 with timer := 44, windows := [(4, BitVec.ofNat 64 (2^31)), (32, BitVec.ofNat 64 (2^31))] })],
                     stations := [(0, { Station.reset with cache := [{ h := false, pid := 0, va := 0, log := 12, pte := 0 }] })],
                     keys := [(0, {token := 7, region := 0}), (1, {token := 9, region := 1})], ksel := [(8,1)],
                     regions := [(1, { Region.reset with bulks := [0] })], mapgen := 4 }
def sKeys : State := { sBox2 1 0x15 [1,1,3] with ksel := [(8,1),(11,5)], keys := [(0, {token := 7, region := 0}), (1, {token := 9, region := 1}), (5, {token := 19, region := 1})] }
def few : Sparse Nat := (List.range 120).map fun b => (b, if b = 0 then 6 else 0)
def preTiles : Sparse Tile := (List.range 6).map fun c => (c, { Tile.reset with pre := 3 })
def sJob (j : Job) : State := { sBox2 1 0x12 [1,1] with cores := few, tiles := preTiles, jobs := (Vector.replicate 4 Job.idle).set 1 j, bulks := [(0, { live 1 with gate := 2 })] }
def relR : Region := { Region.reset with bulks := [0], released := true, imageGen := 4, images := [0,1,2,3,4,5] }
def sRel : State := { sBox2 1 0x13 [1] with cores := few, tiles := [], bulks := [], regions := [(1, relR)] }
def sRes : State := { sJob (.restore 1 1) with regions := [(1, relR)] }
def sWin : State := { sBox2 1 0x14 [0,1,0] with mem := (box2 1 0x14 [0,1,0]).writeN (mailKey 1 0x108) (bytesOfNat 8 (2*2^60+2^36+0x40) ++ bytesOfNat 8 (2*2^60+2^36+0x80)) }
def sScr (p : Nat) (x : ScrubRec) : State := { sBox2 1 0x11 [1] with scrubs := [(1, { x with phase := BitVec.ofNat 4 p, bulks := [0] })] }
def sHeld : State := { sScr 1 ScrubRec.reset with packets := [(60, held)] }
def sTd : State := { sScr 2 ScrubRec.reset with jobs := (Vector.replicate 4 Job.idle).set 1 (.teardown 1) }
def fin : ScrubRec := { ScrubRec.reset with prog := [(0,121)], doneAt := [(0,0)] }
def sFin : State := { sScr 3 fin with bulks := [(0, { live 1 with timer := 5000 })] }
def brk : ScrubRec := { ScrubRec.reset with prog := [(0,121)], broken := some 0, restarts := 15 }
def sBrk : State := { sScr 3 brk with bulks := [(0, { live 1 with timer := 2048 })] }
def sHall (n : Nat) : State := { sScr 3 ScrubRec.reset with bulks := [(0, { live 1 with timer := BitVec.ofNat 64 n })], mem := bytesAt (hallKey 0 0x1FFFFFF) [7, 8] }
def sBlk3 : State := { sScr 3 blk with bulks := [(0, { live 1 with timer := 2660 })] }
def upPort : Port := { Port.reset with st := 1, peer := toBytes 16 33, tx := #v[some 5, none], rx := #v[some 6, none], counter := 9, txSeq := 0xFFFF, rxSeq := 0x10, nakSeq := 3, nakRun := 2 }
def sPort (x : Port) : State := { State.reset with ports := [(9, x)], bulks := [(1, live 1)], serial := 100 }
def og (c n : Nat) (bs : List Byte) (k : Option Packet) : Outgoing := { chan := BitVec.ofNat 8 c, len := n, payload := bs, origin := k }
def rp (q : Nat) (s : Bool) : Replay := { seq := BitVec.ofNat 16 q, marker := q = 4, load := og 2 3 [1,2,3] none, sent := s }
def mk : Port := { upPort with tx := #v[some 5, some 8], counter := 0xFFF00000 }
def fr (t q : Nat) (c : Nat) (good : Bool) : Frame := { type := BitVec.ofNat 4 t, ksel := false, chan := BitVec.ofNat 8 c, seq := BitVec.ofNat 16 q, inv := 1, len := 2, payload := [0,2], gen := 6, tag := good }
def ackP (run : Bool) : Port := { upPort with inbox := [fr 2 3 7 true], replay := [rp 2 true, rp 3 true, rp 4 true], run := run, lastTest := some 3 }
def nakP (n : Nat) : Port := { upPort with inbox := [fr 3 3 7 true], replay := [rp 2 true, rp 3 true, rp 4 true], nakRun := n }
def mgMsg (t : Nat) : List Byte := toBytes 8 t ++ toBytes 32 77 ++ toBytes 64 55 ++ toBytes 16 33 ++ toBytes 136 0
def mg (src : Bool) (st : Nat) : Mig := { region := 2, id := toBytes 32 77, device := toBytes 16 33, source := src, stage := st, hash := toBytes 64 55, manifest := toBytes 96 1, whole := true, got := [], slots := [], port := 9 }
def sMg (t : Nat) (ms : List Mig) (x : Port) : State := { sPort { x with out := [(7, 256, mgMsg t), (9, 1, [])] } with migs := ms, bulks := [(1, live 1), (2, live 2)], regions := [(1, Region.reset), (2, { Region.reset with bulks := [3] })] }
def rst : List (Byte × Nat × List Byte) := [(9, 1, [])]
def sMgFull : State := { sMg 1 [] upPort with regions := (List.range 33).map fun i => (i, Region.reset) }
def sMgKey : State := { sMg 3 [mg false 1] upPort with ksel := [(16, 5)], keys := [(5, { token := 9, region := 2 })] }
def zi (w : Bool) : Mig := { mg false 0 with whole := w, hash := [], manifest := if w then toBytes 96 0 else [1] }
def sItem (w : Bool) : State := { sPort { upPort with out := [(3, 2, [5,6,7])] } with migs := [zi w] }
def manifest1 : List Byte := toBytes 8 1 ++ toBytes 8 (5*2^24) ++ toBytes 8 4096 ++ toBytes 72 0
def zi2 : Mig := { mg false 0 with manifest := manifest1 }
def sItem2 : State := { sPort { upPort with out := [(3, 2, [5,6,7])] } with migs := [zi2] }
def box3 (m : BitVec 2) (code : Nat) (args : List Nat) (id : Nat) : Memory :=
  ((Memory.writeN (Memory.writeN (Memory.writeN [] (mailKey m 0) (bytesOfNat 2 code)) (mailKey m 4) (bytesOfNat 4 0x1234)) (mailKey m 8) (args.map (BitVec.ofNat 8))).writeN (mailKey m 0x20) (toBytes 32 id)).writeN (mailKey m 0xFF8) (bytesOfNat 8 1)
def sBox3 (m : BitVec 2) (args : List Nat) (ms : List Mig) (rel : Bool) : State :=
  { sPort upPort with mem := box3 m 0x17 args 77, office := { Office.reset with open8 := true, bells := [m], owner := some 1 }, migs := ms, regions := [(2, { Region.reset with bulks := [3], released := rel })] }
def noPeer : Port := { upPort with peer := [] }
def sBox4 : State := { sBox3 1 [2,0] [] true with ports := [(9, noPeer)] }
def testP (n : Nat) : Port := { upPort with run := true, runCount := 2, sentTest := n, runPattern := 0xFF, runEach := true }
def f1 (w : Bool) : Frame := { fr 0 0x10 0xF1 true with len := 256, payload := (List.range 256).map fun j => BitVec.ofNat 8 (9 + j + if w && j = 200 then 1 else 0) }
def kOut : Packet := { vc := 3, stamp := 1, src := nodeAt 1 20 16, dst := nodeAt 1 20 16, marked := false, windowed := none, flits := 2, got := 2, order := 0, entry := none, body := .linkOut 9 3 [1,2,3], place := .arrived, retried := false, ranges := none, span := none }
def sRecov15 (l : List Turn) : State := { State.reset with agenda := l, office := { Office.reset with recovery := true }, tiles := [(5, Tile.reset)] }
def sServe : State := { sRecov15 [.serve 1, .issue 0] with mem := Memory.writeN (Memory.writeN [] (mailKey 1 0xFF8) (bytesOfNat 8 1)) (mailKey 1 0x38) (List.replicate 24 255) }
def sLock : State := onTile { Tile.reset with code := [(0x1000,0x1FFF)] } (slot 0x100 [(3,0x1FFC),(6,0x1004)] []) []
def sLate : State := (onTile Tile.reset { slot 0x100 [(1,0x40),(5,9)] [(0,5)] with ctx := { ctx 0x100 [(1,0x40),(5,9)] [(0,5)] with issuedAt := some 0 } } (at5 0x40 7)) |> fun s => { s with bulks := [(0, { live 1 with timer := 6 })] }
/-- The state of a release point: the wait for checks, or their failure. -/
def sRel15 (outst fails : Nat) (rs es : List (Nat × Nat)) : State := onTile { Tile.reset with outst := BitVec.ofNat 16 outst, fails := BitVec.ofNat 16 fails, recs := [(2, {TRec.reset with gen := 5, valid := true, w0 := 0x40, w1 := BitVec.ofNat 64 (7 + 63*2^8), w2 := 0, w3 := 0 })] } { slot 0x100 rs es with counter := 0x40, share := 3 } (at5 0x40 7)
def sFabS (st : Nat) (c : Nat) : State := onTile { Tile.reset with fab := { Fabric.reset with state := BitVec.ofNat 2 st } } (slot 0x100 [(1,c)] []) []
def sLvl (l : Level) (c : Nat) : State := onTile { Tile.reset with lvl := l } (slot 0x100 [(1,c)] []) []
def vcmd17 (i : Instr) (a m : Nat) : VCmd := { id := 40, instr := i, slot := 0, act := 7, epc := 0x80, iw := 3, a := BitVec.ofNat 64 a, m := BitVec.ofNat 64 m, started := true, sent := false, data := none, carry := none, forwarded := false }
def rA32 : Row := BitVec.ofNat 512 0x4F0000004300000042FE0000C2B0000040490FDB00800000807FFFFF000000017F7FFFFF7FC00000FF8000007F800000BF8000003F8000008000000000000000
def rB32 : Row := BitVec.ofNat 512 0x3F80000080000000000000004F0000004300000042FE0000C2B0000040490FDB00800000807FFFFF000000017F7FFFFF7FC00000FF8000007F800000BF800000
def rA16 : Row := BitVec.ofNat 512 0x44004200400098762345FFFF7FFF7C01B8003800008043005000C5007F7F7FC0FF807F80BF803F804248040083FF00017BFF7E00FC007C00BC003C0080000000
def rB16 : Row := BitVec.ofNat 512 0x7C00BC003C008000000044004200400098762345FFFF7FFF7C01B8003800008043005000C5007F7F7FC0FF807F80BF803F804248040083FF00017BFF7E00FC00
def rN0 : Row := BitVec.ofNat 512 0xF7C1BD874DA5E709D4713D60C8A70639EB1167B367A9C3787C65C1E582E2E662F728B4FA42485E3A0A5D2F346BAA9455E3E70682C2094CAC629F6FBED82C07CD
def sV (i : Instr) (a : Nat) (x y z : Row) : State := onTile { Tile.reset with vq := [vcmd17 i a 0], rows := [(1,x),(2,y),(3,z)] } { slot 0x100 [] [] with ctx := { ctx 0x100 [] [] with pend := [{ reg := 4, id := 40, failed := false }] } } []
def rr (i : Instr) (a : Nat) : RowRule := match rowRule i (BitVec.ofNat 64 a) with | some r => r | none => binaryRule 7 0 0 0 fun _ _ => 0
def sr (i : Instr) : Reg × List VReg × (List Row → Word) := match scalarRule i with | some r => r | none => (0, [], fun _ => 0)
def sRing3 : State := dean 0xF { State.reset with serial := 100, islands := [(0, { Island.reset with tqbase := 0x8000, tqhead := 0, tqtail := 1 })], packets := [(60, kRec)] }
def pkA (dst : Nat) (b : Body) : Packet := { newPacket (tileNode 5) dst 0 1 1 false b with place := .arrived }
def kAck16 : Packet := pkA (tileNode 5) (.reply (req (.store 2 []) 0) .done)
def sIss (now t : Nat) : State := { onTile Tile.reset { slot 0x100 [] [] with state := .waiting, ctx := { ctx 0x100 [(4,9)] [] with issuedAt := some 10, wait := .issued (.cwaitt 4 1 2) 3 (regs [(1,0x40),(2,9)]) (eregs [(0,t)]) } } [] with bulks := [(0, { live 1 with timer := BitVec.ofNat 64 now })], packets := [(60, kAck16)] }
def oneFlit16 (i vc : Nat) (f : Flit) (o : Sparse OutPort) : Router := { ins := [(8 * i + vc, { flits := [f], behind := [], served := false, age := 7, promoted := false })], outs := o }
def kD (dst : Nat) (b : Body) (g : Nat) : Packet := { newPacket (nodeAt 0 10 10) dst 3 2 1 false b with place := .moving, got := g }
def sNetG (node : Nat) (r : Router) (k : Packet) (g : Bulk) : State := { State.reset with routers := [(node, r)], packets := [(60, k)], bulks := [(0, g), (1, live 1)], serial := 100 }
def fMidG : Flit := { pkt := 60, idx := 1, last := false }
def fEndG : Flit := { pkt := 60, idx := 1, last := true }
def kDrop : Packet := kD (nodeAt 1 10 10) .dropped 1
def nP : Nat := nodeAt 0 10 10
def kLO : Packet := kD nP (.linkOut 9 3 [1,2,3]) 1
def kLI : Packet := kD nP (.linkIn 9 3 [1,2,3]) 1
def farLeaf16 (h : Bool) : Leaf := { h := h, pid := 0, va := 0x4000, log := 12, pte := BitVec.ofNat 64 (2 ^ 51 + 0x1000 + 0x7 + 0x6) }
def farLine : Nat := (2^51+0x1040)/64
def sFarW (h : Bool) (kept : Bool) : State :=
  onCore h [(3,0x8000000000004048)] { (Island.reset.setCore 2 { PCore.reset with tlb := [farLeaf16 h], dcache := [(farLine, (List.replicate 64 7, true))] }) with cache := if kept then [(farLine, List.replicate 64 9)] else [] } []
def farXlat16 (h : Bool) : Xlat := { pa := 2^51+0x1048, ord := 0, key := 0, leaf := farLeaf16 h, span := (0x4000, 4096) }
def big (n : Nat) : Row := BitVec.ofNat 512 ((0xA5C3F0E1D2B49687_1122334455667788_99AABBCCDDEEFF00_3C003E00C0004000_3F80BF8040490000_7F7F7E7D01020304_38C8B0A0F0E0D0C0_1248124836C9FEDC) * (2 * n + 1) + n)
def mop (i : Instr) (fa fb : Nat) : MOp := { cmd := mcmd i (desc fa false 1) (desc fb false 2), leader := 5, members := [5], descLead := desc fa false 1, aRows := (List.range 16).map big, bRows := (List.range 16).map fun n => big (n + 40), metaRows := (List.range 16).map (fun n => BitVec.ofNat 64 (0x4E8D9C4E8D9C4E8D + 0x4444 * n % 2^60)), eccBad := false, eccCorr := false }
def sMM (o : MOp) : State := onTile { Tile.reset with mat := { Matrix.reset with running := some o, status := 0xFFFF0002, partials := [(3, 9)] }, rows := [(0, big 77), (5, big 13), (16, big 3)] } (slot 0x100 [] []) []
def ff (n : Nat) : Fmt := (fmtOf n).getD fp32
def sRun16 (f : Fabric) (d : Domain) (time : Nat) : State := { onTile { Tile.reset with fab := f } (slot 0x100 [] []) [] with domains := [(2^20+5, d)], bulks := [(0, {live 1 with timer := 50})], time := time }
def dom (div half : Nat) (started stop : Bool) (taken : Nat) : Domain := { Domain.reset with run := some ([5], 0, BitVec.ofNat 64 taken), started := started, stop := stop, div := BitVec.ofNat 4 div, half := half, edge := 40 }
def sNoWire : State := onTile { Tile.reset with arrived := 3, rcMask := 1 } { quiet with state := .waiting, ctx := { quiet.ctx with wait := .wire true false } } []
def vcmd16 (i : Instr) (a m : Nat) : VCmd := { id := 40, instr := i, slot := 0, act := 7, epc := 0x80, iw := 3, a := BitVec.ofNat 64 a, m := BitVec.ofNat 64 m, started := true, sent := false, data := none, carry := none, forwarded := false }
def sVE (i : Instr) (bad : List Nat) : State := { onTile { Tile.reset with vq := [vcmd16 i 9 0], rows := [(1,0x11),(2,0x22),(3,0x33)] } { slot 0x100 [] [] with ctx := { ctx 0x100 [] [] with pend := [{ reg := 4, id := 40, failed := false }] } } [] with ecc := bad.map fun v => ((scratchKey 5 (0x820000 + 64 * v))/8 + 3, true) }
def far6 (off : Nat) : Nat := 2 ^ 60 + 6 * 2 ^ 24 + off
def sFar6 (rs : List (Nat × Nat)) : State := on rs [] []
def sCnt6 : State := onTile Tile.reset { slot 0x100 [(1,far6 0x27FF0),(2,5)] [] with counter := BitVec.ofNat 64 (far6 0x27FF0), share := 3 } []
def rowsOf (l : List (Nat × Nat)) : Sparse Row := l.map fun x => (x.1, BitVec.ofNat 512 x.2)
def one32 : Nat := ((List.range 16).map fun i => 0x3F800000 * 2 ^ (32 * i)).sum
def sScan (c : VCmd) (m : Vector (List Word) 4) (m1 : Vector (List Word) 4) : State :=
  { onTile { Tile.reset with vq := [c], rows := rowsOf [(2, one32), (3, 2 * one32 / 2), (4, one32 + 0x800000)], mail := m } (slot 0x100 [] []) (at5 0x40 1) with
    tiles := [(5, ({ Tile.reset with vq := [c], rows := rowsOf [(2, one32), (3, one32), (4, one32 + 0x800000)], mail := m }).setSlot 0 (slot 0x100 [] [])), (6, { Tile.reset with mail := m1 })] }
def noMail : Vector (List Word) 4 := Vector.replicate 4 []
def xs (op role : Nat) : VCmd := { id := 40, instr := .xscan 2 2 3 1 (BitVec.ofNat 2 op) (BitVec.ofNat 2 role), slot := 0, act := 7, epc := 0x80, iw := 3, a := 0, m := 0, started := true, sent := false, data := none, carry := none, forwarded := false }
def bigCell : Cell := { aCell 0xFFFFFF 5 256 with dy := (Vector.replicate 4 DyInput.reset).set 1 { src := 256, shift := 3, gain := 5 } }
def negCell : Cell := { aCell 0xFF000001 5 256 with dy := (Vector.replicate 4 DyInput.reset).set 0 { src := 256, shift := 3, gain := 0xFFFB } }
def fabRun (inj : List (Word × List Byte)) (cells : Sparse Cell) : Fabric :=
  { Fabric.reset with cells := cells, map := [(33,4),(32,3)], state := 2, inj := inj, stepn := 9, ovcell := 77, armed := some { slot := 1, act := 7, epc := 0x80 } }
def sFR (f : Fabric) (d : Domain) (y : Slot) : State := { onTile ({ Tile.reset with fab := f }.setSlot 1 y) (slot 0x100 [] []) [] with domains := [(2^20+5, d)], bulks := [(0, {live 1 with timer := 50})], time := 20 }
def fdom (pol : Bool) (budget : Nat) (halt : Option Word) : Domain := { Domain.reset with run := some ([5], budget, 10), started := true, half := 40, edge := 40, policy := pol, halt := halt }
def csO : Sparse Cell := [(3, bigCell), (200, negCell)]
def sKill (w : Wait) (ws : List Watch) : State := { onTile ({ Tile.reset with arrived := 3, rcMask := 3 }.setSlot 2 { quiet with state := .waiting, ctx := { quiet.ctx with wait := .wire false true } }) { quiet with state := .waiting, counter := 0x40, share := 3, ctx := { quiet.ctx with wait := w, ipc := 0x80 } } [] with watches := ws }
def aWatch (i : Nat) (rid : Nat) (act : Bool) : Watch := { id := i, home := 6, key := scratchKey 6 0x40, addr := 0x40, target := 9, kind := .wake { origin := .slot 5 0 7, rid := rid, epc := 0x80, iw := 3 }, active := act, windowed := none }
def sTrip (hot b flow : Nat) (x : Tile) : State := { onTile { x with pid := 9, trapctl := 3 } quiet [] with
  tiles := [(5, ({ x with pid := 9, trapctl := 3 }).setSlot 0 quiet), (TileName.mk 1 13 0, ({ x with pid := 8, trapctl := 3 }).setSlot 0 quiet)],
  bulks := [(0, { live 1 with timer := 77 }), (1, { live 1 with timer := 78 }), (2, live 2), (3, { live 1 with st := .scrubbing })],
  islands := [(0, { onCore false [] Island.reset [] |>.island 0 with stalled := true })],
  packets := [(60, newPacket (tileNode 5) (nodeAt 1 3 3) 0 1 1 false (.syscall 5 [] 0 0))],
  office := { Office.reset with flow := flow, power := 7 },
  power := [(b, { Power.reset with hot := BitVec.ofNat 16 hot, power := 1000, clkn := 40 })] }
def sBack (hot flow : Nat) : State := { sTrip 100 0 450 Tile.reset with office := { Office.reset with flow := flow, power := 7 }, bulks := [(0, { live 1 with failed := true, gate := 0 })], power := [(0, { Power.reset with hot := BitVec.ofNat 16 hot, power := 1000, clkn := 40, inreset := true, tripped := true })] }
def upPort2 : Port := { Port.reset with st := 1, peer := toBytes 16 33, tx := #v[some 5, none], rx := #v[some 6, none], counter := 9, out := [(3, 2, [5,6,7])] }
def item1 : List Byte := toBytes 8 1 ++ toBytes 8 (5*2^24) ++ toBytes 8 4 ++ toBytes 72 0
def zi3 : Mig := { region := 2, id := toBytes 32 77, device := toBytes 16 33, source := false, stage := 0, hash := toBytes 64 55, manifest := item1, whole := true, got := [1, 2], slots := [3], port := 9 }
def sItem3 : State := { State.reset with serial := 100, ports := [(9, upPort2)], migs := [zi3], regions := [(2, { Region.reset with bulks := [0] })], keys := [(3, { token := 7, region := 2 })] }
def st1 : State := sTurn (.event (.activationFiring 0))
def st2 : State := sTurn (.issue 0)
def st3 : State := sTurn (.core 0 2)
def st4 : State := sRecov []
def st5 : State := sRecov [.issue 0]
def st6 : State := sLoop 0 0
def st7 : State := sLoop 0 0
def st8 : State := sLoop 0 0
def st9 : State := sLoop (level 0xF0 40 3) 0
def st10 : State := sLoop 0 0
def st11 : State := sLoop (level 0xF0 40 3) (level 0xF0 20 3)
def st12 : State := sLoop 0 0
def st13 : State := on [(1,0x28000)] [] (at5 0x27FF8 (0x80FF * 2^48))
def st14 : State := on [(1,0x28000)] [] (at5 0 0x8877665544332211)
def st15 : State := on [(1,0x28000),(2,0x1122334455667788)] [] (at5 0x27FF0 1)
def st16 : State := on [(1,0x28000),(2,0)] [] (at5 0x27FF8 (2^64-1))
def st17 : State := sCnt 7 Slot.reset
def st18 : State := sCnt 7 Slot.reset
def st19 : State := sCnt 7 Slot.reset
def st20 : State := sCnt 7 Slot.reset
def st21 : State := sCnt 7 Slot.reset |>.onSlot 5 0 (fun y => {y with ctx := ctx 0x100 [(1,0x40),(5,9)] []})
def st22 : State := sCnt 7 (waiter 12 (some (3, 77)) .waiting)
def st23 : State := sCnt 7 Slot.reset
def st24 : State := sCnt 7 Slot.reset
def st25 : State := on [(1,0x44),(2,0x7FC00000)] [] (at5 0x40 0x3F80000011111111)
def st26 : State := on [(1,far5 0x40),(2,2^64-1)] [] (at5 0x40 5)
def st27 : State := sFence [] 0 0
def st28 : State := sFence [] 3 0
def st29 : State := sFence pendingLoad 0 0
def st30 : State := sFence [] 0 3
def st31 : State := sMsg 0x100
def st32 : State := sDraft [some (aDraft 0), none, some (aDraft 1)]
def st33 : State := sDraft (List.replicate 16 (some (aDraft 0)))
def st34 : State := sDraft []
def st35 : State := sFwd 5 (Vector.replicate 4 [])
def st36 : State := sFwd 5 (Vector.replicate 4 [8,9])
def st37 : State := sFwd 7 (Vector.replicate 4 [8,9])
def st38 : State := sList { Level.reset with ctl := BitVec.ofNat 64 (5 * 2^32 + 0x0000008000003000), depth := 2, head := 1 }
def st39 : State := sList Level.reset
def st40 : State := sFwd 5 (Vector.replicate 4 [8,9])
def st41 : State := sEnd false Tile.reset
def st42 : State := sEnd true { Tile.reset with dbgActive := true, drafts := Vector.replicate 16 (some { msg := slotMessage 5 0 0 0 5 false { origin := .slot 5 0 7, rid := 9, epc := 0, iw := 3 } State.reset, dest := 0, slot := 0, order := 0 }) }
def st43 : State := sEnd true {Tile.reset with groupIds := (Vector.replicate 16 (3 : BitVec 8)), groupMask := 1}
def st44 : State := onTile {Tile.reset with groupIds := Vector.ofFn fun i : Fin 16 => BitVec.ofNat 8 i.val, groupMask := 0xFFFF} (slot 0x100 [(1,16)] []) []
def st45 : State := sQ (queue [(1,entry 7 8)] 1 2) []
def que1 : Queue := queue [(1,entry 7 8)] 1 2
def st46 : State := sQ Queue.reset []
def st47 : State := sQ (queue [] 0 0) []
def st48 : State := onTile ({Tile.reset with trapctl := 1}.setSlot 2 {slot 3 [] [] with state := .waiting, ctx := {ctx 3 [] [] with wait := .retry}}) (slot 0x100 [] []) []
def st49 : State := on [(1,0x27FC0)] [(1,0x48)] []
def st50 : State := on [(1,0x27FC0)] [(1,0x7000000000000000)] []
def st51 : State := onTile { Tile.reset with drafts := Vector.replicate 16 (some { msg := slotMessage 5 0 0 0 5 false { origin := .slot 5 0 7, rid := 9, epc := 0, iw := 3 } State.reset, dest := 0, slot := 0, order := 0 }) } (slot 0x100 [] []) []
def st52 : State := on [(1,3)] [] []
def st53 : State := on [(1,3)] [] []
def st54 : State := on [(1,3)] [] []
def st55 : State := sH true
def st56 : State := sH true
def st57 : State := sH false
def st58 : State := sH false
def st59 : State := sH false
def st60 : State := sH false
def st61 : State := sH false
def st62 : State := sH true
def st63 : State := sH false
def st64 : State := onCore false [] {Island.reset with tqint := 4, tqhead := 1} []
def st65 : State := sH true
def st66 : State := sShare 0x800000
def st67 : State := (onTile ((Tile.reset.setBinding 4 { valid := true, queue := 3, tag := 5, entry := 0x100, counter := 0, share := 1 }).setQueue 3 (queue [] 0 0)) (slot 0x100 [(1,5),(5,0x27FFE)] [(0,5)]) [])
def st68 : State := sFar true
def st69 : State := sVec [] []
def st70 : State := sVec (List.replicate 8 {vcmd .nop 0 0 with started := false}) []
def st71 : State := sVec [] [(1,0x40),(2,5)]
def st72 : State := onTile (Tile.reset.setQueue 3 (queue1 [(1,entry1 7 8)] 1 2)) (slot 0x100 [] []) []
def que2 : Queue := queue1 [(1,entry1 7 8)] 1 2
def st73 : State := sVec [] []
def st74 : State := sVec [vcmd .nop 0 0] []
def st75 : State := sVec [vcmd (.vld 1 2 0) 0x40 0] []
def vc1 : VCmd := vcmd (.vld 1 2 0) 0x40 0
def st76 : State := sVec [vcmd (.vstm 2 2 1) 0x27FC0 0x8000000000000003] []
def vc2 : VCmd := vcmd (.vstm 2 2 1) 0x27FC0 0x8000000000000003
def st77 : State := sMat {Matrix.reset with status := 0xFFFF0005}
def st78 : State := {sMat Matrix.reset with cores := [(0,6)]}
def st79 : State := sMat {Matrix.reset with scRunning := some (mcmd (.msca 0 false 1 2) Desc.reset Desc.reset)}
def st80 : State := sMat mI8
def st81 : State := sMat {mI8 with descB := desc 1 false 2}
def st82 : State := sJoin .waiting {mI8 with arrivals := [cJ]}
def st83 : State := sJoin .waiting {mI8 with arrivals := [cJ], aborts := [{ id := 8, place := 0 }, { id := 9, place := 3 }]}
def st84 : State := sMat {mI8 with waiting := some anOp}
def st85 : State := sMat {mI8 with running := some rOp, status := 0xFFFF0002}
def st86 : State := sMat {mI8 with scWaiting := some cSc}
def st87 : State := sVec [vidle (.vadd 7 1 2 3) 0] []
def vc3 : VCmd := vidle (.vadd 7 1 2 3) 0
def st88 : State := sVec [vidle (.vst 2 1 0) 0x27FC0] []
def vc4 : VCmd := vidle (.vst 2 1 0) 0x27FC0
def st89 : State := sVec [vidle (.vld 1 2 0) (2^60+6*2^24+0x40)] []
def vc5 : VCmd := vidle (.vld 1 2 0) (2^60+6*2^24+0x40)
def st90 : State := sFab f0 (at5 0x40 77)
def st91 : State := sFab f0 (at5 0x80 77)
def st92 : State := sFab {f0 with state := 1} (at5 0x80 77)
def st93 : State := sFab {f0 with state := 1} (at5 0x27FC0 77)
def st94 : State := sRun fRun { Domain.reset with run := some ([5], 0, 10), started := true, edge := 40 }
def st95 : State := sRun {f0 with state := 2} { Domain.reset with run := some ([5], 0, 10), started := true, edge := 40, stop := true }
def st96 : State := sStr [] [(1,0xC2),(2,0x2000),(3,0x40)] [(0,0x40),(1,7)] []
def st97 : State := sStr [c0] [(1,0x1000),(2,0x2000),(3,0x40)] [(0,0x100)] []
def st98 : State := {sStr [c0] [] [] (at5 0x2040 77) with serial := 200}
def st99 : State := {sStr [c1] [] [] (at5 0x40 (2^64-1)) with serial := 200}
def st100 : State := sPk kLoad (sl .none .parked) []
def req1 : Req := req (.load 2 true) 0
def pending1 : Pending := { reg := 6, id := 50, failed := false }
def st101 : State := sPk kAck (sl .none .ready) []
def req2 : Req := req (.store 2 []) 0
def st102 : State := sPk kWake (sl (.remote 50 (some 3)) .waiting) []
def req3 : Req := req (.store 2 []) 0
def st103 : State := sPk kMac (sl .none .ready) []
def req4 : Req := req (.store 2 []) 0
def st104 : State := sPk kGate quiet []
def req5 : Req := req (.store 2 []) 0
def st105 : State := sPk kCode quiet []
def req6 : Req := req (.store 2 []) 0
def st106 : State := sPk kRef quiet []
def ticket1 : Ticket := tick 50
def st107 : State := {sPk kRef quiet [] with lanes := [(61, badLane)]}
def st108 : State := sPk (kMsg (some 2)) quiet (at5 128 77)
def pk1 : Packet := kMsg (some 2)
def st109 : State := sPk (kMsg none) quiet []
def pk2 : Packet := kMsg none
def ticket2 : Ticket := tick 50
def st110 : State := {sPk kRef quiet [] with lanes := [(61, goodLane)]}
def st111 : State := sPk (kReq (.load 8 false) 0x27FF8) quiet (at5 0x27FF8 77)
def pk3 : Packet := kReq (.load 8 false) 0x27FF8
def req7 : Req := req (.load 8 false) (far5 0x27FF8)
def st112 : State := sPk (kReq (.store 2 (indexed [1,2])) 0x27FFE) quiet (at5 0x27FF8 (2^64-1))
def pk4 : Packet := kReq (.store 2 (indexed [1,2])) 0x27FFE
def req8 : Req := req (.store 2 (indexed [1,2])) (far5 0x27FFE)
def st113 : State := sPk (kReq (.swrite 2 (indexed [1,2])) 0x27FFE) quiet (at5 0x27FF8 (2^64-1))
def pk5 : Packet := kReq (.swrite 2 (indexed [1,2])) 0x27FFE
def req9 : Req := req (.swrite 2 (indexed [1,2])) (far5 0x27FFE)
def pk6 : Packet := kReq (.store 2 (indexed [1,2])) 0x1FFE
def req10 : Req := req (.store 2 (indexed [1,2])) (far5 0x1FFE)
def st114 : State := sPk (kReq (.cadd 3 0) 0x27FF0) quiet (at5 0x27FF0 (2^64-2))
def pk7 : Packet := kReq (.cadd 3 0) 0x27FF0
def req11 : Req := req (.cadd 3 0) (far5 0x27FF0)
def st115 : State := sPk (kReq (.caddf 3) 0x27FF0) quiet (at5 0x27FF0 (2^64-2))
def pk8 : Packet := kReq (.caddf 3) 0x27FF0
def req12 : Req := req (.caddf 3) (far5 0x27FF0)
def st116 : State := sPk (kReq .cread 0) quiet (at5 0 (2^64-2))
def pk9 : Packet := kReq .cread 0
def req13 : Req := req .cread (far5 0)
def st117 : State := sPk (kReq (.red .addf 0 0x3F800000) 0x27FFC) quiet (at5 0x27FF8 (0x40000000*2^32))
def pk10 : Packet := kReq (.red .addf 0 0x3F800000) 0x27FFC
def req14 : Req := req (.red .addf 0 0x3F800000) (far5 0x27FFC)
def st118 : State := onTile { Tile.reset with shareAdds := [anAdd] } quiet (at5 0x40 7)
def st119 : State := {sPk (kGrp true) quiet [] with groups := [(256+9,[6])]}
def pk11 : Packet := kGrp true
def st120 : State := {sPk (kGrp false) quiet [] with groups := [(256+9,[5,6])]}
def pk12 : Packet := kGrp false
def st121 : State := sPk (kGA true) (sl .group .waiting) []
def pk13 : Packet := kGA true
def st122 : State := sPk kBack {quiet with state := .migrated} []
def st123 : State := sPk kSys quiet []
def st124 : State := sLev Level.reset 4096 kRef
def st125 : State := sLev (lvOn 3 30) 4096 kLev
def st126 : State := sPk kLoad (sl (.counter 64 9 (some (6,5))) .waiting) []
def req15 : Req := req (.load 2 true) 0
def st127 : State := {sPk kLoad (sl (.counter 64 9 (some (6,5))) .waiting) [] with bulks := [(0, { live 1 with timer := 6 })]}
def req16 : Req := req (.load 2 true) 0
def shareadd1 : ShareAdd := { anAdd with after := [40] }
def st128 : State := sNet nA (oneFlit 4 3 fA (outs 1 3 none)) kA (live 1)
def st129 : State := sNet nA (oneFlit 3 3 fB (outs 4 3 (some 60))) kB (live 1)
def st130 : State := sNet nA (buf 0x60) kB (live 1)
def st131 : State := sG closed
def st132 : State := sSt stRange (kT rSt .arrived) []
def pk14 : Packet := kT rSt .arrived
def st133 : State := sSt stRange (kT rHi .arrived) []
def pk15 : Packet := kT rHi .arrived
def st134 : State := sSt Station.reset (kT rSt .arrived) []
def pk16 : Packet := kT rSt .arrived
def st135 : State := sSt Station.reset (kT rSt (.walking (wk 4 true))) []
def pk17 : Packet := kT rSt (.walking (wk 4 true))
def walk1 : Walk := wk 4 true
def pk18 : Packet := kT rSt (.walking (wk 4 false))
def walk2 : Walk := wk 4 false
def st136 : State := sSt Station.reset kTr []
def seal1 : Seal := { token := 1, ok := true, minor := 127 }
def st137 : State := sSt Station.reset kStall []
def st138 : State := sRing 2 1
def st139 : State := sFreeze 1023
def st140 : State := sFreeze 1024
def st141 : State := sScrub false
def st142 : State := sScrub true
def st143 : State := sDbg .parked 1
def st144 : State := sDbg .ready 0
def st145 : State := sDbg .migrated 0
def st146 : State := sPre Tile.reset
def st147 : State := sPre { Tile.reset with fab := { Fabric.reset with state := 1 } }
def st148 : State := sPre { Tile.reset with pre := 1 }
def st149 : State := sBadPre { Tile.reset with pre := 2, preSave := true, image := 0x123 }
def st150 : State := sBadPre { Tile.reset with pre := 2, preSave := false, image := 0x123 }
def st151 : State := cq [(1, ce 8 false), (2, ce 9 false)]
def st152 : State := cq [(1, ce 8 false), (2, ce 9 true)]
def st153 : State := sFW 0
def st154 : State := sFW 3
def st155 : State := sReg 1
def st156 : State := sPre2 (tPre true) (at5 0x40 77)
def st157 : State := sPre2 (tPre false) (Memory.writeN [] (2^64+2^51+0x123000) (bytesOfNat 8 77))
def st158 : State := sHost 0 (far5 0) 8 0x40
def st159 : State := sHost 2 (far5 0) 8 0x40
def st160 : State := sHost 1 (far5 0) 257 0x40
def st161 : State := sHost 1 (far5 0) 256 0x40
def st162 : State := sCap 30000000
def st163 : State := sBox 1 1 [] id
def st164 : State := sBox 1 2 [6] id
def st165 : State := sBox 1 2 [7] id
def reg1 : Region := { Region.reset with bulks := [3,4] }
def st166 : State := sBox 1 3 [1,0,33,0] id
def st167 : State := sBox 1 3 [1,0,9,0] id
def st168 : State := sBox 1 3 [1,0,8,0] id
def st169 : State := sBox 1 3 [2,0,79,0] id
def st170 : State := sBox 1 3 [2,0,80,0] id
def st171 : State := sBox 1 3 [3,0,80,0] id
def st172 : State := sBox 1 3 [4,0,0,0] id
def st173 : State := sBox 1 3 [4,0,1,0] id
def st174 : State := sBox 1 3 [5,0,1,0] id
def st175 : State := sBox 1 3 [6,0,7,0] id
def st176 : State := sBox 1 3 [6,0,32,0] id
def st177 : State := sBox 1 3 [7,0,32,0] id
def st178 : State := sBox 2 4 [7,0,32,0] id
def st179 : State := sBox 2 4 [7,0,32,0] unowned
def st180 : State := sBox 2 5 [3] id
def st181 : State := sBox 1 5 [255] id
def st182 : State := sBox 2 0x16 [1,79,12,15] id
def st183 : State := sBox 1 0x16 [1,80,12,15] id
def st184 : State := sBox 1 0x16 [1,79,12,15] id
def st185 : State := sBox 1 5 [5] id
def st186 : State := sBox2 1 0x10 [0,1,0,0,0,0,0,0,0,0,0,0,0,0,0,0,3,1]
def st187 : State := sBox2 2 0x10 []
def st188 : State := sBox2 2 0x11 []
def st189 : State := sBox2 1 0x11 [2]
def st190 : State := sBox2 1 0x11 [1]
def st191 : State := sBox2 1 0x15 [1,0]
def st192 : State := sBox2 1 0x15 [1,1,0]
def st193 : State := sBox2 1 0x12 [1,0]
def st194 : State := sBox2 1 0x12 [1,1]
def st195 : State := sJob (.preempt 1 true 2)
def st196 : State := sJob (.preempt 1 false 2)
def st197 : State := sBox2 1 0x14 [0,1,1,0]
def st198 : State := sJob (.withdraw 0 3 [60])
def st199 : State := sScr 1 ScrubRec.reset
def st200 : State := sScr 2 ScrubRec.reset
def st201 : State := sHall 32768
def st202 : State := sHall 32767
def st203 : State := sPort { upPort with nakDue := [7,8], ackDue := [9] }
def st204 : State := sPort { upPort with nakDue := [], ackDue := [9] }
def st205 : State := sPort { upPort with replay := [rp 3 true, rp 4 false, rp 5 false] }
def replay1 : Replay := rp 4 false
def st206 : State := sPort { upPort with replay := [rp 3 true], txq := [og 9 2 [1,2] none, og 7 1 [1] none] }
def outgoing1 : Outgoing := og 9 2 [1,2] none
def st207 : State := sPort { upPort with replay := (List.range 64).map fun i => rp i true }
def st208 : State := sPort { upPort with quiet := 4096 }
def st209 : State := sPort mk
def st210 : State := sPort { mk with replay := (List.range 64).map fun i => rp i true }
def st211 : State := sPort { upPort with inbox := [fr 0 0x10 7 true] }
def frame1 : Frame := fr 0 0x10 7 true
def st212 : State := sPort { upPort with inbox := [fr 0 0x10 7 true], unacked := 15 }
def frame2 : Frame := fr 0 0x10 7 true
def st213 : State := sPort { upPort with inbox := [fr 0 0x800F 7 true] }
def frame3 : Frame := fr 0 0x800F 7 true
def st214 : State := sPort { upPort with inbox := [fr 0 0xF 7 true] }
def frame4 : Frame := fr 0 0xF 7 true
def st215 : State := sPort { upPort with inbox := [fr 0 0x10 7 false] }
def frame5 : Frame := fr 0 0x10 7 false
def st216 : State := sPort { upPort with inbox := [fr 5 0x10 7 true] }
def frame6 : Frame := fr 5 0x10 7 true
def st217 : State := sPort { upPort with inbox := [fr 1 0x10 7 true] }
def frame7 : Frame := fr 1 0x10 7 true
def st218 : State := sPort (ackP false)
def frame8 : Frame := fr 2 3 7 true
def st219 : State := sPort (ackP true)
def frame9 : Frame := fr 2 3 7 true
def st220 : State := sPort (nakP 14)
def frame10 : Frame := fr 3 3 7 true
def st221 : State := sPort (nakP 15)
def frame11 : Frame := fr 3 3 7 true
def st222 : State := sPort { upPort with inbox := [fr 4 3 7 true] }
def frame12 : Frame := fr 4 3 7 true
def st223 : State := sPort { upPort with unacked := 1, age := 8 }
def st224 : State := sPort { upPort with unacked := 1, age := 7, st := 3 }
def st225 : State := sMg 1 [] upPort
def st226 : State := sMg 2 [mg true 0] upPort
def mig1 : Mig := mg true 0
def st227 : State := sMg 2 [mg true 4] upPort
def mig2 : Mig := mg true 4
def st228 : State := sMg 2 [] upPort
def st229 : State := sMg 3 [] upPort
def mig3 : Mig := mg false 1
def st230 : State := sMg 3 [mg false 3] upPort
def mig4 : Mig := mg false 3
def st231 : State := sMg 3 [mg false 5] upPort
def mig5 : Mig := mg false 5
def st232 : State := sMg 4 [mg true 2] upPort
def mig6 : Mig := mg true 2
def st233 : State := sMg 6 [mg true 0] upPort
def mig7 : Mig := mg true 0
def st234 : State := sMg 7 [mg true 0] upPort
def mig8 : Mig := mg true 0
def st235 : State := sMg 8 [mg true 2] upPort
def mig9 : Mig := mg true 2
def st236 : State := sMg 5 [mg false 1] upPort
def mig10 : Mig := mg false 1
def st237 : State := sItem false
def mig11 : Mig := zi false
def st238 : State := sBox3 2 [2,0] [] true
def st239 : State := sBox3 1 [3,0] [] true
def st240 : State := sBox3 1 [2,0] [] true
def reg2 : Region := { Region.reset with bulks := [3], released := true }
def reg3 : Region := { Region.reset with bulks := [3], released := true }
def st241 : State := sBox3 1 [2,1] [] true
def st242 : State := sBox3 1 [2,1] [mg true 0] true
def mig12 : Mig := mg true 0
def st243 : State := sBox3 1 [2,1] [mg true 3] true
def mig13 : Mig := mg true 3
def st244 : State := sBox3 1 [2,2] [] true
def st245 : State := sBox3 1 [2,2] [mg false 2] true
def mig14 : Mig := mg false 2
def st246 : State := sBox3 1 [2,2] [mg false 3] true
def mig15 : Mig := mg false 3
def st247 : State := sBox3 1 [2,2] [mg false 4] true
def mig16 : Mig := mg false 4
def st248 : State := sBox3 1 [2,2] [mg false 5] true
def mig17 : Mig := mg false 5
def st249 : State := sPort (testP 1)
def st250 : State := sPort (testP 2)
def st251 : State := sPort { upPort with confirmed := some 7 }
def st252 : State := sPort (testP 1)
def st253 : State := sPort { upPort with inbox := [f1 false] }
def frame13 : Frame := f1 false
def st254 : State := sPort { nakP 15 with txq := [og 3 3 [1,2,3] (some kOut)] }
def frame14 : Frame := fr 3 3 7 true
def st255 : State := sPort { upPort with st := 3, version := some 0x020200 }
def st256 : State := sPort { upPort with st := 3, version := some 0x030300 }
def st257 : State := sRecov15 [.event .powerOn, .issue 0]
def st258 : State := sRecov15 [.flashUpdate [1,2] [3] 9, .issue 0]
def st259 : State := sRel15 2 3 [(1,far5 0x1040),(2,0x2000),(3,0x40),(4,2^60+6*2^24+0x40),(7,far5 0x77)] [(0,0x100)]
def st260 : State := sFabS 0 0x200402005
def st261 : State := sFabS 1 0x0000000000000005
def st262 : State := sLvl Level.reset 0x400200001
def st263 : State := sV (.vfma 0 1 2 3) 0x1F3C5A7799AA55F0 rN0 rA32 rB32
def vc6 : VCmd := vcmd17 (.vfma 0 1 2 3) 0x1F3C5A7799AA55F0 0
def rowrule1 : RowRule := rr (.vfma 0 1 2 3) 0x1F3C5A7799AA55F0
def st264 : State := sV (.vredadd 0 4 2) 0x1F3C5A7799AA55F0 rN0 rA32 rB32
def vc7 : VCmd := vcmd17 (.vredadd 0 4 2) 0x1F3C5A7799AA55F0 0
def pending2 : Pending := { reg := 4, id := 40, failed := false }
def st265 : State := sV (.vcvt 0 1 0 false 1 2) 0x1F3C5A7799AA55F0 rN0 rA16 rB16
def vc8 : VCmd := vcmd17 (.vcvt 0 1 0 false 1 2) 0x1F3C5A7799AA55F0 0
def st266 : State := sIss 15 5
def req17 : Req := req (.store 2 []) 0
def st267 : State := sIss 16 5
def req18 : Req := req (.store 2 []) 0
def st268 : State := sNetG gwE (oneFlit16 1 3 fMidG (outs 0 3 (some 60))) kDrop closed
def st269 : State := sNetG gwE (oneFlit16 1 3 fEndG (outs 0 3 (some 60))) kDrop closed
def st270 : State := { sNetG nP (oneFlit16 3 3 fEndG (outs 4 3 (some 60))) kLO (live 1) with ports := [(9, { Port.reset with st := 1 })] }
def st271 : State := { sNetG nP (oneFlit16 3 3 fEndG (outs 4 3 (some 60))) kLI (live 1) with ports := [(9, { Port.reset with st := 1 })] }
def st272 : State := sFarW true true
def xlat1 : Xlat := farXlat16 true
def st273 : State := sMM (mop (.mma 0 false) 1 1)
def mop1 : MOp := mop (.mma 0 false) 1 1
def fmt1 : Fmt := ff 1
def fmt2 : Fmt := ff 1
def st274 : State := sMM (mop (.mmas 0 2) 1 1)
def mop2 : MOp := mop (.mmas 0 2) 1 1
def fmt3 : Fmt := ff 1
def fmt4 : Fmt := ff 1
def st275 : State := sMM (mop (.mma 0 false) 5 5)
def mop3 : MOp := mop (.mma 0 false) 5 5
def st276 : State := sRun16 {f0 with state := 1} (dom 0 0 false false 47) 20
def st277 : State := sRun16 {f0 with state := 1} (dom 0 0 false false 49) 20
def st278 : State := sRun16 fRun (dom 0 42 true false 10) 20
def st279 : State := sVE (.vfma 0 1 2 3) [1]
def vc9 : VCmd := vcmd16 (.vfma 0 1 2 3) 9 0
def st280 : State := sFar6 [(1,far6 0x28000)]
def st281 : State := sFar6 [(1,far6 0x20),(9,far6 0x20)]
def st282 : State := sFar6 [(1,far6 0x27FFE),(2,0xABCD1234)]
def st283 : State := sFar6 [(1,far6 0),(2,0x1122334455667788)]
def st284 : State := sFar6 [(1,far6 0x44),(2,9)]
def st285 : State := sFar6 [(1,far6 0x27FFC),(2,0x3F800000)]
def st286 : State := sScan { xs 0 0 with instr := .vscan 2 6 2 3 } noMail noMail
def vc10 : VCmd := { xs 0 0 with instr := .vscan 2 6 2 3 }
def st287 : State := sScan (xs 0 3) noMail noMail
def vc11 : VCmd := xs 0 3
def tile1 : Tile := (sScan (xs 0 3) noMail noMail).tile 5
def st288 : State := sScan (xs 1 1) noMail noMail
def vc12 : VCmd := xs 1 1
def tile2 : Tile := (sScan (xs 1 1) noMail noMail).tile 5
def st289 : State := sScan (xs 1 1) noMail #v[[],[],[],[1,2,3,4]]
def vc13 : VCmd := xs 1 1
def tile3 : Tile := (sScan (xs 1 1) noMail #v[[],[],[],[1,2,3,4]]).tile 5
def st290 : State := sScan (xs 0 0) noMail noMail
def vc14 : VCmd := xs 0 0
def st291 : State := sFR (fabRun [] csO) (fdom false 0 none) quiet
def armed1 : Armed := { slot := 1, act := 7, epc := 0x80 }
def st292 : State := sFR (fabRun [] csO) (fdom false 0 none) { quiet with act := 8 }
def armed2 : Armed := { slot := 1, act := 7, epc := 0x80 }
def st293 : State := sKill (.remote 50 none) [aWatch 1 49 true, aWatch 2 50 true]
def watch1 : Watch := aWatch 2 50 true
def st294 : State := sTrip 1760 0 450 Tile.reset
def st295 : State := sBack 1439 450

/-! ### Witnesses of the statements: every clause's hypotheses hold together somewhere -/

theorem witness_DecodeEncode :
    ((Instr.addi (1 : Reg) (2 : Reg) (-1 : BitVec 15)).wf = true ∧
     (Instr.addi (1 : Reg) (2 : Reg) (-1 : BitVec 15)).hasWord = true) := by decide +kernel

theorem witness_DecodedIsWellFormed_0 :
    (decodeWord (127 : BitVec 32) = Except.ok Instr.nop) := by decide +kernel

theorem witness_DecodedIsWellFormed_1 :
    (decodeHalf (49153 : BitVec 16) = Except.ok Instr.compactHint) := by decide +kernel

theorem witness_StepRunsDecoded :
    (sStep.agenda = [] ∧
     sStep.office.recovery = false ∧
     sStep.tileRuns sStep.focus = true ∧
     (sStep.tile sStep.focus).ptr + (1 : BitVec 2) = (0 : BitVec 2) ∧
     (sStep.slot sStep.focus (0 : BitVec 2)).state = SlotState.ready ∧
     (sStep.slot sStep.focus (0 : BitVec 2)).ctx.pend = [] ∧
     (sStep.tile sStep.focus).dbgActive = false ∧
     (sStep.tile sStep.focus).dbgCtl = (0 : BitVec 40) ∧
     (Instr.addi (1 : Reg) (2 : Reg) (-1 : BitVec 15)).wf = true ∧
     (Instr.addi (1 : Reg) (2 : Reg) (-1 : BitVec 15)).hasWord = true ∧
     (BitVec.toNat (sStep.slot sStep.focus (0 : BitVec 2)).ctx.pc +
         (encodeBytes (Instr.addi (1 : Reg) (2 : Reg) (-1 : BitVec 15))).length ≤
       163840) ∧
     (sStep.mem.readN (scratchKey sStep.focus (BitVec.toNat (sStep.slot sStep.focus (0 : BitVec 2)).ctx.pc))
         (encodeBytes (Instr.addi (1 : Reg) (2 : Reg) (-1 : BitVec 15))).length =
       encodeBytes (Instr.addi (1 : Reg) (2 : Reg) (-1 : BitVec 15))) ∧
     (sStep.eccBad (scratchKey sStep.focus (BitVec.toNat (sStep.slot sStep.focus (0 : BitVec 2)).ctx.pc))
         (encodeBytes (Instr.addi (1 : Reg) (2 : Reg) (-1 : BitVec 15))).length =
       false))
    ∧ (sStepC.agenda = [] ∧
     sStepC.office.recovery = false ∧
     sStepC.tileRuns sStepC.focus = true ∧
     (sStepC.tile sStepC.focus).ptr + (1 : BitVec 2) = (0 : BitVec 2) ∧
     (sStepC.slot sStepC.focus (0 : BitVec 2)).state = SlotState.ready ∧
     (sStepC.slot sStepC.focus (0 : BitVec 2)).ctx.pend = [] ∧
     (sStepC.tile sStepC.focus).dbgActive = false ∧
     (sStepC.tile sStepC.focus).dbgCtl = (0 : BitVec 40) ∧
     (Instr.cMov (1 : BitVec 4) (2 : BitVec 4)).wf = true ∧
     (Instr.cMov (1 : BitVec 4) (2 : BitVec 4)).hasWord = true ∧
     (BitVec.toNat (sStepC.slot sStepC.focus (0 : BitVec 2)).ctx.pc +
         (encodeBytes (Instr.cMov (1 : BitVec 4) (2 : BitVec 4))).length ≤
       163840) ∧
     (sStepC.mem.readN (scratchKey sStepC.focus (BitVec.toNat (sStepC.slot sStepC.focus (0 : BitVec 2)).ctx.pc))
         (encodeBytes (Instr.cMov (1 : BitVec 4) (2 : BitVec 4))).length =
       encodeBytes (Instr.cMov (1 : BitVec 4) (2 : BitVec 4))) ∧
     (sStepC.eccBad (scratchKey sStepC.focus (BitVec.toNat (sStepC.slot sStepC.focus (0 : BitVec 2)).ctx.pc))
         (encodeBytes (Instr.cMov (1 : BitVec 4) (2 : BitVec 4))).length =
       false)) := by repeat' first | decide +kernel | constructor

theorem witness_StepTakesTurn_0 :
    (st1.office.recovery = false ∧
     st1.agenda = [Turn.event (Instr.activationFiring (0 : TileName)), Turn.issue (0 : TileName)])
    ∧ (st2.office.recovery = false ∧
     st2.agenda = [Turn.issue (0 : TileName), Turn.issue (0 : TileName)])
    ∧ (st3.office.recovery = false ∧
     st3.agenda = [Turn.core (0 : BulkId) (2 : BitVec 3), Turn.issue (0 : TileName)]) := by repeat' first | decide +kernel | constructor

theorem witness_StepTakesTurn_1 :
    (st4.office.recovery = true ∧
     st4.agenda = [])
    ∧ (st5.office.recovery = true ∧
     st5.agenda = [Turn.issue (0 : TileName)] ∧
     Turn.issue (0 : TileName) ≠ Turn.event Instr.powerOn ∧
     (∀ (y g : List Byte) (v : ℕ), Turn.issue (0 : TileName) ≠ Turn.flashUpdate y g v) ∧
     (∀ (a : ℕ) (bs : List Byte), Turn.issue (0 : TileName) ≠ Turn.hostWrite a bs) ∧
     (∀ (m : BitVec 2), Turn.issue (0 : TileName) ≠ Turn.serve m) ∧
     (∀ (n : ℕ), Turn.issue (0 : TileName) ≠ Turn.tick n))
    ∧ (st257.office.recovery = true ∧
     st257.agenda = [Turn.event Instr.powerOn, Turn.issue (0 : TileName)])
    ∧ (st258.office.recovery = true ∧
     st258.agenda = [Turn.flashUpdate [(1 : Byte), (2 : Byte)] [(3 : Byte)] 9, Turn.issue (0 : TileName)])
    ∧ (sServe.office.recovery = true ∧
     sServe.agenda = [Turn.serve (1 : BitVec 2), Turn.issue (0 : TileName)] ∧
     MemCanonical sServe ∧
     sServe.mail (1 : BitVec 2) 4088 8 = 1) := by
  refine ⟨?_, ⟨?_, ?_, ?_, by rintro _ _ _ ⟨⟩, by rintro _ _ ⟨⟩, by rintro _ ⟨⟩, by rintro _ ⟨⟩⟩, ?_, ?_, ?_⟩ <;> repeat' first | decide +kernel | constructor

theorem witness_StepKeepsMemoryCanonical :
    (MemCanonical sStep ∧
     step sStep = Host.Outcome.next sAfter) := by
  refine ⟨?_, rfl⟩ <;> decide +kernel

theorem witness_AluResult :
    (aluRule sAlu.rd (Instr.add (1 : Reg) (2 : Reg) (3 : Reg)) = some ((1 : Reg), (9223372036854775807 : Word)))
    ∧ (aluRule sAlu.rd (Instr.sub (0 : Reg) (1 : Reg) (3 : Reg)) = some ((0 : Reg), (8 : Word))) := by repeat' first | decide +kernel | constructor

theorem witness_BitFields_0 :
    ((5 : Reg) ≠ (0 : Reg)) := by decide +kernel

theorem witness_ExtensionRegisters_0 :
    (BitVec.toNat (127 : BitVec 32) % 2 ^ 7 = 127)
    ∧ (BitVec.toNat (49153 : BitVec 16) % 4 = 1 ∧
     BitVec.toNat (49153 : BitVec 16) / 2 ^ 13 = 6) := by repeat' first | decide +kernel | constructor

theorem witness_Branches_0 :
    (branchRule st6.rd st6.pc (Instr.beq (1 : Reg) (2 : Reg) (4 : BitVec 12)) = some (false, (264 : Word)))
    ∧ (branchRule st7.rd st7.pc (Instr.bne (1 : Reg) (2 : Reg) (4 : BitVec 12)) = some (true, (264 : Word))) := by repeat' first | decide +kernel | constructor

theorem witness_LoopMakesLevel_0 :
    (st8.cur = Agent.slot (5 : TileName) (0 : BitVec 2) ∧
     BitVec.toNat st8.pc % 2 = 0 ∧
     BitVec.toNat st8.pc + 4 < 163840 ∧
     (4 : BitVec 12) ≠ (0 : BitVec 12) ∧
     loopValid st8.ctx.loop1 = false ∧
     BitVec.toNat (st8.rd (1 : Reg)) % 2 ^ 32 ≠ 0)
    ∧ (st9.cur = Agent.slot (5 : TileName) (0 : BitVec 2) ∧
     BitVec.toNat st9.pc % 2 = 0 ∧
     BitVec.toNat st9.pc + 4 < 163840 ∧
     (4095 : BitVec 12) ≠ (0 : BitVec 12) ∧
     loopValid st9.ctx.loop1 = false ∧
     BitVec.toNat (st9.rd (1 : Reg)) % 2 ^ 32 ≠ 0) := by repeat' first | decide +kernel | constructor

theorem witness_LoopMakesLevel_1 :
    (st10.cur = Agent.slot (5 : TileName) (0 : BitVec 2) ∧
     BitVec.toNat st10.pc % 2 = 0 ∧
     BitVec.toNat st10.pc + 4 < 163840 ∧
     (4 : BitVec 12) ≠ (0 : BitVec 12) ∧
     loopValid st10.ctx.loop0 = false ∧
     loopValid st10.ctx.loop1 = false ∧
     st10.ctx.noEnd = false ∧
     BitVec.toNat (st10.rd (0 : Reg)) % 2 ^ 32 = 0 ∧
     BitVec.toNat st10.pc + 2 * BitVec.toNat (4 : BitVec 12) + 2 ≤ 163840 ∧
     (st10.eccBad (scratchKey (5 : TileName) (BitVec.toNat st10.pc + 2 * BitVec.toNat (4 : BitVec 12)))
         2 =
       false)) := by decide +kernel

theorem witness_LoopMakesLevel_2 :
    (st11.cur = Agent.slot (5 : TileName) (0 : BitVec 2) ∧
     BitVec.toNat st11.pc % 2 = 0 ∧
     BitVec.toNat st11.pc + 4 < 163840 ∧
     (4 : BitVec 12) ≠ (0 : BitVec 12) ∧
     loopValid st11.ctx.loop1 = true ∧
     TrapReady (5 : TileName) (0 : BitVec 2) st11) := by repeat' first | decide +kernel | constructor

theorem witness_EndAction :
    (st12.ctx.noEnd = false) := by decide +kernel

theorem witness_LoadsOwnScratch_0 :
    (st13.cur = Agent.slot (5 : TileName) (0 : BitVec 2) ∧
     (loadRule st13.rd (Instr.ldhs (3 : Reg) (1 : Reg) (-2 : BitVec 12)) =
       some (2, true, (3 : Reg), (163838 : Word))) ∧
     BitVec.toNat (163838 : Word) % 2 = 0 ∧
     st13.loadsFull = false ∧
     BitVec.toNat (163838 : Word) + 2 ≤ 163840 ∧
     OwnFree (5 : TileName) (BitVec.toNat (163838 : Word)) 2 st13)
    ∧ (st14.cur = Agent.slot (5 : TileName) (0 : BitVec 2) ∧
     loadRule st14.rd (Instr.ldd (3 : Reg) (0 : Reg) (0 : BitVec 12)) = some (8, false, (3 : Reg), (0 : Word)) ∧
     BitVec.toNat (0 : Word) % 8 = 0 ∧
     st14.loadsFull = false ∧
     BitVec.toNat (0 : Word) + 8 ≤ 163840 ∧
     OwnFree (5 : TileName) (BitVec.toNat (0 : Word)) 8 st14) := by repeat' first | decide +kernel | constructor

theorem witness_LoadsOwnScratch_1 :
    (st280.cur = Agent.slot (5 : TileName) (0 : BitVec 2) ∧
     (loadRule st280.rd (Instr.ldws (3 : Reg) (1 : Reg) (-4 : BitVec 12)) =
       some (4, true, (3 : Reg), BitVec.ofNat 64 (far6 163836))) ∧
     (BitVec.ofNat 64 (far6 163836)).toNat % 4 = 0 ∧
     st280.loadsFull = false ∧
     Elsewhere (5 : TileName) (6 : TileName) (BitVec.ofNat 64 (far6 163836)) 163836 4 st280 ∧
     MayLeave (5 : TileName) (6 : TileName) (BitVec.ofNat 64 (far6 163836)) 163836 4 st280)
    ∧ (st281.cur = Agent.slot (5 : TileName) (0 : BitVec 2) ∧
     (loadRule st281.rd (Instr.cLdd (0 : BitVec 4) (1 : BitVec 4) (1 : BitVec 3)) =
       some (8, false, creg (0 : BitVec 4), BitVec.ofNat 64 (far6 40))) ∧
     (BitVec.ofNat 64 (far6 40)).toNat % 8 = 0 ∧
     st281.loadsFull = false ∧
     Elsewhere (5 : TileName) (6 : TileName) (BitVec.ofNat 64 (far6 40)) 40 8 st281 ∧
     MayLeave (5 : TileName) (6 : TileName) (BitVec.ofNat 64 (far6 40)) 40 8 st281) := by repeat' first | decide +kernel | constructor

theorem witness_StoresOwnScratch_0 :
    (st15.cur = Agent.slot (5 : TileName) (0 : BitVec 2) ∧
     (storeRule st15.rd (Instr.std (2 : Reg) (1 : Reg) (-8 : BitVec 12)) =
       some (8, (1234605616436508552 : Word), (163832 : Word))) ∧
     BitVec.toNat (163832 : Word) % 8 = 0 ∧
     BitVec.toNat (163832 : Word) + 8 ≤ 163840 ∧
     WriteFree (5 : TileName) (BitVec.toNat (163832 : Word)) 8 st15 ∧
     st15.codeLocked (5 : TileName) (BitVec.toNat (163832 : Word)) 8 = false ∧
     MemCanonical st15)
    ∧ (st16.cur = Agent.slot (5 : TileName) (0 : BitVec 2) ∧
     storeRule st16.rd (Instr.stb (2 : Reg) (1 : Reg) (-1 : BitVec 12)) = some (1, (0 : Word), (163839 : Word)) ∧
     BitVec.toNat (163839 : Word) % 1 = 0 ∧
     BitVec.toNat (163839 : Word) + 1 ≤ 163840 ∧
     WriteFree (5 : TileName) (BitVec.toNat (163839 : Word)) 1 st16 ∧
     st16.codeLocked (5 : TileName) (BitVec.toNat (163839 : Word)) 1 = false ∧
     MemCanonical st16) := by repeat' first | decide +kernel | constructor

theorem witness_StoresOwnScratch_1 :
    (st282.cur = Agent.slot (5 : TileName) (0 : BitVec 2) ∧
     (storeRule st282.rd (Instr.sth (2 : Reg) (1 : Reg) (0 : BitVec 12)) =
       some (2, (2882343476 : Word), BitVec.ofNat 64 (far6 163838))) ∧
     (BitVec.ofNat 64 (far6 163838)).toNat % 2 = 0 ∧
     Elsewhere (5 : TileName) (6 : TileName) (BitVec.ofNat 64 (far6 163838)) 163838 2 st282 ∧
     MayWrite (5 : TileName) (6 : TileName) (BitVec.ofNat 64 (far6 163838)) 163838 2 st282)
    ∧ (st283.cur = Agent.slot (5 : TileName) (0 : BitVec 2) ∧
     (storeRule st283.rd (Instr.std (2 : Reg) (1 : Reg) (0 : BitVec 12)) =
       some (8, (1234605616436508552 : Word), BitVec.ofNat 64 (far6 0))) ∧
     (BitVec.ofNat 64 (far6 0)).toNat % 8 = 0 ∧
     Elsewhere (5 : TileName) (6 : TileName) (BitVec.ofNat 64 (far6 0)) 0 8 st283 ∧
     MayWrite (5 : TileName) (6 : TileName) (BitVec.ofNat 64 (far6 0)) 0 8 st283) := by repeat' first | decide +kernel | constructor

theorem witness_AccessChecks_0 :
    (TrapReady (5 : TileName) (0 : BitVec 2) sAcc ∧
     ((∃ sg d,
         loadRule sAcc.rd (Instr.ldw (3 : Reg) (1 : Reg) (0 : BitVec 12)) = some (4, sg, d, (163839 : Word))) ∨
       ∃ v, storeRule sAcc.rd (Instr.ldw (3 : Reg) (1 : Reg) (0 : BitVec 12)) = some (4, v, (163839 : Word))) ∧
     BitVec.toNat (163839 : Word) % 4 ≠ 0) := by repeat' first | decide +kernel | constructor

theorem witness_AccessChecks_1 :
    (TrapReady (5 : TileName) (0 : BitVec 2) sAcc ∧
     ((∃ sg d,
         loadRule sAcc.rd (Instr.ldw (3 : Reg) (1 : Reg) (1 : BitVec 12)) = some (4, sg, d, (163840 : Word))) ∨
       ∃ v, storeRule sAcc.rd (Instr.ldw (3 : Reg) (1 : Reg) (1 : BitVec 12)) = some (4, v, (163840 : Word))) ∧
     BitVec.toNat (163840 : Word) % 4 = 0 ∧
     BitVec.toNat (163840 : Word) < 2 ^ 60 ∧
     163840 < BitVec.toNat (163840 : Word) + 4) := by repeat' first | decide +kernel | constructor

theorem witness_AccessChecks_2 :
    (TrapReady (5 : TileName) (0 : BitVec 2) sAcc ∧
     ((∃ sg d,
         loadRule sAcc.rd (Instr.stw (3 : Reg) (2 : Reg) (0 : BitVec 12)) =
           some (4, sg, d, (4611686018427387904 : Word))) ∨
       ∃ v,
         storeRule sAcc.rd (Instr.stw (3 : Reg) (2 : Reg) (0 : BitVec 12)) =
           some (4, v, (4611686018427387904 : Word))) ∧
     BitVec.toNat (4611686018427387904 : Word) % 4 = 0 ∧
     4 * 2 ^ 60 ≤ BitVec.toNat (4611686018427387904 : Word) ∧
     BitVec.toNat (4611686018427387904 : Word) < 8 * 2 ^ 60) := by
  refine ⟨?_, .inr ⟨sAcc.rd 3, by decide +kernel⟩, ?_⟩ <;> repeat' first | decide +kernel | constructor

theorem witness_AccessChecks_3 :
    (TrapReady (5 : TileName) (0 : BitVec 2) sAcc ∧
     ((∃ sg d,
         loadRule sAcc.rd (Instr.stw (3 : Reg) (4 : Reg) (0 : BitVec 12)) =
           some (4, sg, d, (1152921504699121664 : Word))) ∨
       ∃ v,
         storeRule sAcc.rd (Instr.stw (3 : Reg) (4 : Reg) (0 : BitVec 12)) =
           some (4, v, (1152921504699121664 : Word))) ∧
     BitVec.toNat (1152921504699121664 : Word) % 4 = 0 ∧
     BitVec.toNat (1152921504699121664 : Word) = 2 ^ 60 + (5 : TileName) * 2 ^ 24 + 8388608 ∧
     (5 : TileName) < (2 : TileName) ^ 19 ∧
     sAcc.tileExists (5 : TileName) = true ∧
     8388608 ≤ 8388608 ∧
     8388608 + 4 ≤ 16777216) := by
  refine ⟨?_, .inr ⟨sAcc.rd 3, by decide +kernel⟩, ?_⟩ <;> repeat' first | decide +kernel | constructor

theorem witness_AccessChecks_4 :
    (TrapReady (5 : TileName) (0 : BitVec 2) sLock ∧
     ((∃ sg d,
         loadRule sLock.rd (Instr.stw (6 : Reg) (3 : Reg) (0 : BitVec 12)) = some (4, sg, d, (8188 : Word))) ∨
       ∃ v, storeRule sLock.rd (Instr.stw (6 : Reg) (3 : Reg) (0 : BitVec 12)) = some (4, v, (8188 : Word))) ∧
     storeRule sLock.rd (Instr.stw (6 : Reg) (3 : Reg) (0 : BitVec 12)) = some (4, (4100 : Word), (8188 : Word)) ∧
     BitVec.toNat (8188 : Word) % 4 = 0 ∧
     OwnAt (5 : TileName) (8188 : Word) 8188 sLock ∧
     8188 + 4 ≤ 163840 ∧
     sLock.codeLocked (5 : TileName) 8188 4 = true) := by
  refine ⟨?_, .inr ⟨4100, by decide +kernel⟩, ?_⟩ <;> repeat' first | decide +kernel | constructor

theorem witness_CounterAdds_0 :
    (CounterHere (5 : TileName) (0 : BitVec 2) (64 : Word) 64 st17 ∧
     MemCanonical st17 ∧
     st17.metaBefore st17.serial (5 : TileName) 64 16 = false ∧
     unwatched (5 : TileName) (scratchKey (5 : TileName) 64) st17 = true ∧
     unwaited (5 : TileName) (scratchKey (5 : TileName) 64) st17 = true ∧
     st17.rd (1 : Reg) = (64 : Word))
    ∧ (CounterHere (5 : TileName) (0 : BitVec 2) (BitVec.ofNat 64 (far5 64)) 64 st18 ∧
     MemCanonical st18 ∧
     st18.metaBefore st18.serial (5 : TileName) 64 16 = false ∧
     unwatched (5 : TileName) (scratchKey (5 : TileName) 64) st18 = true ∧
     unwaited (5 : TileName) (scratchKey (5 : TileName) 64) st18 = true ∧
     st18.rd (4 : Reg) = BitVec.ofNat 64 (far5 64))
    ∧ (CounterHere (5 : TileName) (0 : BitVec 2) (64 : Word) 64 st17 ∧
     MemCanonical st17 ∧
     st17.metaBefore st17.serial (5 : TileName) 64 16 = false ∧
     unwatched (5 : TileName) (scratchKey (5 : TileName) 64) st17 = true ∧
     unwaited (5 : TileName) (scratchKey (5 : TileName) 64) st17 = true ∧
     (st17.slot (5 : TileName) (0 : BitVec 2)).counter = (64 : Word) ∧
     (st17.slot (5 : TileName) (0 : BitVec 2)).shared = false) := by repeat' first | decide +kernel | constructor

theorem witness_CounterAdds_1 :
    ((CounterThere (5 : TileName) (0 : BitVec 2) (6 : TileName) (BitVec.ofNat 64 (far6 163824)) 163824
       sCnt6) ∧
     sCnt6.rd (1 : Reg) = BitVec.ofNat 64 (far6 163824))
    ∧ ((CounterThere (5 : TileName) (0 : BitVec 2) (6 : TileName) (BitVec.ofNat 64 (far6 163824)) 163824
       sCnt6) ∧
     (sCnt6.slot (5 : TileName) (0 : BitVec 2)).counter = BitVec.ofNat 64 (far6 163824) ∧
     (sCnt6.slot (5 : TileName) (0 : BitVec 2)).shared = false) := by repeat' first | decide +kernel | constructor

theorem witness_CounterReads_0 :
    (CounterHere (5 : TileName) (0 : BitVec 2) (64 : Word) 64 st19 ∧
     st19.rd (1 : Reg) = (64 : Word)) := by repeat' first | decide +kernel | constructor

theorem witness_CounterReads_1 :
    (CounterHere (5 : TileName) (0 : BitVec 2) (64 : Word) 64 st19 ∧
     st19.rd (1 : Reg) = (64 : Word) ∧
     BitVec.toNat (st19.rd (2 : Reg)) ≤ BitVec.toNat (st19.mem.word (scratchKey (5 : TileName) 64)))
    ∧ (CounterHere (5 : TileName) (0 : BitVec 2) (64 : Word) 64 st20 ∧
     st20.rd (1 : Reg) = (64 : Word) ∧
     BitVec.toNat (st20.mem.word (scratchKey (5 : TileName) 64)) < BitVec.toNat (st20.rd (5 : Reg))) := by repeat' first | decide +kernel | constructor

theorem witness_CounterReads_2 :
    (CounterHere (5 : TileName) (0 : BitVec 2) (64 : Word) 64 st19 ∧
     st19.rd (1 : Reg) = (64 : Word) ∧
     (¬(BitVec.toNat (st19.erd (0 : EReg)) % 2 ^ 32 ≠ 0 ∧
         BitVec.toNat (st19.erd (0 : EReg)) % 2 ^ 32 <
           BitVec.toNat ((st19.bulk (TileName.ret (5 : TileName))).timer - st19.issueTime))) ∧
     BitVec.toNat (st19.rd (2 : Reg)) ≤ BitVec.toNat (st19.mem.word (scratchKey (5 : TileName) 64)))
    ∧ (CounterHere (5 : TileName) (0 : BitVec 2) (64 : Word) 64 st20 ∧
     st20.rd (1 : Reg) = (64 : Word) ∧
     (¬(BitVec.toNat (st20.erd (0 : EReg)) % 2 ^ 32 ≠ 0 ∧
         BitVec.toNat (st20.erd (0 : EReg)) % 2 ^ 32 <
           BitVec.toNat ((st20.bulk (TileName.ret (5 : TileName))).timer - st20.issueTime))) ∧
     BitVec.toNat (st20.mem.word (scratchKey (5 : TileName) 64)) < BitVec.toNat (st20.rd (5 : Reg)) ∧
     BitVec.toNat (st20.erd (0 : EReg)) % 2 ^ 32 ≠ 0)
    ∧ (CounterHere (5 : TileName) (0 : BitVec 2) (64 : Word) 64 st21 ∧
     st21.rd (1 : Reg) = (64 : Word) ∧
     BitVec.toNat (st21.mem.word (scratchKey (5 : TileName) 64)) < BitVec.toNat (st21.rd (5 : Reg)) ∧
     BitVec.toNat (st21.erd (0 : EReg)) % 2 ^ 32 = 0)
    ∧ (CounterHere (5 : TileName) (0 : BitVec 2) (64 : Word) 64 sLate ∧
     sLate.rd (1 : Reg) = (64 : Word) ∧
     (BitVec.toNat (sLate.erd (0 : EReg)) % 2 ^ 32 ≠ 0 ∧
       BitVec.toNat (sLate.erd (0 : EReg)) % 2 ^ 32 <
         BitVec.toNat ((sLate.bulk (TileName.ret (5 : TileName))).timer - sLate.issueTime))) := by repeat' first | decide +kernel | constructor

theorem witness_WatchesAndWakes_0 :
    (CounterHere (5 : TileName) (0 : BitVec 2) (st22.rd (1 : Reg)) 64 st22 ∧
     MemCanonical st22 ∧
     st22.metaBefore st22.serial (5 : TileName) 64 16 = false ∧
     unwatched (5 : TileName) (scratchKey (5 : TileName) 64) st22 = true ∧
     st22.ctx.wait = Wait.none ∧
     (1 : BitVec 2) ≠ (0 : BitVec 2)) := by repeat' first | decide +kernel | constructor

theorem witness_WatchesAndWakes_1 :
    (CounterHere (5 : TileName) (0 : BitVec 2) (st23.rd (1 : Reg)) 64 st23 ∧
     (5 : TileName) < (2 : TileName) ^ 19 ∧
     st23.tileExists (5 : TileName) = true ∧
     (BitVec.toNat (st23.erd (0 : EReg)) =
       2 ^ 60 + (5 : TileName) * 2 ^ 24 + BitVec.toNat (3 : QNum) * 2 ^ 16 +
         BitVec.toNat (119 : BitVec 16)) ∧
     BitVec.toNat (st23.mem.word (scratchKey (5 : TileName) 64)) < BitVec.toNat (st23.rd (5 : Reg)))
    ∧ (CounterHere (5 : TileName) (0 : BitVec 2) (st24.rd (1 : Reg)) 64 st24 ∧
     (5 : TileName) < (2 : TileName) ^ 19 ∧
     st24.tileExists (5 : TileName) = true ∧
     (BitVec.toNat (st24.erd (0 : EReg)) =
       2 ^ 60 + (5 : TileName) * 2 ^ 24 + BitVec.toNat (3 : QNum) * 2 ^ 16 +
         BitVec.toNat (119 : BitVec 16)) ∧
     BitVec.toNat (st24.rd (2 : Reg)) ≤ BitVec.toNat (st24.mem.word (scratchKey (5 : TileName) 64))) := by repeat' first | decide +kernel | constructor

theorem witness_ReductionResult_0 :
    ((reductionForm (Instr.redmin (2 : BitVec 2) (1 : Reg) (2 : Reg)) =
       some (RedOp.min, (2 : BitVec 2), (1 : Reg), (2 : Reg))) ∧
     st25.cur = Agent.slot (5 : TileName) (0 : BitVec 2) ∧
     ((68 % if RedOp.min = RedOp.addf ∨ (2 : BitVec 2) ≠ (0 : BitVec 2) then 4 else 8) = 0) ∧
     OwnAt (5 : TileName) (st25.rd (1 : Reg)) 68 st25 ∧
     ((68 + if RedOp.min = RedOp.addf ∨ (2 : BitVec 2) ≠ (0 : BitVec 2) then 4 else 8) ≤
       163840) ∧
     (WriteFree (5 : TileName) 68
       (if RedOp.min = RedOp.addf ∨ (2 : BitVec 2) ≠ (0 : BitVec 2) then 4 else 8) st25) ∧
     MemCanonical st25)
    ∧ ((reductionForm (Instr.redadd (0 : BitVec 2) (1 : Reg) (2 : Reg)) =
       some (RedOp.add, (0 : BitVec 2), (1 : Reg), (2 : Reg))) ∧
     st26.cur = Agent.slot (5 : TileName) (0 : BitVec 2) ∧
     ((64 % if RedOp.add = RedOp.addf ∨ (0 : BitVec 2) ≠ (0 : BitVec 2) then 4 else 8) = 0) ∧
     OwnAt (5 : TileName) (st26.rd (1 : Reg)) 64 st26 ∧
     ((64 + if RedOp.add = RedOp.addf ∨ (0 : BitVec 2) ≠ (0 : BitVec 2) then 4 else 8) ≤
       163840) ∧
     (WriteFree (5 : TileName) 64
       (if RedOp.add = RedOp.addf ∨ (0 : BitVec 2) ≠ (0 : BitVec 2) then 4 else 8) st26) ∧
     MemCanonical st26) := by repeat' first | decide +kernel | constructor

theorem witness_ReductionResult_1 :
    ((reductionForm (Instr.redmax (1 : BitVec 2) (1 : Reg) (2 : Reg)) =
       some (RedOp.max, (1 : BitVec 2), (1 : Reg), (2 : Reg))) ∧
     st284.cur = Agent.slot (5 : TileName) (0 : BitVec 2) ∧
     ((68 % if RedOp.max = RedOp.addf ∨ (1 : BitVec 2) ≠ (0 : BitVec 2) then 4 else 8) = 0) ∧
     (Elsewhere (5 : TileName) (6 : TileName) (st284.rd (1 : Reg)) 68
       (if RedOp.max = RedOp.addf ∨ (1 : BitVec 2) ≠ (0 : BitVec 2) then 4 else 8) st284) ∧
     (MayWrite (5 : TileName) (6 : TileName) (st284.rd (1 : Reg)) 68
       (if RedOp.max = RedOp.addf ∨ (1 : BitVec 2) ≠ (0 : BitVec 2) then 4 else 8) st284))
    ∧ (reductionForm (Instr.redaddf (1 : Reg) (2 : Reg)) = some (RedOp.addf, (0 : BitVec 2), (1 : Reg), (2 : Reg)) ∧
     st285.cur = Agent.slot (5 : TileName) (0 : BitVec 2) ∧
     ((163836 % if RedOp.addf = RedOp.addf ∨ (0 : BitVec 2) ≠ (0 : BitVec 2) then 4 else 8) =
       0) ∧
     (Elsewhere (5 : TileName) (6 : TileName) (st285.rd (1 : Reg)) 163836
       (if RedOp.addf = RedOp.addf ∨ (0 : BitVec 2) ≠ (0 : BitVec 2) then 4 else 8) st285) ∧
     (MayWrite (5 : TileName) (6 : TileName) (st285.rd (1 : Reg)) 163836
       (if RedOp.addf = RedOp.addf ∨ (0 : BitVec 2) ≠ (0 : BitVec 2) then 4 else 8) st285)) := by repeat' first | decide +kernel | constructor

theorem witness_FencesAndWires_0 :
    (st27.cur = Agent.slot (5 : TileName) (0 : BitVec 2) ∧
     st27.acquired = true)
    ∧ (st27.cur = Agent.slot (5 : TileName) (0 : BitVec 2) ∧
     (2 : BitVec 2) ≠ (0 : BitVec 2) ∧
     (st27.tile (5 : TileName)).outst = (0 : BitVec 16) ∧
     (st27.tile (5 : TileName)).fails = (0 : BitVec 16) ∧
     st27.released = true)
    ∧ (st27.cur = Agent.slot (5 : TileName) (0 : BitVec 2) ∧
     st27.released = true ∧
     (bit (st27.tile (5 : TileName)).rcMask 0 && decide ((2 : BitVec 2) ≠ (1 : BitVec 2))) = false ∧
     (bit (st27.tile (5 : TileName)).rcMask 1 && decide ((2 : BitVec 2) ≠ (0 : BitVec 2))) = false)
    ∧ (st28.cur = Agent.slot (5 : TileName) (0 : BitVec 2) ∧
     st28.released = true ∧
     ((bit (st28.tile (5 : TileName)).rcMask 0 && decide ((2 : BitVec 2) ≠ (1 : BitVec 2))) = true ∨
       (bit (st28.tile (5 : TileName)).rcMask 1 && decide ((2 : BitVec 2) ≠ (0 : BitVec 2))) = true))
    ∧ (st29.cur = Agent.slot (5 : TileName) (0 : BitVec 2) ∧
     st29.acquired = false)
    ∧ (st29.cur = Agent.slot (5 : TileName) (0 : BitVec 2) ∧
     (1 : BitVec 2) ≠ (0 : BitVec 2) ∧
     (st29.tile (5 : TileName)).outst = (0 : BitVec 16) ∧
     (st29.tile (5 : TileName)).fails = (0 : BitVec 16) ∧
     st29.released = false) := by repeat' first | decide +kernel | constructor

theorem witness_FencesAndWires_1 :
    (TrapReady (5 : TileName) (0 : BitVec 2) st30 ∧
     IsRelease (5 : TileName) (0 : BitVec 2) st30 (Instr.fence (2 : BitVec 2) (4 : BitVec 3)) ∧
     (st30.tile (5 : TileName)).outst = (0 : BitVec 16) ∧
     (st30.tile (5 : TileName)).fails ≠ (0 : BitVec 16))
    ∧ (TrapReady (5 : TileName) (0 : BitVec 2) st259 ∧
     IsRelease (5 : TileName) (0 : BitVec 2) st259 (Instr.fence (1 : BitVec 2) (3 : BitVec 3)) ∧
     (st259.tile (5 : TileName)).outst ≠ (0 : BitVec 16)) := by
  refine ⟨⟨?_, .fence _ _ (by decide +kernel), ?_⟩, ⟨?_, .fence _ _ (by decide +kernel), ?_⟩⟩ <;> repeat' first | decide +kernel | constructor

theorem witness_SendMessage :
    (st31.cur = Agent.slot (5 : TileName) (0 : BitVec 2) ∧
     Released (5 : TileName) st31 ∧
     (st31.bulk (TileName.ret (5 : TileName))).gate ≠ (2 : BitVec 2) ∧
     (MessageOk (5 : TileName) 163584 (5 : TileName) (st31.rd (1 : Reg)) (st31.rd (2 : Reg)) (st31.rd (3 : Reg))
       st31) ∧
     (st31.rd (3 : Reg) ≠ (0 : Word) → ReadFree (5 : TileName) 163584 (BitVec.toNat (st31.rd (3 : Reg))) st31)) := by
  refine ⟨?_, ?_, ?_, ?_, fun _ => ?_⟩ <;> repeat' first | decide +kernel | constructor

theorem witness_Drafts_0 :
    (st32.cur = Agent.slot (5 : TileName) (0 : BitVec 2) ∧
     Released (5 : TileName) st32 ∧
     (MessageOk (5 : TileName) 163584 (5 : TileName) (st32.rd (1 : Reg)) (st32.rd (2 : Reg)) (st32.rd (3 : Reg))
       st32) ∧
     (st32.rd (3 : Reg) ≠ (0 : Word) → ReadFree (5 : TileName) 163584 (BitVec.toNat (st32.rd (3 : Reg))) st32) ∧
     1 < 16 ∧
     (st32.tile (5 : TileName)).drafts.toList[1]? = some none ∧
     (∀ j < 1, (st32.tile (5 : TileName)).drafts.toList[j]? ≠ some none))
    ∧ (st32.cur = Agent.slot (5 : TileName) (0 : BitVec 2))
    ∧ (st33.cur = Agent.slot (5 : TileName) (0 : BitVec 2) ∧
     Released (5 : TileName) st33 ∧
     (MessageOk (5 : TileName) 163584 (5 : TileName) (st33.rd (1 : Reg)) (st33.rd (2 : Reg)) (st33.rd (3 : Reg))
       st33) ∧
     (st33.rd (3 : Reg) ≠ (0 : Word) → ReadFree (5 : TileName) 163584 (BitVec.toNat (st33.rd (3 : Reg))) st33) ∧
     (((st33.tile (5 : TileName)).drafts.toList.all fun x => x.isSome) = true)) := by
  refine ⟨⟨?_, ?_, ?_, fun _ => ?_, ?_⟩, ?_, ⟨?_, ?_, ?_, fun _ => ?_, ?_⟩⟩ <;> repeat' first | decide +kernel | constructor

theorem witness_Drafts_1 :
    (st32.cur = Agent.slot (5 : TileName) (0 : BitVec 2) ∧
     (st32.tile (5 : TileName)).outst = (0 : BitVec 16) ∧
     (st32.tile (5 : TileName)).fails = (0 : BitVec 16) ∧
     (st32.tile (5 : TileName)).draftsOf (0 : BitVec 2) ≠ [] ∧
     (st32.bulk (TileName.ret (5 : TileName))).gate ≠ (2 : BitVec 2))
    ∧ (st34.cur = Agent.slot (5 : TileName) (0 : BitVec 2) ∧
     (st34.tile (5 : TileName)).outst = (0 : BitVec 16) ∧
     (st34.tile (5 : TileName)).fails = (0 : BitVec 16) ∧
     (st34.tile (5 : TileName)).draftsOf (0 : BitVec 2) = []) := by repeat' first | decide +kernel | constructor

theorem witness_ForwardingLanes_0 :
    (st35.cur = Agent.slot (5 : TileName) (0 : BitVec 2) ∧
     neighbour (5 : TileName) (1 : BitVec 2) = some (6 : TileName) ∧
     st35.tileExists (6 : TileName) = true ∧
     (st35.tile (5 : TileName)).outst = (0 : BitVec 16) ∧
     (st35.tile (5 : TileName)).fails = (0 : BitVec 16) ∧
     (st35.bulk (TileName.ret (5 : TileName))).gate ≠ (2 : BitVec 2) ∧
     (((st35.tile (6 : TileName)).box ((1 : BitVec 2) + (2 : BitVec 2))).length +
         List.countP
           (fun l =>
             decide (l.2.dst = (6 : TileName)) &&
               decide (l.2.dir + (2 : BitVec 2) = (1 : BitVec 2) + (2 : BitVec 2)))
           st35.lanes <
       4))
    ∧ (st36.cur = Agent.slot (5 : TileName) (0 : BitVec 2) ∧
     neighbour (5 : TileName) (1 : BitVec 2) = some (6 : TileName) ∧
     st36.tileExists (6 : TileName) = true ∧
     (st36.tile (5 : TileName)).outst = (0 : BitVec 16) ∧
     (st36.tile (5 : TileName)).fails = (0 : BitVec 16) ∧
     (st36.bulk (TileName.ret (5 : TileName))).gate ≠ (2 : BitVec 2) ∧
     (((st36.tile (6 : TileName)).box ((1 : BitVec 2) + (2 : BitVec 2))).length +
         List.countP
           (fun l =>
             decide (l.2.dst = (6 : TileName)) &&
               decide (l.2.dir + (2 : BitVec 2) = (1 : BitVec 2) + (2 : BitVec 2)))
           st36.lanes <
       4)) := by repeat' first | decide +kernel | constructor

theorem witness_ForwardingLanes_1 :
    (st37.cur = Agent.slot (7 : TileName) (0 : BitVec 2) ∧
     neighbour (7 : TileName) (1 : BitVec 2) = some (20 : TileName) ∧
     st37.tileExists (20 : TileName) = false ∧
     TrapReady (7 : TileName) (0 : BitVec 2) st37) := by repeat' first | decide +kernel | constructor

theorem witness_ForwardingLanes_2 :
    (st35.cur = Agent.slot (5 : TileName) (0 : BitVec 2) ∧
     neighbour (5 : TileName) (1 : BitVec 2) = some (6 : TileName) ∧
     st35.tileExists (6 : TileName) = true ∧
     ((st35.tile (5 : TileName)).box (1 : BitVec 2) = [] ∨
       (st35.tile (5 : TileName)).scanPops (1 : BitVec 2) st35.popNo = true ∨
         (st35.tile (5 : TileName)).waitPops (1 : BitVec 2) st35.popNo = true))
    ∧ (st40.cur = Agent.slot (5 : TileName) (0 : BitVec 2) ∧
     neighbour (5 : TileName) (1 : BitVec 2) = some (6 : TileName) ∧
     st40.tileExists (6 : TileName) = true ∧
     (st40.tile (5 : TileName)).box (1 : BitVec 2) = [(8 : Word), (9 : Word)] ∧
     (st40.tile (5 : TileName)).scanPops (1 : BitVec 2) st40.popNo = false ∧
     (st40.tile (5 : TileName)).waitPops (1 : BitVec 2) st40.popNo = false) := by repeat' first | decide +kernel | constructor

theorem witness_WorkList_0 :
    (st38.cur = Agent.slot (5 : TileName) (0 : BitVec 2) ∧
     OwnAt (5 : TileName) (st38.rd (2 : Reg)) 64 st38 ∧
     64 % 32 = 0 ∧
     64 + 32 ≤ 163840 ∧
     ReadFree (5 : TileName) 64 32 st38 ∧
     (st38.tile (5 : TileName)).lvl.size ≠ 0 ∧
     (Behind (5 : TileName)
       ((st38.tile (5 : TileName)).lvl.base +
         32 *
           (((st38.tile (5 : TileName)).lvl.head + (st38.tile (5 : TileName)).lvl.depth) %
             (st38.tile (5 : TileName)).lvl.size))
       32 st38) ∧
     (st38.tile (5 : TileName)).listFull = false ∧
     MemCanonical st38) := by repeat' first | decide +kernel | constructor

theorem witness_WorkList_1 :
    (st38.cur = Agent.slot (5 : TileName) (0 : BitVec 2) ∧
     (st38.tile (5 : TileName)).lvl.size ≠ 0 ∧
     (st38.tile (5 : TileName)).lvl.depth ≠ 0) := by decide +kernel

theorem witness_WorkList_2 :
    (st39.cur = Agent.slot (5 : TileName) (0 : BitVec 2) ∧
     ((st39.tile (5 : TileName)).lvl.size = 0 ∨ (st39.tile (5 : TileName)).lvl.depth = 0)) := by decide +kernel

theorem witness_ActivationEnds_0 :
    ((Instr.endI = Instr.endI ∨ Instr.endI = Instr.cEnd) ∧
     st41.cur = Agent.slot (5 : TileName) (0 : BitVec 2) ∧
     (st41.tile (5 : TileName)).outst = (0 : BitVec 16) ∧
     (st41.tile (5 : TileName)).fails = (0 : BitVec 16) ∧
     st41.shareClosed (5 : TileName) (0 : BitVec 2) = false) := by decide +kernel

theorem witness_ActivationEnds_1 :
    ((Instr.endI = Instr.endI ∨ Instr.endI = Instr.cEnd) ∧
     TrapReady (5 : TileName) (0 : BitVec 2) st66 ∧
     (st66.slot (5 : TileName) (0 : BitVec 2)).shared = false ∧
     (5 : TileName) < (2 : TileName) ^ 19 ∧
     st66.tileExists (5 : TileName) = true ∧
     8388608 ≤ 8388608 ∧
     8388608 + 16 ≤ 16777216 ∧
     (BitVec.toNat (st66.slot (5 : TileName) (0 : BitVec 2)).counter =
       2 ^ 60 + (5 : TileName) * 2 ^ 24 + 8388608)) := by repeat' first | decide +kernel | constructor

theorem witness_ActivationEnds_2 :
    (st42.cur = Agent.slot (5 : TileName) (0 : BitVec 2) ∧
     (st42.slot (5 : TileName) (0 : BitVec 2)).shared = true ∧
     (st42.tile (5 : TileName)).outst = (0 : BitVec 16) ∧
     (st42.tile (5 : TileName)).fails = (0 : BitVec 16))
    ∧ (st43.cur = Agent.slot (5 : TileName) (0 : BitVec 2) ∧
     (st43.bulk (TileName.ret (5 : TileName))).gate ≠ (2 : BitVec 2) ∧
     (((st43.tile (5 : TileName)).groups ++ st43.joining (5 : TileName)).contains
           (BitVec.ofNat 8 (BitVec.toNat (st43.rd (1 : Reg)))) =
         true ∨
       ((st43.tile (5 : TileName)).groups ++ st43.joining (5 : TileName)).length < 16))
    ∧ (st43.cur = Agent.slot (5 : TileName) (0 : BitVec 2) ∧
     (st43.bulk (TileName.ret (5 : TileName))).gate ≠ (2 : BitVec 2))
    ∧ (st44.cur = Agent.slot (5 : TileName) (0 : BitVec 2) ∧
     TrapReady (5 : TileName) (0 : BitVec 2) st44 ∧
     (((st44.tile (5 : TileName)).groups ++ st44.joining (5 : TileName)).contains
         (BitVec.ofNat 8 (BitVec.toNat (st44.rd (1 : Reg)))) =
       false) ∧
     16 ≤ ((st44.tile (5 : TileName)).groups ++ st44.joining (5 : TileName)).length) := by repeat' first | decide +kernel | constructor

theorem witness_QueueReads_0 :
    (QueueReady (5 : TileName) (0 : BitVec 2) (3 : QNum) que1 1 st45 ∧
     BitVec.toNat (56 : BitVec 12) % 8 = 0 ∧
     BitVec.toNat (56 : BitVec 12) < 2 ^ 11 ∧
     BitVec.toNat (56 : BitVec 12) + 8 ≤ 64 * 2 ^ que1.esize.toNat ∧
     (OwnFree (5 : TileName)
       (que1.base.toNat + 64 * 2 ^ que1.esize.toNat * 1 + BitVec.toNat (56 : BitVec 12)) 8 st45) ∧
     st45.loadsFull = false)
    ∧ (QueueReady (5 : TileName) (0 : BitVec 2) (3 : QNum) que1 1 st45)
    ∧ (QueueReady (5 : TileName) (0 : BitVec 2) (3 : QNum) que1 1 st45 ∧
     (Instr.qadv (3 : QNum) = Instr.qadv (3 : QNum) ∨ Instr.qadv (3 : QNum) = Instr.cQadv (3 : QNum))) := by repeat' first | decide +kernel | constructor

theorem witness_QueueReads_1 :
    (TrapReady (5 : TileName) (0 : BitVec 2) st46 ∧
     ((st46.tile (5 : TileName)).queue (3 : QNum)).valid = false ∧
     ((∃ d off, Instr.arm (3 : QNum) (1 : Reg) (2 : Reg) = Instr.ldq d (3 : QNum) off) ∨
       (∃ d, Instr.arm (3 : QNum) (1 : Reg) (2 : Reg) = Instr.qwait d (3 : QNum)) ∨
         Instr.arm (3 : QNum) (1 : Reg) (2 : Reg) = Instr.qadv (3 : QNum) ∨
           Instr.arm (3 : QNum) (1 : Reg) (2 : Reg) = Instr.cQadv (3 : QNum) ∨
             (∃ a, Instr.arm (3 : QNum) (1 : Reg) (2 : Reg) = Instr.qfree (3 : QNum) a) ∨
               (∃ a b, Instr.arm (3 : QNum) (1 : Reg) (2 : Reg) = Instr.qpush (3 : QNum) a b) ∨
                 (∃ d, Instr.arm (3 : QNum) (1 : Reg) (2 : Reg) = Instr.qstat d (3 : QNum)) ∨
                   (∃ a b, Instr.arm (3 : QNum) (1 : Reg) (2 : Reg) = Instr.arm (3 : QNum) a b) ∨
                     ∃ a, Instr.arm (3 : QNum) (1 : Reg) (2 : Reg) = Instr.disarm (3 : QNum) a))
    ∧ (st47.cur = Agent.slot (5 : TileName) (0 : BitVec 2) ∧
     ((st47.tile (5 : TileName)).queue (3 : QNum)).valid = true ∧
     ((st47.tile (5 : TileName)).queue (3 : QNum)).readEntry = none ∧
     ((∃ d, Instr.ldq (1 : Reg) (3 : QNum) (0 : BitVec 12) = Instr.ldq d (3 : QNum) (0 : BitVec 12)) ∨
       (∃ d, Instr.ldq (1 : Reg) (3 : QNum) (0 : BitVec 12) = Instr.qwait d (3 : QNum)) ∨
         Instr.ldq (1 : Reg) (3 : QNum) (0 : BitVec 12) = Instr.qadv (3 : QNum) ∨
           Instr.ldq (1 : Reg) (3 : QNum) (0 : BitVec 12) = Instr.cQadv (3 : QNum))) := by
  refine ⟨⟨?_, ?_, .inr (.inr (.inr (.inr (.inr (.inr (.inr (.inl ⟨_, _, rfl⟩)))))))⟩, ⟨?_, ?_, ?_, .inl ⟨_, rfl⟩⟩⟩ <;> repeat' first | decide +kernel | constructor

theorem witness_QueueWrites_0 :
    (sQw.cur = Agent.slot (5 : TileName) (0 : BitVec 2) ∧
     ((sQw.tile (5 : TileName)).queue (3 : QNum)).valid = true ∧
     (∃ pre post,
       ((sQw.tile (5 : TileName)).queue (3 : QNum)).inUse = pre ++ 2 :: post ∧
         ∀ j ∈ pre,
           ((sQw.tile (5 : TileName)).queue (3 : QNum)).base.toNat +
               64 * 2 ^ ((sQw.tile (5 : TileName)).queue (3 : QNum)).esize.toNat * j ≠
             BitVec.toNat (sQw.rd (1 : Reg)) % 2 ^ 18) ∧
     (((sQw.tile (5 : TileName)).queue (3 : QNum)).base.toNat +
         64 * 2 ^ ((sQw.tile (5 : TileName)).queue (3 : QNum)).esize.toNat * 2 =
       BitVec.toNat (sQw.rd (1 : Reg)) % 2 ^ 18) ∧
     (((sQw.tile (5 : TileName)).queue (3 : QNum)).entry 2).held = true ∧
     (((sQw.tile (5 : TileName)).queue (3 : QNum)).entry 2).holder = (0 : BitVec 2)) := by
  refine ⟨?_, ?_, ⟨[1], [], by decide +kernel, by decide +kernel⟩, ?_⟩ <;> decide +kernel

theorem witness_QueueWrites_1 :
    (sQw.cur = Agent.slot (5 : TileName) (0 : BitVec 2) ∧
     ((sQw.tile (5 : TileName)).queue (3 : QNum)).valid = true ∧
     ((sQw.tile (5 : TileName)).queue (3 : QNum)).free ≠ 0 ∧
     sQw.released = true ∧
     (Behind (5 : TileName)
       (((sQw.tile (5 : TileName)).queue (3 : QNum)).base.toNat +
         64 * 2 ^ ((sQw.tile (5 : TileName)).queue (3 : QNum)).esize.toNat *
           ((sQw.tile (5 : TileName)).queue (3 : QNum)).write.toNat)
       (64 * 2 ^ ((sQw.tile (5 : TileName)).queue (3 : QNum)).esize.toNat) sQw) ∧
     BitVec.toNat (sQw.rd (2 : Reg)) % 2 ^ 9 ≤ 256 ∧
     (BitVec.toNat (sQw.rd (2 : Reg)) % 2 ^ 9 ≤
       64 * 2 ^ ((sQw.tile (5 : TileName)).queue (3 : QNum)).esize.toNat) ∧
     (BitVec.toNat (sQw.rd (2 : Reg)) % 2 ^ 9 ≠ 0 →
       163832 % 8 = 0 ∧
         163832 + BitVec.toNat (sQw.rd (2 : Reg)) % 2 ^ 9 ≤ 163840 ∧
           OwnAt (5 : TileName) (sQw.rd (3 : Reg)) 163832 sQw ∧
             ReadFree (5 : TileName) 163832 (BitVec.toNat (sQw.rd (2 : Reg)) % 2 ^ 9) sQw) ∧
     MemCanonical sQw) := by
  refine ⟨?_, ?_, ?_, ?_, ?_, ?_, ?_, fun _ => ?_, ?_⟩ <;> repeat' first | decide +kernel | constructor

theorem witness_QueueWrites_2 :
    (sQw.cur = Agent.slot (5 : TileName) (0 : BitVec 2) ∧
     ((sQw.tile (5 : TileName)).queue (3 : QNum)).valid = true) := by decide +kernel

theorem witness_QueueWrites_3 :
    (sQw.cur = Agent.slot (5 : TileName) (0 : BitVec 2) ∧
     ((sQw.tile (5 : TileName)).queue (3 : QNum)).valid = true ∧
     BitVec.toNat (sQw.rd (5 : Reg)) % 2 = 0 ∧
     BitVec.toNat (sQw.rd (5 : Reg)) < 163840 ∧
     BitVec.toNat (sQw.rd (6 : Reg)) % 16 = 0 ∧
     sQw.loc (sQw.rd (6 : Reg)) 16 ≠ Loc.bad ∧
     ((sQw.tile (5 : TileName)).bindingOf (3 : QNum) (BitVec.ofNat 16 (BitVec.toNat (sQw.erd (0 : EReg)))) =
         some 0 ∨
       (sQw.tile (5 : TileName)).bindingOf (3 : QNum) (BitVec.ofNat 16 (BitVec.toNat (sQw.erd (0 : EReg)))) = none ∧
         (sQw.tile (5 : TileName)).freeBinding = some 0)) := by decide +kernel

theorem witness_QueueWrites_4 :
    (sQw.cur = Agent.slot (5 : TileName) (0 : BitVec 2) ∧
     ((sQw.tile (5 : TileName)).queue (3 : QNum)).valid = true ∧
     (sQw.tile (5 : TileName)).bindingOf (3 : QNum) (BitVec.ofNat 16 (BitVec.toNat (sQw.rd (1 : Reg)))) = none)
    ∧ (st67.cur = Agent.slot (5 : TileName) (0 : BitVec 2) ∧
     ((st67.tile (5 : TileName)).queue (3 : QNum)).valid = true ∧
     ((st67.tile (5 : TileName)).bindingOf (3 : QNum) (BitVec.ofNat 16 (BitVec.toNat (st67.rd (1 : Reg)))) =
       some 4)) := by repeat' first | decide +kernel | constructor

theorem witness_SoftwareTraps_0 :
    (TrapReady (5 : TileName) (0 : BitVec 2) sT) := by repeat' first | decide +kernel | constructor

theorem witness_SoftwareTraps_1 :
    (st48.cur = Agent.slot (5 : TileName) (0 : BitVec 2) ∧
     (st48.slot (5 : TileName) (0 : BitVec 2)).state = SlotState.ready ∧
     bit (st48.tile (5 : TileName)).trapctl 0 = true) := by decide +kernel

theorem witness_SyscallAndMigrate_0 :
    (sT.cur = Agent.slot (5 : TileName) (0 : BitVec 2) ∧
     (sT.tile (5 : TileName)).outst = (0 : BitVec 16) ∧
     (sT.tile (5 : TileName)).fails = (0 : BitVec 16) ∧
     (sT.bulk (TileName.ret (5 : TileName))).gate ≠ (2 : BitVec 2) ∧
     OwnAt (5 : TileName) (sT.rd (1 : Reg)) 64 sT ∧
     64 % 64 = 0 ∧
     64 + 64 ≤ 163840 ∧
     ReadFree (5 : TileName) 64 64 sT ∧
     BitVec.toNat (sT.erd (1 : EReg)) % 16 = 0 ∧
     sT.loc (sT.erd (1 : EReg)) 16 ≠ Loc.bad ∧
     (sT.tile (5 : TileName)).sysOut < 8)
    ∧ (sT.cur = Agent.slot (5 : TileName) (0 : BitVec 2) ∧
     (sT.tile (5 : TileName)).outst = (0 : BitVec 16) ∧
     (sT.tile (5 : TileName)).fails = (0 : BitVec 16) ∧
     (sT.bulk (TileName.ret (5 : TileName))).gate ≠ (2 : BitVec 2) ∧
     (sT.tile (5 : TileName)).draftsOf (0 : BitVec 2) = [] ∧
     sT.settled = true) := by repeat' first | decide +kernel | constructor

theorem witness_SyscallAndMigrate_1 :
    (TrapReady (5 : TileName) (0 : BitVec 2) sT ∧
     BitVec.toNat (sT.rd (2 : Reg)) % 64 = 0 ∧
     BitVec.toNat (sT.rd (2 : Reg)) < 2 ^ 60 ∧
     163840 < BitVec.toNat (sT.rd (2 : Reg)) + 64)
    ∧ (TrapReady (5 : TileName) (0 : BitVec 2) sT ∧
     BitVec.toNat (sT.rd (3 : Reg)) % 64 ≠ 0)
    ∧ (TrapReady (5 : TileName) (0 : BitVec 2) st49 ∧
     BitVec.toNat (st49.rd (1 : Reg)) % 64 = 0 ∧
     BitVec.toNat (st49.rd (1 : Reg)) + 64 ≤ 163840 ∧
     BitVec.toNat (st49.erd (1 : EReg)) % 16 ≠ 0)
    ∧ (TrapReady (5 : TileName) (0 : BitVec 2) st50 ∧
     BitVec.toNat (st50.rd (1 : Reg)) % 64 = 0 ∧
     BitVec.toNat (st50.rd (1 : Reg)) + 64 ≤ 163840 ∧
     BitVec.toNat (st50.erd (1 : EReg)) % 16 = 0 ∧
     4 * 2 ^ 60 ≤ BitVec.toNat (st50.erd (1 : EReg)) ∧
     BitVec.toNat (st50.erd (1 : EReg)) < 8 * 2 ^ 60)
    ∧ (TrapReady (5 : TileName) (0 : BitVec 2) st51 ∧
     (st51.tile (5 : TileName)).draftsOf (0 : BitVec 2) ≠ []) := by repeat' first | decide +kernel | constructor

theorem witness_TileRegisters_0 :
    (st52.cur = Agent.slot (5 : TileName) (0 : BitVec 2)) := by decide +kernel

theorem witness_TileRegisters_20 :
    (st52.cur = Agent.slot (5 : TileName) (0 : BitVec 2) ∧
     st52.barwWaits (5 : TileName) = false) := by decide +kernel

theorem witness_TileRegisters_22 :
    (st52.cur = Agent.slot (5 : TileName) (0 : BitVec 2) ∧
     (st52.tile (5 : TileName)).fab.state = (0 : BitVec 2) ∧
     ((st52.tile (5 : TileName)).fab.domain = (0 : BitVec 6) ∨
       (st52.tile (5 : TileName)).fab.domain = BitVec.ofNat 6 (BitVec.toNat (st52.rd (1 : Reg)) / 2 ^ 4)) ∧
     ((st52.domain
           (domainKey (5 : TileName) (BitVec.ofNat 6 (BitVec.toNat (st52.rd (1 : Reg)) / 2 ^ 4)))).run =
       none)) := by decide +kernel

theorem witness_TileRegisters_23 :
    (st52.cur = Agent.slot (5 : TileName) (0 : BitVec 2) ∧
     (¬(BitVec.toNat (st52.rd (1 : Reg)) / 2 ^ 32 % 2 ^ 4 = 1 ∨
         BitVec.toNat (st52.rd (1 : Reg)) / 2 ^ 32 % 2 ^ 4 = 2 ∨
           12 < BitVec.toNat (st52.rd (1 : Reg)) / 2 ^ 32 % 2 ^ 4 ∨
             (BitVec.toNat (st52.rd (1 : Reg)) / 2 ^ 32 % 2 ^ 4 ≠
                     field (st52.tile (5 : TileName)).lvl.ctl 32 4 ∨
                   BitVec.toNat (st52.rd (1 : Reg)) / 2 ^ 16 % 2 ^ 13 ≠
                     field (st52.tile (5 : TileName)).lvl.ctl 16 13) ∧
                 ((st52.tile (5 : TileName)).lvl.depth ≠ 0 ∨
                   (∃ j, ((st52.tile (5 : TileName)).slot j).taken ≠ none) ∨ st52.levelMoving (5 : TileName) = true) ∨
               BitVec.toNat (st52.rd (1 : Reg)) / 2 ^ 32 % 2 ^ 4 ≠ 0 ∧
                 163840 <
                   32 * (BitVec.toNat (st52.rd (1 : Reg)) / 2 ^ 16 % 2 ^ 13) +
                     32 * 2 ^ (BitVec.toNat (st52.rd (1 : Reg)) / 2 ^ 32 % 2 ^ 4))) ∧
     (¬(BitVec.toNat (st52.rd (1 : Reg)) / 2 ^ 32 % 2 ^ 4 ≠
           field (st52.tile (5 : TileName)).lvl.ctl 32 4 ∨
         BitVec.toNat (st52.rd (1 : Reg)) / 2 ^ 16 % 2 ^ 13 ≠
           field (st52.tile (5 : TileName)).lvl.ctl 16 13)))
    ∧ (st260.cur = Agent.slot (5 : TileName) (0 : BitVec 2) ∧
     (BitVec.toNat (st260.rd (1 : Reg)) / 2 ^ 32 % 2 ^ 4 = 1 ∨
       BitVec.toNat (st260.rd (1 : Reg)) / 2 ^ 32 % 2 ^ 4 = 2 ∨
         12 < BitVec.toNat (st260.rd (1 : Reg)) / 2 ^ 32 % 2 ^ 4 ∨
           (BitVec.toNat (st260.rd (1 : Reg)) / 2 ^ 32 % 2 ^ 4 ≠
                   field (st260.tile (5 : TileName)).lvl.ctl 32 4 ∨
                 BitVec.toNat (st260.rd (1 : Reg)) / 2 ^ 16 % 2 ^ 13 ≠
                   field (st260.tile (5 : TileName)).lvl.ctl 16 13) ∧
               ((st260.tile (5 : TileName)).lvl.depth ≠ 0 ∨
                 (∃ j, ((st260.tile (5 : TileName)).slot j).taken ≠ none) ∨ st260.levelMoving (5 : TileName) = true) ∨
             BitVec.toNat (st260.rd (1 : Reg)) / 2 ^ 32 % 2 ^ 4 ≠ 0 ∧
               163840 <
                 32 * (BitVec.toNat (st260.rd (1 : Reg)) / 2 ^ 16 % 2 ^ 13) +
                   32 * 2 ^ (BitVec.toNat (st260.rd (1 : Reg)) / 2 ^ 32 % 2 ^ 4)) ∧
     TrapReady (5 : TileName) (0 : BitVec 2) st260)
    ∧ (st262.cur = Agent.slot (5 : TileName) (0 : BitVec 2) ∧
     (¬(BitVec.toNat (st262.rd (1 : Reg)) / 2 ^ 32 % 2 ^ 4 = 1 ∨
         BitVec.toNat (st262.rd (1 : Reg)) / 2 ^ 32 % 2 ^ 4 = 2 ∨
           12 < BitVec.toNat (st262.rd (1 : Reg)) / 2 ^ 32 % 2 ^ 4 ∨
             (BitVec.toNat (st262.rd (1 : Reg)) / 2 ^ 32 % 2 ^ 4 ≠
                     field (st262.tile (5 : TileName)).lvl.ctl 32 4 ∨
                   BitVec.toNat (st262.rd (1 : Reg)) / 2 ^ 16 % 2 ^ 13 ≠
                     field (st262.tile (5 : TileName)).lvl.ctl 16 13) ∧
                 ((st262.tile (5 : TileName)).lvl.depth ≠ 0 ∨
                   (∃ j, ((st262.tile (5 : TileName)).slot j).taken ≠ none) ∨ st262.levelMoving (5 : TileName) = true) ∨
               BitVec.toNat (st262.rd (1 : Reg)) / 2 ^ 32 % 2 ^ 4 ≠ 0 ∧
                 163840 <
                   32 * (BitVec.toNat (st262.rd (1 : Reg)) / 2 ^ 16 % 2 ^ 13) +
                     32 * 2 ^ (BitVec.toNat (st262.rd (1 : Reg)) / 2 ^ 32 % 2 ^ 4))) ∧
     (BitVec.toNat (st262.rd (1 : Reg)) / 2 ^ 32 % 2 ^ 4 ≠
         field (st262.tile (5 : TileName)).lvl.ctl 32 4 ∨
       BitVec.toNat (st262.rd (1 : Reg)) / 2 ^ 16 % 2 ^ 13 ≠
         field (st262.tile (5 : TileName)).lvl.ctl 16 13)) := by repeat' first | decide +kernel | constructor

theorem witness_TileRegisters_24 :
    (st261.cur = Agent.slot (5 : TileName) (0 : BitVec 2) ∧
     (st261.tile (5 : TileName)).fab.state ≠ (0 : BitVec 2) ∧
     TrapReady (5 : TileName) (0 : BitVec 2) st261) := by repeat' first | decide +kernel | constructor

theorem witness_TileRegisters_25 :
    (st52.cur = Agent.slot (5 : TileName) (0 : BitVec 2) ∧
     TrapReady (5 : TileName) (0 : BitVec 2) st52 ∧
     ((272 : BitVec 12) ∈
       [BitVec.ofNat 12 256, (257 : BitVec 12), (258 : BitVec 12), (272 : BitVec 12)]))
    ∧ (st53.cur = Agent.slot (5 : TileName) (0 : BitVec 2) ∧
     TrapReady (5 : TileName) (0 : BitVec 2) st53 ∧
     ((33 : BitVec 12) ∈
       [BitVec.ofNat 12 0, (1 : BitVec 12), (2 : BitVec 12), (3 : BitVec 12),
         (4 : BitVec 12), (5 : BitVec 12), (16 : BitVec 12), (17 : BitVec 12),
         (18 : BitVec 12), (19 : BitVec 12), (33 : BitVec 12), (34 : BitVec 12),
         (65 : BitVec 12), (80 : BitVec 12)]))
    ∧ (st54.cur = Agent.slot (5 : TileName) (0 : BitVec 2) ∧
     TrapReady (5 : TileName) (0 : BitVec 2) st54 ∧
     ((4095 : BitVec 12) ∉
       [BitVec.ofNat 12 0, (1 : BitVec 12), (2 : BitVec 12), (3 : BitVec 12),
         (4 : BitVec 12), (5 : BitVec 12), (16 : BitVec 12), (17 : BitVec 12),
         (18 : BitVec 12), (19 : BitVec 12), (20 : BitVec 12), (32 : BitVec 12),
         (33 : BitVec 12), (34 : BitVec 12), (48 : BitVec 12), (49 : BitVec 12),
         (64 : BitVec 12), (65 : BitVec 12), (80 : BitVec 12), (256 : BitVec 12),
         (257 : BitVec 12), (258 : BitVec 12), (272 : BitVec 12)])) := by repeat' first | decide +kernel | constructor

theorem witness_ProctorRegisters_0 :
    (st55.cur = Agent.core (0 : BulkId) (2 : BitVec 3) ∧
     (st55.core (0 : BulkId) (2 : BitVec 3)).h = true) := by decide +kernel

theorem witness_ProctorRegisters_29 :
    (st55.cur = Agent.core (0 : BulkId) (2 : BitVec 3) ∧
     (st55.core (0 : BulkId) (2 : BitVec 3)).h = true ∧
     ((704 : BitVec 12) ∈
       [BitVec.ofNat 12 5, (22 : BitVec 12), (33 : BitVec 12), (704 : BitVec 12)])) := by decide +kernel

theorem witness_ProctorRegisters_30 :
    (st56.cur = Agent.core (0 : BulkId) (2 : BitVec 3) ∧
     (st56.core (0 : BulkId) (2 : BitVec 3)).h = true ∧
     ((258 : BitVec 12) ∈
       [BitVec.ofNat 12 0, (1 : BitVec 12), (2 : BitVec 12), (20 : BitVec 12),
         (32 : BitVec 12), (258 : BitVec 12)])) := by decide +kernel

theorem witness_ProctorPrivilege_0 :
    (st57.cur = Agent.core (0 : BulkId) (2 : BitVec 3) ∧
     (st57.core (0 : BulkId) (2 : BitVec 3)).h = false ∧
     (st57.core (0 : BulkId) (2 : BitVec 3)).home = none)
    ∧ (st57.cur = Agent.core (0 : BulkId) (2 : BitVec 3) ∧
     (st57.core (0 : BulkId) (2 : BitVec 3)).h = false ∧
     (st57.core (0 : BulkId) (2 : BitVec 3)).home = none ∧
     ((576 : BitVec 12) ∈
       [BitVec.ofNat 12 4, (19 : BitVec 12), (20 : BitVec 12), (21 : BitVec 12),
         (256 : BitVec 12), (257 : BitVec 12), (258 : BitVec 12), (512 : BitVec 12),
         (513 : BitVec 12), (514 : BitVec 12), (576 : BitVec 12)]))
    ∧ (st58.cur = Agent.core (0 : BulkId) (2 : BitVec 3) ∧
     (st58.core (0 : BulkId) (2 : BitVec 3)).h = false ∧
     (st58.core (0 : BulkId) (2 : BitVec 3)).home = none ∧
     ((27 : BitVec 12) ∈
       [BitVec.ofNat 12 3, (16 : BitVec 12), (17 : BitVec 12), (18 : BitVec 12),
         (24 : BitVec 12), (27 : BitVec 12)]))
    ∧ (st59.cur = Agent.core (0 : BulkId) (2 : BitVec 3) ∧
     (st59.core (0 : BulkId) (2 : BitVec 3)).h = false ∧
     (st59.core (0 : BulkId) (2 : BitVec 3)).home = none ∧
     ((32 : BitVec 12) ∈
       [BitVec.ofNat 12 0, (1 : BitVec 12), (2 : BitVec 12), (32 : BitVec 12)]))
    ∧ (st60.cur = Agent.core (0 : BulkId) (2 : BitVec 3) ∧
     (st60.core (0 : BulkId) (2 : BitVec 3)).h = false ∧
     (st60.core (0 : BulkId) (2 : BitVec 3)).home = none ∧
     (Instr.migrate ∈
       [Instr.sends false (1 : Reg) (2 : Reg) (3 : Reg), Instr.fwd (0 : BitVec 2) (1 : Reg),
         Instr.fwdw (0 : BitVec 2) (1 : Reg), Instr.llput (1 : Reg), Instr.llget (1 : Reg), Instr.trig, Instr.endI,
         Instr.cEnd, Instr.join (1 : Reg), Instr.leave (1 : Reg), Instr.migrate]))
    ∧ (st61.cur = Agent.core (0 : BulkId) (2 : BitVec 3) ∧
     (st61.core (0 : BulkId) (2 : BitVec 3)).h = false ∧
     (st61.core (0 : BulkId) (2 : BitVec 3)).home = none ∧
     (Instr.qstat (1 : Reg) (7 : QNum) ∈
       [Instr.ldq (1 : Reg) (7 : QNum) (0 : BitVec 12), Instr.qwait (1 : Reg) (7 : QNum), Instr.qadv (7 : QNum),
         Instr.cQadv (7 : QNum), Instr.qfree (7 : QNum) (1 : Reg), Instr.qpush (7 : QNum) (1 : Reg) (1 : Reg),
         Instr.qstat (1 : Reg) (7 : QNum), Instr.arm (7 : QNum) (1 : Reg) (1 : Reg), Instr.disarm (7 : QNum) (1 : Reg)])) := by repeat' first | decide +kernel | constructor

theorem witness_ProctorPrivilege_1 :
    (TrapReady (5 : TileName) (0 : BitVec 2) sT ∧
     (Instr.icinv (1 : Reg) ∈
       [Instr.eret, Instr.wfi, Instr.hvcall (5 : BitVec 12), Instr.atinv (1 : Reg), Instr.dcwb (1 : Reg),
         Instr.dcinv (1 : Reg), Instr.icinv (1 : Reg)])) := by repeat' first | decide +kernel | constructor

theorem witness_ProctorReturn_0 :
    (st62.cur = Agent.core (0 : BulkId) (2 : BitVec 3) ∧
     (st62.core (0 : BulkId) (2 : BitVec 3)).h = true)
    ∧ (st62.cur = Agent.core (0 : BulkId) (2 : BitVec 3) ∧
     (¬((st62.island (0 : BulkId)).tqint.getLsbD (BitVec.toNat (2 : BitVec 3)) = true ∧
         (st62.island (0 : BulkId)).tqhead ≠ (st62.island (0 : BulkId)).tqtail)))
    ∧ (st62.cur = Agent.core (0 : BulkId) (2 : BitVec 3) ∧
     ((st62.core (0 : BulkId) (2 : BitVec 3)).h = true ∨ (st62.core (0 : BulkId) (2 : BitVec 3)).home = none))
    ∧ (st63.cur = Agent.core (0 : BulkId) (2 : BitVec 3) ∧
     (st63.core (0 : BulkId) (2 : BitVec 3)).h = false)
    ∧ (st63.cur = Agent.core (0 : BulkId) (2 : BitVec 3) ∧
     (st63.core (0 : BulkId) (2 : BitVec 3)).h = false ∧
     (st63.core (0 : BulkId) (2 : BitVec 3)).home = none)
    ∧ (st64.cur = Agent.core (0 : BulkId) (2 : BitVec 3) ∧
     ((st64.island (0 : BulkId)).tqint.getLsbD (BitVec.toNat (2 : BitVec 3)) = true ∧
       (st64.island (0 : BulkId)).tqhead ≠ (st64.island (0 : BulkId)).tqtail)) := by repeat' first | decide +kernel | constructor

theorem witness_ProctorReturn_1 :
    (sAway.cur = Agent.core (0 : BulkId) (2 : BitVec 3) ∧
     (sAway.core (0 : BulkId) (2 : BitVec 3)).h = false ∧
     (sAway.core (0 : BulkId) (2 : BitVec 3)).home = some ((5 : TileName), (0 : BitVec 2), 7)) := by decide +kernel

theorem witness_ProctorCaches_0 :
    (st68.cur = Agent.core (0 : BulkId) (2 : BitVec 3) ∧
     st68.packets.find? st68.serial = none ∧
     st68.packets.find? (st68.serial + 1) = none ∧
     BitVec.getLsbD (st68.rd (3 : Reg)) 63 = true ∧
     st68.ownXlat (st68.rd (3 : Reg)) Right.r = none ∧
     st68.asked (st68.rd (3 : Reg)) Right.r = false)
    ∧ (st68.cur = Agent.core (0 : BulkId) (2 : BitVec 3) ∧
     st68.packets.find? st68.serial = none ∧
     st68.packets.find? (st68.serial + 1) = none ∧
     BitVec.getLsbD (st68.rd (3 : Reg)) 63 = true ∧
     (st68.ownXlat (st68.rd (3 : Reg))
         (if (st68.core (0 : BulkId) (2 : BitVec 3)).h = true then Right.r else Right.w) =
       none) ∧
     (st68.asked (st68.rd (3 : Reg))
         (if (st68.core (0 : BulkId) (2 : BitVec 3)).h = true then Right.r else Right.w) =
       false)) := by repeat' first | decide +kernel | constructor

theorem witness_ProctorCaches_1 :
    (st65.cur = Agent.core (0 : BulkId) (2 : BitVec 3) ∧
     (st65.core (0 : BulkId) (2 : BitVec 3)).h = true) := by decide +kernel

theorem witness_ProctorCaches_2 :
    (st272.cur = Agent.core (0 : BulkId) (2 : BitVec 3) ∧
     (BitVec.getLsbD (st272.rd (3 : Reg)) 63 = true ∧ st272.ownXlat (st272.rd (3 : Reg)) Right.r = some xlat1) ∧
     ((st272.core (0 : BulkId) (2 : BitVec 3)).dcache.find? (xlat1.pa / 64) =
       some (List.replicate 64 (7 : Byte), true)) ∧
     (List.replicate 64 (7 : Byte)).length = 64 ∧
     MemCanonical st272 ∧
     (((st272.island (0 : BulkId)).cache.find? (xlat1.pa / 64)).isSome = true ∨
       List.length (st272.island (0 : BulkId)).cache < islandLines)) := by decide +kernel

theorem witness_ProctorCaches_3 :
    (st272.cur = Agent.core (0 : BulkId) (2 : BitVec 3) ∧
     (BitVec.getLsbD (st272.rd (3 : Reg)) 63 = true ∧
       st272.ownXlat (st272.rd (3 : Reg))
           (if (st272.core (0 : BulkId) (2 : BitVec 3)).h = true then Right.r else Right.w) =
         some xlat1)) := by decide +kernel

theorem witness_ProctorCaches_4 :
    (sAway.cur = Agent.core (0 : BulkId) (2 : BitVec 3) ∧
     BitVec.getLsbD (sAway.rd (1 : Reg)) 63 = false ∧
     sAway.loc (sAway.rd (1 : Reg)) 1 ≠ Loc.bad) := by decide +kernel

theorem witness_ProctorCaches_5 :
    (sAway.cur = Agent.core (0 : BulkId) (2 : BitVec 3) ∧
     (sAway.core (0 : BulkId) (2 : BitVec 3)).h = false ∧
     (sAway.core (0 : BulkId) (2 : BitVec 3)).home = some ((5 : TileName), (0 : BitVec 2), 7) ∧
     BitVec.toNat (sAway.rd (1 : Reg)) < 163840) := by decide +kernel

theorem witness_VectorIssue_0 :
    (st69.cur = Agent.slot (5 : TileName) (0 : BitVec 2) ∧
     vecForm st69.rd (Instr.vadd (7 : Ty) (1 : VReg) (2 : VReg) (3 : VReg)) = some ((0 : Word), none) ∧
     (List.countP (fun c => !c.started) (st69.tile (5 : TileName)).vq < 8))
    ∧ (st70.cur = Agent.slot (5 : TileName) (0 : BitVec 2) ∧
     vecForm st70.rd (Instr.vmov (7 : Ty) (6 : VReg) (2 : VReg)) = some ((0 : Word), none) ∧
     (8 ≤ List.countP (fun c => !c.started) (st70.tile (5 : TileName)).vq)) := by repeat' first | decide +kernel | constructor

theorem witness_VectorIssue_1 :
    (st69.cur = Agent.slot (5 : TileName) (0 : BitVec 2) ∧
     (List.countP (fun c => !c.started) (st69.tile (5 : TileName)).vq < 8) ∧
     (st69.tile (5 : TileName)).vq = [])
    ∧ (st71.cur = Agent.slot (5 : TileName) (0 : BitVec 2) ∧
     (List.countP (fun c => !c.started) (st71.tile (5 : TileName)).vq < 8) ∧
     st71.acquiring = false ∧
     (OwnAt (5 : TileName) (st71.rd (1 : Reg) + BitVec.ofNat 64 (64 * BitVec.toNat (0 : BitVec 6))) 64
         st71 ∧
       64 % 64 = 0 ∧ 64 + 64 ≤ 163840))
    ∧ (st71.cur = Agent.slot (5 : TileName) (0 : BitVec 2) ∧
     (List.countP (fun c => !c.started) (st71.tile (5 : TileName)).vq < 8) ∧
     st71.acquiring = false ∧
     (OwnAt (5 : TileName) (st71.rd (1 : Reg) + BitVec.ofNat 64 (64 * BitVec.toNat (0 : BitVec 6))) 64
         st71 ∧
       64 % 64 = 0 ∧ 64 + 64 ≤ 163840) ∧
     st71.codeLocked (5 : TileName) 64 64 = false)
    ∧ (st71.cur = Agent.slot (5 : TileName) (0 : BitVec 2) ∧
     (List.countP (fun c => !c.started) (st71.tile (5 : TileName)).vq < 8) ∧
     st71.acquiring = false ∧
     (OwnAt (5 : TileName) (st71.rd (1 : Reg)) 64 st71 ∧
       64 % 64 = 0 ∧ 64 + 64 ≤ 163840) ∧
     st71.codeLocked (5 : TileName) 64 64 = false)
    ∧ (st72.cur = Agent.slot (5 : TileName) (0 : BitVec 2) ∧
     (List.countP (fun c => !c.started) (st72.tile (5 : TileName)).vq < 8) ∧
     QueueReady (5 : TileName) (0 : BitVec 2) (3 : QNum) que2 1 st72 ∧
     64 * BitVec.toNat (0 : BitVec 6) + 64 ≤ 64 * 2 ^ que2.esize.toNat ∧
     (OwnFree (5 : TileName)
       (que2.base.toNat + 64 * 2 ^ que2.esize.toNat * 1 + 64 * BitVec.toNat (0 : BitVec 6))
       64 st72))
    ∧ (st73.cur = Agent.slot (5 : TileName) (0 : BitVec 2) ∧
     (List.countP (fun c => !c.started) (st73.tile (5 : TileName)).vq < 8) ∧
     ((1 : BitVec 2) = (0 : BitVec 2) ∨ (1 : BitVec 2) = (2 : BitVec 2) →
       ∃ n, neighbour (5 : TileName) (1 : BitVec 2) = some n ∧ st73.tileExists n = true) ∧
     ((1 : BitVec 2) = (0 : BitVec 2) ∨ (1 : BitVec 2) = (1 : BitVec 2) →
       (∃ n, neighbour (5 : TileName) (2 : BitVec 2) = some n ∧ st73.tileExists n = true) ∧
         (st73.tile (5 : TileName)).vq = [] ∧
           (st73.tile (5 : TileName)).outst = (0 : BitVec 16) ∧
             (st73.tile (5 : TileName)).fails = (0 : BitVec 16) ∧
               (st73.bulk (TileName.ret (5 : TileName))).gate ≠ (2 : BitVec 2)))
    ∧ (st74.cur = Agent.slot (5 : TileName) (0 : BitVec 2) ∧
     (List.countP (fun c => !c.started) (st74.tile (5 : TileName)).vq < 8) ∧
     (st74.tile (5 : TileName)).vq ≠ []) := by repeat' first | decide +kernel | constructor

theorem witness_VectorLanes_0 :
    (OneCommand (5 : TileName) vc6 st263 ∧
     rowRule vc6.instr vc6.a = some rowrule1 ∧
     (∀ v ∈ rowrule1.reads,
       (fun v => st263.eccBad (scratchKey (5 : TileName) (8519680 + 64 * v)) 64 = false) (BitVec.toNat v))) := by
  refine ⟨?_, rfl, ?_⟩ <;> repeat' first | decide +kernel | constructor

theorem witness_VectorLanes_1 :
    (OneCommand (5 : TileName) vc8 st265 ∧
     vc8.instr = Instr.vcvt (0 : Ty) (1 : Ty) (0 : BitVec 2) false (1 : VReg) (2 : VReg) ∧
     (∀ n < max 1 (Ty.lanes (0 : Ty) / Ty.lanes (1 : Ty)),
       (fun v => st265.eccBad (scratchKey (5 : TileName) (8519680 + 64 * v)) 64 = false)
         (BitVec.toNat (2 : VReg) + n))) := by
  refine ⟨?_, rfl, ?_⟩ <;> repeat' first | decide +kernel | constructor

theorem witness_VectorLanes_2 :
    (OneCommand (5 : TileName) vc10 st286 ∧
     vc10.instr = Instr.vscan (2 : Ty) (6 : VReg) (2 : VReg) (3 : BitVec 2) ∧
     st286.eccBad (scratchKey (5 : TileName) (8519680 + 64 * BitVec.toNat (2 : VReg))) 64 = false ∧
     (st286.eccBad (scratchKey (5 : TileName) (8519680 + 64 * (BitVec.toNat (2 : VReg) + 1))) 64 =
       false)) := by
  refine ⟨?_, rfl, ?_⟩ <;> repeat' first | decide +kernel | constructor

theorem witness_VectorLanes_3 :
    (OneCommand (5 : TileName) vc7 st264 ∧
     (scalarRule vc7.instr =
       some
         ((sr (Instr.vredadd (0 : Ty) (4 : Reg) (2 : VReg))).1, (sr (Instr.vredadd (0 : Ty) (4 : Reg) (2 : VReg))).2.1,
           (sr (Instr.vredadd (0 : Ty) (4 : Reg) (2 : VReg))).2.2)) ∧
     (∀ v ∈ (sr (Instr.vredadd (0 : Ty) (4 : Reg) (2 : VReg))).2.1,
       (fun v => st264.eccBad (scratchKey (5 : TileName) (8519680 + 64 * v)) 64 = false) (BitVec.toNat v)) ∧
     (sr (Instr.vredadd (0 : Ty) (4 : Reg) (2 : VReg))).1 ≠ (0 : Reg) ∧
     (st264.slot (5 : TileName) vc7.slot).ctx.pend = [pending2] ∧
     pending2.id = vc7.id ∧
     pending2.reg = (sr (Instr.vredadd (0 : Ty) (4 : Reg) (2 : VReg))).1) := by
  refine ⟨?_, rfl, ?_⟩ <;> repeat' first | decide +kernel | constructor

theorem witness_VectorLanes_4 :
    (OneCommand (5 : TileName) vc9 st279 ∧
     ((∃ r,
         rowRule vc9.instr vc9.a = some r ∧
           r.reads = (rr (Instr.vfma (0 : Ty) (1 : VReg) (2 : VReg) (3 : VReg)) 9).reads) ∨
       ∃ a f,
         scalarRule vc9.instr = some (a, (rr (Instr.vfma (0 : Ty) (1 : VReg) (2 : VReg) (3 : VReg)) 9).reads, f)) ∧
     (List.find? (fun v => st279.eccBad (scratchKey (5 : TileName) (8519680 + 64 * BitVec.toNat v)) 64)
         (rr (Instr.vfma (0 : Ty) (1 : VReg) (2 : VReg) (3 : VReg)) 9).reads =
       some (1 : VReg)) ∧
     Quiet (5 : TileName) vc9.slot vc9.act st279) := by
  refine ⟨?_, .inl ⟨_, rfl, rfl⟩, ?_⟩ <;> repeat' first | decide +kernel | constructor

theorem witness_VectorCompletes_0 :
    ((st87.tile (5 : TileName)).vq = [vc3] ∧
     vc3.started = false ∧
     (∀ e ∈ ([] : List VCmd), e.started = false ∧ e.id ≠ vc3.id) ∧
     st87.unitHeld (5 : TileName) = false ∧
     (st87.tile (5 : TileName)).matrixHolds vc3 = false ∧
     (vc3.isMem = false ∨ ∃ v q o, vc3.instr = Instr.vldq v q o))
    ∧ ((st88.tile (5 : TileName)).vq = [vc4] ∧
     vc4.started = false ∧
     (∀ e ∈ ([] : List VCmd), e.started = false ∧ e.id ≠ vc4.id) ∧
     st88.unitHeld (5 : TileName) = false ∧
     (st88.tile (5 : TileName)).matrixHolds vc4 = false ∧
     ((st88.tile (5 : TileName)).vecAccess vc4 =
       some (Access.store 64 (indexed (toBytes 64 (129 + 255 * 256 + 2 ^ 511))))) ∧
     (st88.vecMustWait (5 : TileName) vc4
         (Access.store 64 (indexed (toBytes 64 (129 + 255 * 256 + 2 ^ 511)))) =
       false) ∧
     OwnAt (5 : TileName) vc4.a 163776 st88 ∧
     163776 + 64 ≤ 163840)
    ∧ ((st89.tile (5 : TileName)).vq = [vc5] ∧
     vc5.started = false ∧
     (∀ e ∈ ([] : List VCmd), e.started = false ∧ e.id ≠ vc5.id) ∧
     st89.unitHeld (5 : TileName) = false ∧
     (st89.tile (5 : TileName)).matrixHolds vc5 = false ∧
     (st89.tile (5 : TileName)).vecAccess vc5 = some (Access.load 64 false) ∧
     st89.vecMustWait (5 : TileName) vc5 (Access.load 64 false) = false ∧
     (∀ n ∈ rowsRead vc5.instr,
       (fun v => st89.eccBad (scratchKey (5 : TileName) (8519680 + 64 * v)) 64 = false) n) ∧
     BitVec.toNat vc5.a = 2 ^ 60 + 6 * 2 ^ 24 + 64 ∧
     6 < 2 ^ 19 ∧
     st89.tileExists 6 = true ∧
     6 ≠ (5 : TileName) ∧
     64 + 64 ≤ 163840) := by
  refine ⟨⟨?_, ?_, ?_, ?_, ?_, .inl (by decide +kernel)⟩, ?_, ?_⟩ <;> repeat' first | decide +kernel | constructor

theorem witness_VectorCompletes_1 :
    ((st75.unitHeld (5 : TileName) = true ∨ ∀ e ∈ (st75.tile (5 : TileName)).vq, e.started = true)) := by decide +kernel

theorem witness_VectorCompletes_2 :
    (OneCommand (5 : TileName) vc1 st75 ∧
     vc1.instr = Instr.vld (1 : VReg) (2 : Reg) (0 : BitVec 6) ∧
     vc1.data = none ∧
     vc1.sent = false ∧
     OwnAt (5 : TileName) vc1.a 64 st75 ∧
     64 + 64 ≤ 163840 ∧
     st75.eccBad (scratchKey (5 : TileName) 64) 64 = false) := by repeat' first | decide +kernel | constructor

theorem witness_VectorCompletes_3 :
    (OneCommand (5 : TileName) vc2 st76 ∧
     ((∃ a o, vc2.instr = Instr.vst (2 : VReg) a o) ∨ ∃ a m, vc2.instr = Instr.vstm (2 : VReg) a m) ∧
     vc2.sent = false ∧
     st76.eccBad (scratchKey (5 : TileName) (8519680 + 64 * BitVec.toNat (2 : VReg))) 64 = false ∧
     OwnAt (5 : TileName) vc2.a 163776 st76 ∧
     163776 % 64 = 0 ∧
     163776 + 64 ≤ 163840 ∧
     st76.eccBad (scratchKey (5 : TileName) 163776) 64 = false ∧
     MemCanonical st76) := by repeat' first | decide +kernel | constructor

theorem witness_VectorCompletes_4 :
    (OneCommand (5 : TileName) vc11 st287 ∧
     (vc11.instr =
       Instr.xscan (2 : Ty) (2 : VReg) (3 : BitVec 2) (1 : BitVec 2) (0 : BitVec 2) (3 : BitVec 2)) ∧
     vc11.sent = false ∧
     st287.eccBad (scratchKey (5 : TileName) (8519680 + 64 * BitVec.toNat (2 : VReg))) 64 = false ∧
     ((0 : BitVec 2) = (3 : BitVec 2) →
       (fun v => st287.eccBad (scratchKey (5 : TileName) (8519680 + 64 * v)) 64 = false)
         (BitVec.toNat (2 : VReg) + 1)) ∧
     scanTakes (st287.tile (5 : TileName)) vc11 (3 : BitVec 2) (3 : BitVec 2) = some (none, tile1) ∧
     (¬((3 : BitVec 2) = (0 : BitVec 2) ∨ (3 : BitVec 2) = (1 : BitVec 2))))
    ∧ (OneCommand (5 : TileName) vc12 st288 ∧
     (vc12.instr =
       Instr.xscan (2 : Ty) (2 : VReg) (3 : BitVec 2) (1 : BitVec 2) (1 : BitVec 2) (1 : BitVec 2)) ∧
     vc12.sent = false ∧
     st288.eccBad (scratchKey (5 : TileName) (8519680 + 64 * BitVec.toNat (2 : VReg))) 64 = false ∧
     ((1 : BitVec 2) = (3 : BitVec 2) →
       (fun v => st288.eccBad (scratchKey (5 : TileName) (8519680 + 64 * v)) 64 = false)
         (BitVec.toNat (2 : VReg) + 1)) ∧
     scanTakes (st288.tile (5 : TileName)) vc12 (3 : BitVec 2) (1 : BitVec 2) = some (none, tile2) ∧
     ((1 : BitVec 2) = (0 : BitVec 2) ∨ (1 : BitVec 2) = (1 : BitVec 2)) ∧
     neighbour (5 : TileName) (1 : BitVec 2) = some (6 : TileName) ∧
     (((st288.tile (6 : TileName)).box ((1 : BitVec 2) + (2 : BitVec 2))).length +
         List.countP
           (fun l =>
             decide (l.2.dst = (6 : TileName)) &&
               decide (l.2.dir + (2 : BitVec 2) = (1 : BitVec 2) + (2 : BitVec 2)))
           st288.lanes <
       4))
    ∧ (OneCommand (5 : TileName) vc13 st289 ∧
     (vc13.instr =
       Instr.xscan (2 : Ty) (2 : VReg) (3 : BitVec 2) (1 : BitVec 2) (1 : BitVec 2) (1 : BitVec 2)) ∧
     vc13.sent = false ∧
     st289.eccBad (scratchKey (5 : TileName) (8519680 + 64 * BitVec.toNat (2 : VReg))) 64 = false ∧
     ((1 : BitVec 2) = (3 : BitVec 2) →
       (fun v => st289.eccBad (scratchKey (5 : TileName) (8519680 + 64 * v)) 64 = false)
         (BitVec.toNat (2 : VReg) + 1)) ∧
     scanTakes (st289.tile (5 : TileName)) vc13 (3 : BitVec 2) (1 : BitVec 2) = some (none, tile3) ∧
     ((1 : BitVec 2) = (0 : BitVec 2) ∨ (1 : BitVec 2) = (1 : BitVec 2)) ∧
     neighbour (5 : TileName) (1 : BitVec 2) = some (6 : TileName) ∧
     (4 ≤
       ((st289.tile (6 : TileName)).box ((1 : BitVec 2) + (2 : BitVec 2))).length +
         List.countP
           (fun l =>
             decide (l.2.dst = (6 : TileName)) &&
               decide (l.2.dir + (2 : BitVec 2) = (1 : BitVec 2) + (2 : BitVec 2)))
           st289.lanes))
    ∧ (OneCommand (5 : TileName) vc14 st290 ∧
     (vc14.instr =
       Instr.xscan (2 : Ty) (2 : VReg) (3 : BitVec 2) (1 : BitVec 2) (0 : BitVec 2) (0 : BitVec 2)) ∧
     vc14.sent = false ∧
     st290.eccBad (scratchKey (5 : TileName) (8519680 + 64 * BitVec.toNat (2 : VReg))) 64 = false ∧
     ((0 : BitVec 2) = (3 : BitVec 2) →
       (fun v => st290.eccBad (scratchKey (5 : TileName) (8519680 + 64 * v)) 64 = false)
         (BitVec.toNat (2 : VReg) + 1)) ∧
     scanTakes (st290.tile (5 : TileName)) vc14 (3 : BitVec 2) (0 : BitVec 2) = none) := by repeat' first | decide +kernel | constructor

theorem witness_MatrixIssue_0 :
    (st77.cur = Agent.slot (5 : TileName) (0 : BitVec 2) ∧
     ((2 : BitVec 3) = (0 : BitVec 3) ∨ st77.isGang (5 : TileName) = true) ∧
     (st77.tile (5 : TileName)).mat.arrivals = [] ∧
     (st77.tile (5 : TileName)).mat.waiting = none ∧
     (st77.tile (5 : TileName)).mat.running = none) := by decide +kernel

theorem witness_MatrixIssue_1 :
    (st78.cur = Agent.slot (5 : TileName) (0 : BitVec 2) ∧
     (2 : BitVec 3) ≠ (0 : BitVec 3) ∧
     st78.isGang (5 : TileName) = false ∧
     TrapReady (5 : TileName) (0 : BitVec 2) st78) := by repeat' first | decide +kernel | constructor

theorem witness_MatrixIssue_2 :
    (st77.cur = Agent.slot (5 : TileName) (0 : BitVec 2)) := by decide +kernel

theorem witness_MatrixIssue_3 :
    (sBlk2.cur = Agent.slot (5 : TileName) (0 : BitVec 2) ∧
     (BitVec.toNat (sBlk2.rd (1 : Reg)) =
       2 * 2 ^ 60 +
           (TileName.ret (5 : TileName) * 4096 + TileName.blk (5 : TileName) * 16) * 2 ^ 24 +
         1047552) ∧
     TileName.ret (5 : TileName) < 80 ∧
     sBlk2.coresIn (TileName.ret (5 : TileName)) (TileName.blk (5 : TileName)) ≠ 0 ∧
     ((1047552 % if (3 : Ty) = (5 : Ty) then 4 else 32) = 0) ∧
     ((BitVec.toNat (sBlk2.rd (2 : Reg)) % 2 ^ 16 % if (3 : Ty) = (5 : Ty) then 4 else 32) = 0) ∧
     ((BitVec.toNat (sBlk2.rd (2 : Reg)) / 2 ^ 16 % 2 ^ 16 %
         if (3 : Ty) = (5 : Ty) then 4 else 32) =
       0) ∧
     ((1047552 + 15 * (BitVec.toNat (sBlk2.rd (2 : Reg)) % 2 ^ 16) +
         if (3 : Ty) = (5 : Ty) then 4 else 64) ≤
       1048576)) := by decide +kernel

theorem witness_MatrixIssue_4 :
    (st77.cur = Agent.slot (5 : TileName) (0 : BitVec 2) ∧
     (st77.tile (5 : TileName)).mat.scWaiting = none) := by decide +kernel

theorem witness_MatrixIssue_5 :
    (st77.cur = Agent.slot (5 : TileName) (0 : BitVec 2) ∧
     (st77.tile (5 : TileName)).mat.open = [] ∧
     (st77.tile (5 : TileName)).vq = []) := by decide +kernel

theorem witness_MatrixIssue_6 :
    (st79.cur = Agent.slot (5 : TileName) (0 : BitVec 2)) := by decide +kernel

theorem witness_MatrixIssue_7 :
    (st77.cur = Agent.slot (5 : TileName) (0 : BitVec 2) ∧
     (st77.tile (5 : TileName)).mat.open = []) := by decide +kernel

theorem witness_MatrixIssue_8 :
    (st79.cur = Agent.slot (5 : TileName) (0 : BitVec 2) ∧
     (st79.tile (5 : TileName)).mat.open ≠ []) := by decide +kernel

theorem witness_JoinIssue_0 :
    (st80.cur = Agent.slot (5 : TileName) (0 : BitVec 2) ∧
     ((∃ acc pb, Instr.mma (0 : Acc) false = Instr.mma acc pb ∧ (0 : Word) = (0 : Word)) ∨
       ∃ acc a, Instr.mma (0 : Acc) false = Instr.mmas acc a ∧ (0 : Word) = st80.rd a) ∧
     (st80.tile (5 : TileName)).mat.abortAt (st80.tile (5 : TileName)).mat.arrivals.length = false ∧
     (({ id := st80.serial, instr := Instr.mma (0 : Acc) false, slot := (0 : BitVec 2),
             act := (st80.slot (5 : TileName) (0 : BitVec 2)).act, epc := st80.pc, iw := st80.iw,
             descA := (st80.tile (5 : TileName)).mat.descA, descB := (st80.tile (5 : TileName)).mat.descB,
             metaAddr := (0 : Word) } : MCmd).badCombo
         (decide ((st80.tile (5 : TileName)).mat.pos = (0 : BitVec 2))) =
       false) ∧
     (∀
       d ∈
         ({ id := st80.serial, instr := Instr.mma (0 : Acc) false, slot := (0 : BitVec 2),
               act := (st80.slot (5 : TileName) (0 : BitVec 2)).act, epc := st80.pc, iw := st80.iw,
               descA := (st80.tile (5 : TileName)).mat.descA, descB := (st80.tile (5 : TileName)).mat.descB,
               metaAddr := (0 : Word) } : MCmd).reads
           (decide ((st80.tile (5 : TileName)).mat.pos = (0 : BitVec 2))),
       d.block = true → st80.descOk (5 : TileName) d = true) ∧
     (decide ((st80.tile (5 : TileName)).mat.pos = (0 : BitVec 2)) = true →
       BitVec.toNat (0 : Word) % 8 = 0 ∧ BitVec.toNat (0 : Word) + 128 ≤ 163840))
    ∧ (st81.cur = Agent.slot (5 : TileName) (0 : BitVec 2) ∧
     ((∃ acc pb, Instr.mma (0 : Acc) true = Instr.mma acc pb ∧ (0 : Word) = (0 : Word)) ∨
       ∃ acc a, Instr.mma (0 : Acc) true = Instr.mmas acc a ∧ (0 : Word) = st81.rd a) ∧
     (st81.tile (5 : TileName)).mat.abortAt (st81.tile (5 : TileName)).mat.arrivals.length = false ∧
     st81.gangSet (5 : TileName) = [(5 : TileName)] ∧
     TrapReady (5 : TileName) (0 : BitVec 2) st81 ∧
     (formatsOk
         (match Instr.mma (0 : Acc) true with
         | Instr.mmas acc a => true
         | x => false)
         (st81.tile (5 : TileName)).mat.descA.fmt (st81.tile (5 : TileName)).mat.descB.fmt =
       false)) := by
  refine ⟨⟨?_, .inl ⟨_, _, rfl, rfl⟩, ?_⟩, ⟨?_, .inl ⟨_, _, rfl, rfl⟩, ?_⟩⟩ <;> repeat' first | decide +kernel | constructor

theorem witness_MatrixWork_0 :
    (st82.gangSet (5 : TileName) = [(5 : TileName)] ∧
     (st82.tile (5 : TileName)).mat.arrivals = [cJ] ∧
     (st82.tile (5 : TileName)).mat.waiting = none ∧
     (st82.tile (5 : TileName)).mat.aborts = [] ∧
     (st82.tile (5 : TileName)).mat.pos = (0 : BitVec 2) ∧
     (st82.tile (5 : TileName)).vq = [] ∧
     cJ.sparse = false ∧
     (st82.slot (5 : TileName) cJ.slot).act = cJ.act ∧
     (st82.slot (5 : TileName) cJ.slot).ctx.wait = Wait.gang ∧
     (st82.slot (5 : TileName) cJ.slot).state = SlotState.waiting) := by decide +kernel

theorem witness_MatrixWork_1 :
    ((st83.tile (5 : TileName)).mat.arrivals = [cJ] ∧
     (st83.tile (5 : TileName)).mat.abortAt 0 = true ∧
     (st83.tile (5 : TileName)).mat.zeros = [] ∧
     (st83.slot (5 : TileName) cJ.slot).act = cJ.act ∧
     (st83.slot (5 : TileName) cJ.slot).state = SlotState.waiting ∧
     (st83.slot (5 : TileName) cJ.slot).ctx.wait = Wait.gang ∧
     bit (st83.tile (5 : TileName)).trapctl 0 = false ∧
     (st83.tile (5 : TileName)).dbgActive = false) := by decide +kernel

theorem witness_MatrixWork_2 :
    ((st84.tile (5 : TileName)).mat.waiting = some anOp ∧
     anOp.members = [(5 : TileName)] ∧
     anOp.leader = (5 : TileName) ∧
     anOp.eccBad = false ∧
     (st84.tile (5 : TileName)).mat.running = none ∧
     (st84.tile (5 : TileName)).mat.scWaiting = none ∧
     (st84.tile (5 : TileName)).mat.scRunning = none ∧
     (st84.tile (5 : TileName)).mat.zeros = [] ∧
     st84.accessBefore (5 : TileName) anOp.cmd = false ∧
     st84.ecc = []) := by decide +kernel

theorem witness_MatrixWork_3 :
    ((st85.tile (5 : TileName)).mat.running = some rOp ∧
     rOp.eccBad = false ∧
     rOp.eccCorr = false ∧
     rOp.cmd.instr = Instr.mma (0 : Acc) false ∧
     rOp.descLead.fmt = (7 : BitVec 3) ∧
     rOp.cmd.descA.fmt = (7 : BitVec 3) ∧
     rOp.cmd.descB.fmt = (7 : BitVec 3) ∧
     (st85.tile (5 : TileName)).mat.zeros = []) := by decide +kernel

theorem witness_MatrixWork_4 :
    ((st273.tile (5 : TileName)).mat.running = some mop1 ∧
     mop1.eccBad = false ∧
     mop1.eccCorr = false ∧
     (st273.tile (5 : TileName)).mat.zeros = [] ∧
     fmtOf mop1.descLead.fmt.toNat = some fmt1 ∧
     fmtOf mop1.cmd.descB.fmt.toNat = some fmt2 ∧
     mop1.cmd.instr = Instr.mma (0 : Acc) false ∧
     formatsOk false mop1.descLead.fmt mop1.cmd.descB.fmt = true ∧
     mop1.descLead.fmt ≠ (5 : BitVec 3))
    ∧ ((st274.tile (5 : TileName)).mat.running = some mop2 ∧
     mop2.eccBad = false ∧
     mop2.eccCorr = false ∧
     (st274.tile (5 : TileName)).mat.zeros = [] ∧
     fmtOf mop2.descLead.fmt.toNat = some fmt3 ∧
     fmtOf mop2.cmd.descB.fmt.toNat = some fmt4 ∧
     mop2.cmd.instr = Instr.mmas (0 : Acc) (2 : Reg) ∧
     formatsOk true mop2.descLead.fmt mop2.cmd.descB.fmt = true) := by repeat' first | decide +kernel | constructor

theorem witness_MatrixWork_5 :
    ((st275.tile (5 : TileName)).mat.running = some mop3 ∧
     mop3.eccBad = false ∧
     mop3.eccCorr = false ∧
     mop3.cmd.instr = Instr.mma (0 : Acc) false ∧
     mop3.descLead.fmt = (5 : BitVec 3) ∧
     mop3.cmd.descA.fmt = (5 : BitVec 3) ∧
     mop3.cmd.descB.fmt = (5 : BitVec 3) ∧
     (st275.tile (5 : TileName)).mat.zeros = []) := by decide +kernel

theorem witness_MatrixWork_6 :
    ((st86.tile (5 : TileName)).mat.scWaiting = some cSc ∧
     (st86.tile (5 : TileName)).mat.scRunning = none ∧
     (st86.tile (5 : TileName)).mat.open = [cSc] ∧
     (st86.tile (5 : TileName)).vq = []) := by decide +kernel

theorem witness_MatrixWork_7 :
    ((sSc.tile (5 : TileName)).mat.scRunning = some cSc ∧
     cSc.instr = Instr.msca (0 : Acc) true (16 : VReg) (32 : VReg) ∧
     sSc.ecc = [] ∧
     (sSc.tile (5 : TileName)).mat.zeros = []) := by decide +kernel

theorem witness_FabricIssue_0 :
    (st90.cur = Agent.slot (5 : TileName) (0 : BitVec 2) ∧
     (st90.tile (5 : TileName)).fab.state ≠ (2 : BitVec 2) ∧
     (st90.tile (5 : TileName)).fab.changes = [] ∧
     OwnAt (5 : TileName) (st90.rd (1 : Reg)) 64 st90 ∧
     64 % 32 = 0 ∧
     BitVec.toNat (254 : BitVec 9) < 256 ∧
     min (BitVec.toNat (st90.rd (2 : Reg))) (256 - BitVec.toNat (254 : BitVec 9)) ≠ 0 ∧
     (64 + 32 * min (BitVec.toNat (st90.rd (2 : Reg))) (256 - BitVec.toNat (254 : BitVec 9)) ≤
         163840 ∧
       OwnFree (5 : TileName) 64
         (32 * min (BitVec.toNat (st90.rd (2 : Reg))) (256 - BitVec.toNat (254 : BitVec 9))) st90)) := by repeat' first | decide +kernel | constructor

theorem witness_FabricIssue_1 :
    (st91.cur = Agent.slot (5 : TileName) (0 : BitVec 2) ∧
     (st91.tile (5 : TileName)).fab.state ≠ (2 : BitVec 2) ∧
     (st91.tile (5 : TileName)).fab.changes = [] ∧
     OwnAt (5 : TileName) (st91.rd (3 : Reg)) 128 st91 ∧
     128 % 32 = 0 ∧
     256 ≤ BitVec.toNat (256 : BitVec 9) ∧
     (128 + 64 ≤ 163840 ∧ OwnFree (5 : TileName) 128 64 st91)) := by repeat' first | decide +kernel | constructor

theorem witness_FabricIssue_2 :
    (st90.cur = Agent.slot (5 : TileName) (0 : BitVec 2) ∧
     (st90.tile (5 : TileName)).fab.state ≠ (2 : BitVec 2) ∧
     (st90.tile (5 : TileName)).fab.changes = []) := by decide +kernel

theorem witness_FabricIssue_4 :
    (st90.cur = Agent.slot (5 : TileName) (0 : BitVec 2) ∧
     (st90.tile (5 : TileName)).fab.state ≠ (2 : BitVec 2) ∧
     (st90.tile (5 : TileName)).fab.changes = [] ∧
     OwnAt (5 : TileName) (st90.rd (1 : Reg)) 64 st90 ∧
     64 % 64 = 0 ∧
     (64 + 2304 ≤ 163840 ∧ OwnFree (5 : TileName) 64 2304 st90) ∧
     (st90.tile (5 : TileName)).fab.state = (0 : BitVec 2) ∧
     st90.codeLocked (5 : TileName) 64 2304 = false ∧
     Behind (5 : TileName) 64 2304 st90 ∧
     MemCanonical st90) := by repeat' first | decide +kernel | constructor

theorem witness_FabricIssue_5 :
    (st90.cur = Agent.slot (5 : TileName) (0 : BitVec 2) ∧
     (st90.tile (5 : TileName)).fab.state ≠ (2 : BitVec 2) ∧
     (st90.tile (5 : TileName)).fab.changes = [] ∧
     OwnAt (5 : TileName) (st90.rd (1 : Reg)) 64 st90 ∧
     64 % 64 = 0 ∧
     (64 + 2304 ≤ 163840 ∧ OwnFree (5 : TileName) 64 2304 st90) ∧
     (st90.tile (5 : TileName)).fab.state = (0 : BitVec 2)) := by repeat' first | decide +kernel | constructor

theorem witness_FabricIssue_6 :
    (st90.cur = Agent.slot (5 : TileName) (0 : BitVec 2) ∧
     (st90.tile (5 : TileName)).fab.state ≠ (2 : BitVec 2) ∧
     (st90.tile (5 : TileName)).fab.changes = [] ∧
     (st90.tile (5 : TileName)).fab.state = (0 : BitVec 2) ∧
     ((st90.tile (5 : TileName)).fab.domain = (0 : BitVec 6) ∨
       (st90.tile (5 : TileName)).fab.domain = BitVec.ofNat 6 (BitVec.toNat (st90.rd (1 : Reg)))) ∧
     (st90.domain (domainKey (5 : TileName) (BitVec.ofNat 6 (BitVec.toNat (st90.rd (1 : Reg)))))).run = none) := by decide +kernel

theorem witness_FabricIssue_7 :
    (st93.cur = Agent.slot (5 : TileName) (0 : BitVec 2) ∧
     (st93.tile (5 : TileName)).fab.state ≠ (2 : BitVec 2) ∧
     (st93.tile (5 : TileName)).fab.changes = []) := by decide +kernel

theorem witness_FabricIssue_8 :
    (st90.cur = Agent.slot (5 : TileName) (0 : BitVec 2) ∧
     (st90.tile (5 : TileName)).fab.state ≠ (2 : BitVec 2) ∧
     (st90.tile (5 : TileName)).fab.changes = [] ∧
     (st90.tile (5 : TileName)).fab.state = (0 : BitVec 2) ∧
     (st90.tile (5 : TileName)).fab.domain = (0 : BitVec 6) ∧
     (st90.domain (2 ^ 20 + (5 : TileName))).run = none) := by decide +kernel

theorem witness_FabricIssue_9 :
    (st92.cur = Agent.slot (5 : TileName) (0 : BitVec 2) ∧
     (st92.tile (5 : TileName)).fab.state ≠ (2 : BitVec 2) ∧
     (st92.tile (5 : TileName)).fab.changes = [] ∧
     (st92.tile (5 : TileName)).fab.state = (1 : BitVec 2) ∧
     (st92.domain (st92.domainOf (5 : TileName))).run = none ∧
     (∀ (j : BitVec 2), (st92.slot (5 : TileName) j).dwaited = st92.slot (5 : TileName) j)) := by decide +kernel

theorem witness_FabricIssue_10 :
    (st90.cur = Agent.slot (5 : TileName) (0 : BitVec 2) ∧
     (st90.tile (5 : TileName)).fab.state ≠ (2 : BitVec 2) ∧
     (st90.tile (5 : TileName)).fab.changes = [] ∧
     (st90.tile (5 : TileName)).fab.state = (0 : BitVec 2)) := by decide +kernel

theorem witness_FabricIssue_11 :
    (st92.cur = Agent.slot (5 : TileName) (0 : BitVec 2) ∧
     (st92.tile (5 : TileName)).fab.state ≠ (2 : BitVec 2) ∧
     (st92.tile (5 : TileName)).fab.changes = [] ∧
     (st92.tile (5 : TileName)).fab.state ≠ (0 : BitVec 2)) := by decide +kernel

theorem witness_FabricIssue_15 :
    (st90.cur = Agent.slot (5 : TileName) (0 : BitVec 2) ∧
     (st90.tile (5 : TileName)).fab.state ≠ (2 : BitVec 2) ∧
     (st90.tile (5 : TileName)).fab.changes = [] ∧
     OwnAt (5 : TileName) (st90.rd (1 : Reg)) 64 st90 ∧
     64 % 64 = 0 ∧
     (64 + 64 ≤ 163840 ∧ OwnFree (5 : TileName) 64 64 st90)) := by repeat' first | decide +kernel | constructor

theorem witness_FabricRun_0 :
    ((st276.tile (5 : TileName)).fab.domain = (0 : BitVec 6) ∧
     (st276.domain (2 ^ 20 + (5 : TileName))).run = some ([(5 : TileName)], 0, (47 : Word)) ∧
     (st276.tile (5 : TileName)).fab.changes = [] ∧
     (st276.domain (2 ^ 20 + (5 : TileName))).started = false ∧
     BitVec.toNat (47 : Word) + 3 ≤ BitVec.toNat (st276.bulk (TileName.ret (5 : TileName))).timer) := by decide +kernel

theorem witness_FabricRun_1 :
    ((st277.tile (5 : TileName)).fab.domain = (0 : BitVec 6) ∧
     (st277.domain (2 ^ 20 + (5 : TileName))).run = some ([(5 : TileName)], 0, (49 : Word)) ∧
     (st277.tile (5 : TileName)).fab.changes = [] ∧
     (st277.domain (2 ^ 20 + (5 : TileName))).started = false ∧
     BitVec.toNat (st277.bulk (TileName.ret (5 : TileName))).timer < BitVec.toNat (49 : Word) + 2) := by decide +kernel

theorem witness_FabricRun_2 :
    ((st278.tile (5 : TileName)).fab.domain = (0 : BitVec 6) ∧
     (st278.domain (2 ^ 20 + (5 : TileName))).run = some ([(5 : TileName)], 0, (10 : Word)) ∧
     (st278.tile (5 : TileName)).fab.changes = [] ∧
     (st278.domain (2 ^ 20 + (5 : TileName))).started = true ∧
     (2 * st278.time + 2 <
       (st278.domain (2 ^ 20 + (5 : TileName))).half +
         2 ^ (st278.domain (2 ^ 20 + (5 : TileName))).div.toNat)) := by decide +kernel

theorem witness_FabricRun_3 :
    ((st94.tile (5 : TileName)).fab.domain = (0 : BitVec 6) ∧
     (st94.domain (2 ^ 20 + (5 : TileName))).run = some ([(5 : TileName)], 0, (10 : Word)) ∧
     (st94.tile (5 : TileName)).fab.changes = [] ∧
     (st94.domain (2 ^ 20 + (5 : TileName))).started = true ∧
     (st94.domain (2 ^ 20 + (5 : TileName))).stop = false ∧
     ((st94.domain (2 ^ 20 + (5 : TileName))).half +
         2 ^ (st94.domain (2 ^ 20 + (5 : TileName))).div.toNat ≤
       (st94.domain (2 ^ 20 + (5 : TileName))).nextHalf st94.time) ∧
     st94.badCell (5 : TileName) = none ∧
     (¬((st94.domain (2 ^ 20 + (5 : TileName))).policy = false ∧
         ∃ c < 256,
           (fun c =>
               c < 256 ∧
                 ((2 : ℤ) ^ 24 <
                     (fun c =>
                         ((st94.tile (5 : TileName)).fab.cell c).y.toInt +
                           (List.map
                               (fun i =>
                                 i.gain.toInt * (2 : ℤ) ^ i.shift.toNat *
                                   (st94.source [(5 : TileName)] (5 : TileName) i.src).v)
                               ((st94.tile (5 : TileName)).fab.cell c).dy.toList).sum)
                       c ∨
                   (fun c =>
                         ((st94.tile (5 : TileName)).fab.cell c).y.toInt +
                           (List.map
                               (fun i =>
                                 i.gain.toInt * (2 : ℤ) ^ i.shift.toNat *
                                   (st94.source [(5 : TileName)] (5 : TileName) i.src).v)
                               ((st94.tile (5 : TileName)).fab.cell c).dy.toList).sum)
                       c <
                     -(2 : ℤ) ^ 24))
             c)))
    ∧ ((st291.tile (5 : TileName)).fab.domain = (0 : BitVec 6) ∧
     (st291.domain (2 ^ 20 + (5 : TileName))).run = some ([(5 : TileName)], 0, (10 : Word)) ∧
     (st291.tile (5 : TileName)).fab.changes = [] ∧
     (st291.domain (2 ^ 20 + (5 : TileName))).started = true ∧
     (st291.domain (2 ^ 20 + (5 : TileName))).stop = false ∧
     ((st291.domain (2 ^ 20 + (5 : TileName))).half +
         2 ^ (st291.domain (2 ^ 20 + (5 : TileName))).div.toNat ≤
       (st291.domain (2 ^ 20 + (5 : TileName))).nextHalf st291.time) ∧
     st291.badCell (5 : TileName) = none ∧
     ((st291.domain (2 ^ 20 + (5 : TileName))).policy = false ∧
       ∃ c < 256,
         (fun c =>
             c < 256 ∧
               ((2 : ℤ) ^ 24 <
                   (fun c =>
                       ((st291.tile (5 : TileName)).fab.cell c).y.toInt +
                         (List.map
                             (fun i =>
                               i.gain.toInt * (2 : ℤ) ^ i.shift.toNat *
                                 (st291.source [(5 : TileName)] (5 : TileName) i.src).v)
                             ((st291.tile (5 : TileName)).fab.cell c).dy.toList).sum)
                     c ∨
                 (fun c =>
                       ((st291.tile (5 : TileName)).fab.cell c).y.toInt +
                         (List.map
                             (fun i =>
                               i.gain.toInt * (2 : ℤ) ^ i.shift.toNat *
                                 (st291.source [(5 : TileName)] (5 : TileName) i.src).v)
                             ((st291.tile (5 : TileName)).fab.cell c).dy.toList).sum)
                     c <
                   -(2 : ℤ) ^ 24))
           c) ∧
     (st291.tile (5 : TileName)).fab.armed = some armed1 ∧
     (st291.slot (5 : TileName) armed1.slot).act = armed1.act ∧
     bit (st291.tile (5 : TileName)).trapctl 0 = false ∧
     (st291.tile (5 : TileName)).dbgActive = false ∧
     ((st291.slot (5 : TileName) armed1.slot).state = SlotState.ready ∧
         (st291.slot (5 : TileName) armed1.slot).ctx.wait = Wait.none ∨
       (st291.slot (5 : TileName) armed1.slot).state = SlotState.waiting ∧
         ∃ w r e, (st291.slot (5 : TileName) armed1.slot).ctx.wait = Wait.issued Instr.dwait w r e))
    ∧ ((st292.tile (5 : TileName)).fab.domain = (0 : BitVec 6) ∧
     (st292.domain (2 ^ 20 + (5 : TileName))).run = some ([(5 : TileName)], 0, (10 : Word)) ∧
     (st292.tile (5 : TileName)).fab.changes = [] ∧
     (st292.domain (2 ^ 20 + (5 : TileName))).started = true ∧
     (st292.domain (2 ^ 20 + (5 : TileName))).stop = false ∧
     ((st292.domain (2 ^ 20 + (5 : TileName))).half +
         2 ^ (st292.domain (2 ^ 20 + (5 : TileName))).div.toNat ≤
       (st292.domain (2 ^ 20 + (5 : TileName))).nextHalf st292.time) ∧
     st292.badCell (5 : TileName) = none ∧
     ((st292.domain (2 ^ 20 + (5 : TileName))).policy = false ∧
       ∃ c < 256,
         (fun c =>
             c < 256 ∧
               ((2 : ℤ) ^ 24 <
                   (fun c =>
                       ((st292.tile (5 : TileName)).fab.cell c).y.toInt +
                         (List.map
                             (fun i =>
                               i.gain.toInt * (2 : ℤ) ^ i.shift.toNat *
                                 (st292.source [(5 : TileName)] (5 : TileName) i.src).v)
                             ((st292.tile (5 : TileName)).fab.cell c).dy.toList).sum)
                     c ∨
                 (fun c =>
                       ((st292.tile (5 : TileName)).fab.cell c).y.toInt +
                         (List.map
                             (fun i =>
                               i.gain.toInt * (2 : ℤ) ^ i.shift.toNat *
                                 (st292.source [(5 : TileName)] (5 : TileName) i.src).v)
                             ((st292.tile (5 : TileName)).fab.cell c).dy.toList).sum)
                     c <
                   -(2 : ℤ) ^ 24))
           c) ∧
     (st292.tile (5 : TileName)).fab.armed = some armed2 ∧
     (st292.slot (5 : TileName) armed2.slot).act ≠ armed2.act) := by repeat' first | decide +kernel | constructor

theorem witness_FabricRun_4 :
    ((st95.tile (5 : TileName)).fab.domain = (0 : BitVec 6) ∧
     (st95.domain (2 ^ 20 + (5 : TileName))).run = some ([(5 : TileName)], 0, (10 : Word)) ∧
     (st95.tile (5 : TileName)).fab.changes = [] ∧
     (st95.domain (2 ^ 20 + (5 : TileName))).started = true ∧
     (st95.domain (2 ^ 20 + (5 : TileName))).stop = true ∧
     (st95.domain (2 ^ 20 + (5 : TileName))).held = none ∧
     st95.stopped (5 : TileName) = false) := by decide +kernel

theorem witness_StreamIssue_0 :
    (sS1.cur = Agent.slot (5 : TileName) (0 : BitVec 2) ∧
     (TransferOk (5 : TileName) (0 : BitVec 2)
       (Instr.copy false false (0 : BitVec 3) false (1 : Reg) (2 : Reg) (3 : Reg)) false (1 : Reg) (2 : Reg) (3 : Reg)
       none none sS1) ∧
     (sS1.tile (5 : TileName)).outst = (0 : BitVec 16) ∧
     (sS1.tile (5 : TileName)).fails = (0 : BitVec 16) ∧
     (sS1.bulk (TileName.ret (5 : TileName))).gate ≠ (2 : BitVec 2) ∧
     (sS1.tile (5 : TileName)).sq.length < 16) := by
  refine ⟨?_, {
      form := rfl
      records := by intro mode record; exact (if_pos (.inr (by decide +kernel))).mpr ⟨rfl, rfl⟩
      counter := ⟨by decide +kernel, by decide +kernel, fun v o h => by
        have e : sS1.loc (sS1.rd 3) 16 = .scratch 5 0x40 := by decide +kernel
        rw [e] at h; cases h⟩
      mcast := by decide +kernel
      mode := by decide +kernel
      aligned := List.forall_iff_forall_mem.mp (by decide +kernel)
      size := by decide +kernel
      sides := List.forall_iff_forall_mem.mp (by decide +kernel) }, ?_⟩ <;> decide +kernel

theorem witness_StreamIssue_1 :
    (st96.cur = Agent.slot (5 : TileName) (0 : BitVec 2) ∧
     BitVec.toNat (st96.erd (0 : EReg)) % 8 = 0 ∧
     BitVec.toNat (st96.erd (2 : EReg)) % 8 = 0 ∧
     BitVec.toNat (st96.erd (2 : EReg)) / 2 ^ 32 % 8 = 0 ∧
     BitVec.toNat (st96.erd (3 : EReg)) % 8 = 0 ∧
     (({ w0 := st96.erd (0 : EReg), w1 := st96.erd (1 : EReg), w2 := st96.erd (2 : EReg), w3 := st96.erd (3 : EReg),
             gen :=
               BitVec.ofNat 24
                 (if
                     ((Sparse.get TRec.reset (st96.tile (5 : TileName)).recs
                                 (BitVec.toNat (st96.rd (1 : Reg)) % 64)).gen.toNat +
                           1) %
                         2 ^ 24 =
                       0 then
                   1
                 else
                   ((Sparse.get TRec.reset (st96.tile (5 : TileName)).recs
                             (BitVec.toNat (st96.rd (1 : Reg)) % 64)).gen.toNat +
                       1) %
                     2 ^ 24),
             valid := true } : TRec).rowBits %
         64 =
       0) ∧
     (({ w0 := st96.erd (0 : EReg), w1 := st96.erd (1 : EReg), w2 := st96.erd (2 : EReg), w3 := st96.erd (3 : EReg),
           gen :=
             BitVec.ofNat 24
               (if
                   ((Sparse.get TRec.reset (st96.tile (5 : TileName)).recs
                               (BitVec.toNat (st96.rd (1 : Reg)) % 64)).gen.toNat +
                         1) %
                       2 ^ 24 =
                     0 then
                 1
               else
                 ((Sparse.get TRec.reset (st96.tile (5 : TileName)).recs
                           (BitVec.toNat (st96.rd (1 : Reg)) % 64)).gen.toNat +
                     1) %
                   2 ^ 24),
           valid := true } : TRec).bytes <
       2 ^ 32)) := by decide +kernel

theorem witness_StreamIssue_2 :
    (sS1.cur = Agent.slot (5 : TileName) (0 : BitVec 2)) := by decide +kernel

theorem witness_StreamIssue_3 :
    (sS1.cur = Agent.slot (5 : TileName) (0 : BitVec 2) ∧
     (sS1.tile (5 : TileName)).sq = []) := by decide +kernel

theorem witness_StreamIssue_4 :
    (st97.cur = Agent.slot (5 : TileName) (0 : BitVec 2) ∧
     (st97.tile (5 : TileName)).sq ≠ []) := by decide +kernel

theorem witness_StreamWork_0 :
    ((st98.tile (5 : TileName)).sq = [c0] ∧
     isListed c0.instr = false ∧
     isMcast c0.instr = false ∧
     c0.recSrc = none ∧
     c0.recDst = none ∧
     MemCanonical st98 ∧
     st98.streamHeld (5 : TileName) c0.id = false ∧
     c0.started = false ∧
     c0.pos = 0 ∧
     c0.chunks = [] ∧
     c0.after = [] ∧
     st98.storeAhead (5 : TileName) c0.id = false ∧
     BitVec.toNat c0.a = 8192 ∧
     BitVec.toNat c0.d = 4096 ∧
     0 < c0.total ∧
     8192 % 256 + c0.total ≤ 256 ∧
     4096 % 256 + c0.total ≤ 256 ∧
     8192 + c0.total ≤ 163840 ∧
     4096 + c0.total ≤ 163840 ∧
     st98.codeLocked (5 : TileName) 4096 c0.total = false ∧
     st98.eccBad (scratchKey (5 : TileName) 8192) c0.total = false ∧
     st98.eccBad (scratchKey (5 : TileName) 4096) c0.total = false) := by decide +kernel

theorem witness_StreamWork_1 :
    ((st99.tile (5 : TileName)).sq = [c1] ∧
     isListed c1.instr = false ∧
     isMcast c1.instr = false ∧
     c1.recSrc = none ∧
     c1.recDst = none ∧
     MemCanonical st99 ∧
     st99.streamHeld (5 : TileName) c1.id = false ∧
     c1.started = true ∧
     c1.total ≤ c1.pos ∧
     c1.chunks = [] ∧
     c1.checks = 0 ∧
     c1.addsLeft = none ∧
     BitVec.toNat c1.b = 64 ∧
     (5 : TileName) < (2 : TileName) ^ 19 ∧
     64 % 16 = 0 ∧
     64 + 16 ≤ 163840 ∧
     st99.eccBad (scratchKey (5 : TileName) 64) 16 = false ∧
     c1.total < 2 ^ 64 ∧
     unwatched (5 : TileName) (scratchKey (5 : TileName) 64) st99 = true ∧
     unwaited (5 : TileName) (scratchKey (5 : TileName) 64) st99 = true) := by decide +kernel

theorem witness_AnswersArrive_0 :
    (Arrived 60 kLoad st100 ∧
     req1.who.origin = Origin.slot (5 : TileName) (0 : BitVec 2) 7 ∧
     (st100.slot (5 : TileName) (0 : BitVec 2)).act = 7 ∧
     (st100.slot (5 : TileName) (0 : BitVec 2)).state ≠ SlotState.free ∧
     (st100.slot (5 : TileName) (0 : BitVec 2)).state ≠ SlotState.migrated ∧
     kLoad.body = Body.reply req1 (Reply.data [(254 : Byte), (255 : Byte)]) ∧
     req1.acc = Access.load 2 true ∧
     [(254 : Byte), (255 : Byte)].length = 2 ∧
     0 < 2 ∧
     (List.find? (fun y => decide (y.id = req1.who.rid)) (st100.slot (5 : TileName) (0 : BitVec 2)).ctx.pend = some pending1)) := by repeat' first | decide +kernel | constructor

theorem witness_AnswersArrive_1 :
    (Arrived 60 kAck st101 ∧
     req2.who.origin = Origin.slot (5 : TileName) (0 : BitVec 2) 7 ∧
     (st101.slot (5 : TileName) (0 : BitVec 2)).act = 7 ∧
     (st101.slot (5 : TileName) (0 : BitVec 2)).state ≠ SlotState.free ∧
     (st101.slot (5 : TileName) (0 : BitVec 2)).state ≠ SlotState.migrated ∧
     kAck.body = Body.reply req2 Reply.done ∧
     req2.acc = Access.store 2 []) := by repeat' first | decide +kernel | constructor

theorem witness_AnswersArrive_2 :
    (Arrived 60 kWake st102 ∧
     req3.who.origin = Origin.slot (5 : TileName) (0 : BitVec 2) 7 ∧
     (st102.slot (5 : TileName) (0 : BitVec 2)).act = 7 ∧
     (st102.slot (5 : TileName) (0 : BitVec 2)).state ≠ SlotState.free ∧
     (st102.slot (5 : TileName) (0 : BitVec 2)).state ≠ SlotState.migrated ∧
     kWake.body = Body.wake req3.who 9 ∧
     (st102.slot (5 : TileName) (0 : BitVec 2)).ctx.wait = Wait.remote req3.who.rid (some (3 : Reg × Word)) ∧
     (st102.slot (5 : TileName) (0 : BitVec 2)).state = SlotState.waiting) := by repeat' first | decide +kernel | constructor

theorem witness_AnswersArrive_3 :
    (Arrived 60 kLoad st126 ∧
     req15.who.origin = Origin.slot (5 : TileName) (0 : BitVec 2) 7 ∧
     (st126.slot (5 : TileName) (0 : BitVec 2)).act = 7 ∧
     (st126.slot (5 : TileName) (0 : BitVec 2)).state ≠ SlotState.free ∧
     (st126.slot (5 : TileName) (0 : BitVec 2)).state ≠ SlotState.migrated ∧
     ((st126.slot (5 : TileName) (0 : BitVec 2)).ctx.wait =
       Wait.counter 64 (9 : Word) (some ((6 : Reg), (5 : Word)))) ∧
     (st126.slot (5 : TileName) (0 : BitVec 2)).state = SlotState.waiting ∧
     BitVec.toNat (st126.bulk (TileName.ret (5 : TileName))).timer ≤ BitVec.toNat (5 : Word))
    ∧ (Arrived 60 kLoad st127 ∧
     req16.who.origin = Origin.slot (5 : TileName) (0 : BitVec 2) 7 ∧
     (st127.slot (5 : TileName) (0 : BitVec 2)).act = 7 ∧
     (st127.slot (5 : TileName) (0 : BitVec 2)).state ≠ SlotState.free ∧
     (st127.slot (5 : TileName) (0 : BitVec 2)).state ≠ SlotState.migrated ∧
     ((st127.slot (5 : TileName) (0 : BitVec 2)).ctx.wait =
       Wait.counter 64 (9 : Word) (some ((6 : Reg), (5 : Word)))) ∧
     (st127.slot (5 : TileName) (0 : BitVec 2)).state = SlotState.waiting ∧
     BitVec.toNat (5 : Word) < BitVec.toNat (st127.bulk (TileName.ret (5 : TileName))).timer) := by repeat' first | decide +kernel | constructor

theorem witness_AnswersArrive_4 :
    (Arrived 60 kAck16 st266 ∧
     req17.who.origin = Origin.slot (5 : TileName) (0 : BitVec 2) 7 ∧
     (st266.slot (5 : TileName) (0 : BitVec 2)).act = 7 ∧
     (st266.slot (5 : TileName) (0 : BitVec 2)).state ≠ SlotState.free ∧
     (st266.slot (5 : TileName) (0 : BitVec 2)).state ≠ SlotState.migrated ∧
     ((st266.slot (5 : TileName) (0 : BitVec 2)).ctx.wait =
       Wait.issued (Instr.cwaitt (4 : Reg) (1 : Reg) (2 : Reg)) (3 : Word) (regs [(1, 64), (2, 9)])
         (eregs [(0, 5)])) ∧
     (st266.slot (5 : TileName) (0 : BitVec 2)).ctx.issuedAt = some (10 : Word) ∧
     (st266.slot (5 : TileName) (0 : BitVec 2)).state = SlotState.waiting ∧
     (BitVec.toNat (eregs [(0, 5)])[0] % 2 ^ 32 = 0 ∨
       BitVec.toNat ((st266.bulk (TileName.ret (5 : TileName))).timer - (10 : Word)) ≤
         BitVec.toNat (eregs [(0, 5)])[0] % 2 ^ 32))
    ∧ (Arrived 60 kAck16 st267 ∧
     req18.who.origin = Origin.slot (5 : TileName) (0 : BitVec 2) 7 ∧
     (st267.slot (5 : TileName) (0 : BitVec 2)).act = 7 ∧
     (st267.slot (5 : TileName) (0 : BitVec 2)).state ≠ SlotState.free ∧
     (st267.slot (5 : TileName) (0 : BitVec 2)).state ≠ SlotState.migrated ∧
     ((st267.slot (5 : TileName) (0 : BitVec 2)).ctx.wait =
       Wait.issued (Instr.cwaitt (4 : Reg) (1 : Reg) (2 : Reg)) (3 : Word) (regs [(1, 64), (2, 9)])
         (eregs [(0, 5)])) ∧
     (st267.slot (5 : TileName) (0 : BitVec 2)).ctx.issuedAt = some (10 : Word) ∧
     (st267.slot (5 : TileName) (0 : BitVec 2)).state = SlotState.waiting ∧
     BitVec.toNat (eregs [(0, 5)])[0] % 2 ^ 32 ≠ 0 ∧
     (BitVec.toNat (eregs [(0, 5)])[0] % 2 ^ 32 <
       BitVec.toNat ((st267.bulk (TileName.ret (5 : TileName))).timer - (10 : Word)))) := by repeat' first | decide +kernel | constructor

theorem witness_AnswersArrive_5 :
    (Arrived 60 kMac st103 ∧
     req4.who.origin = Origin.slot (5 : TileName) (0 : BitVec 2) 7 ∧
     (st103.slot (5 : TileName) (0 : BitVec 2)).act = 7 ∧
     (st103.slot (5 : TileName) (0 : BitVec 2)).state ≠ SlotState.free ∧
     (st103.slot (5 : TileName) (0 : BitVec 2)).state ≠ SlotState.migrated ∧
     kMac.body = Body.mac (Origin.slot (5 : TileName) (0 : BitVec 2) 7) false) := by repeat' first | decide +kernel | constructor

theorem witness_RefusalsAndData_0 :
    (Quiet (5 : TileName) (0 : BitVec 2) 7 st104 ∧
     Arrived 60 kGate st104 ∧
     kGate.body = Body.reply req5 (Reply.gate (77 : Word)) ∧
     req5.who.origin = Origin.slot (5 : TileName) (0 : BitVec 2) 7 ∧
     req5.counted = false)
    ∧ (Quiet (5 : TileName) (0 : BitVec 2) 7 st105 ∧
     Arrived 60 kCode st105 ∧
     kCode.body = Body.reply req6 Reply.codeRefused ∧
     req6.who.origin = Origin.slot (5 : TileName) (0 : BitVec 2) 7)
    ∧ (Quiet (5 : TileName) (0 : BitVec 2) 7 st106 ∧
     Arrived 60 kRef st106 ∧
     kRef.body = Body.msgRefused ticket1 (6 : QNum) ∧
     ticket1.origin = Origin.slot (5 : TileName) (0 : BitVec 2) 7)
    ∧ (Quiet (5 : TileName) (0 : BitVec 2) 7 st107 ∧
     st107.lanes.find? 61 = some badLane ∧
     st107.lanePasses badLane = false ∧
     st107.laneBehind 61 badLane = false ∧
     badLane.who.origin = Origin.slot (5 : TileName) (0 : BitVec 2) 7) := by repeat' first | decide +kernel | constructor

theorem witness_RefusalsAndData_1 :
    (Arrived 60 pk1 st108 ∧
     pk1.body = Body.msg aMsg ∧
     pk1.entry = some 2 ∧
     MemCanonical st108)
    ∧ (Arrived 60 pk2 st109 ∧
     pk2.body = Body.msg aMsg ∧
     pk2.entry = none ∧
     aMsg.wake = false ∧
     aMsg.who = some ticket2)
    ∧ (st110.lanes.find? 61 = some goodLane ∧
     goodLane.src.ret = goodLane.dst.ret ∧
     st110.laneBehind 61 goodLane = false)
    ∧ (Arrived 60 kStr sStr2 ∧
     (kStr.body =
       Body.reply strReq
         (Reply.data [(1 : Byte), (2 : Byte), (3 : Byte), (4 : Byte), (5 : Byte), (6 : Byte), (7 : Byte), (8 : Byte)])) ∧
     strReq.acc = Access.sread 8 ∧
     [(1 : Byte), (2 : Byte), (3 : Byte), (4 : Byte), (5 : Byte), (6 : Byte), (7 : Byte), (8 : Byte)].length = 8 ∧
     0 < 8 ∧
     strReq.who.origin = Origin.stream (5 : TileName) strCmd.id ch.id ∧
     (sStr2.tile (5 : TileName)).sq = [strCmd] ∧
     strCmd.chunks = [ch] ∧
     strCmd.total ≤ strCmd.pos ∧
     ch.len = 8 ∧
     BitVec.toNat ch.dst = 163832 ∧
     163832 + 8 ≤ 163840 ∧
     sStr2.eccBad (scratchKey (5 : TileName) 163832) 8 = false ∧
     MemCanonical sStr2) := by repeat' first | decide +kernel | constructor

theorem witness_RequestsAtHome_0 :
    (Arrived 60 pk3 st111 ∧
     pk3.body = Body.req req7 ∧
     req7.also = [] ∧
     BitVec.toNat req7.addr = 2 ^ 60 + (5 : TileName) * 2 ^ 24 + 163832 ∧
     (5 : TileName) < (2 : TileName) ^ 19 ∧
     st111.tileExists (5 : TileName) = true ∧
     MemCanonical st111 ∧
     st111.behindOwn 60 pk3 req7 = false ∧
     (pk3.windowed ≠ none →
       (∀ y ∈ st111.watches, y.kind ≠ WatchKind.wake req7.who) ∧
         ∀ y ∈ st111.packets, ∀ (i : ℕ), y.2.body ≠ Body.wake req7.who i) ∧
     req7.acc = Access.load 8 false ∧
     163832 + 8 ≤ 163840 ∧
     st111.eccBad (scratchKey (5 : TileName) 163832) 8 = false) := by
  refine ⟨?_, ?_, ?_, ?_, ?_, ?_, ?_, ?_, fun h => absurd rfl h, ?_⟩ <;> repeat' first | decide +kernel | constructor

theorem witness_RequestsAtHome_1 :
    (Arrived 60 pk4 st112 ∧
     pk4.body = Body.req req8 ∧
     req8.also = [] ∧
     BitVec.toNat req8.addr = 2 ^ 60 + (5 : TileName) * 2 ^ 24 + 163838 ∧
     (5 : TileName) < (2 : TileName) ^ 19 ∧
     st112.tileExists (5 : TileName) = true ∧
     MemCanonical st112 ∧
     st112.behindOwn 60 pk4 req8 = false ∧
     (pk4.windowed ≠ none →
       (∀ y ∈ st112.watches, y.kind ≠ WatchKind.wake req8.who) ∧
         ∀ y ∈ st112.packets, ∀ (i : ℕ), y.2.body ≠ Body.wake req8.who i) ∧
     req8.acc = Access.store 2 (indexed [(1 : Byte), (2 : Byte)]) ∧
     [(1 : Byte), (2 : Byte)].length = 2 ∧
     163838 + 2 ≤ 163840 ∧
     st112.eccBad (scratchKey (5 : TileName) 163838) 2 = false ∧
     st112.codeLocked (5 : TileName) 163838 2 = false) := by
  refine ⟨?_, ?_, ?_, ?_, ?_, ?_, ?_, ?_, fun h => absurd rfl h, ?_⟩ <;> repeat' first | decide +kernel | constructor

theorem witness_RequestsAtHome_2 :
    (Arrived 60 pk5 st113 ∧
     pk5.body = Body.req req9 ∧
     req9.also = [] ∧
     BitVec.toNat req9.addr = 2 ^ 60 + (5 : TileName) * 2 ^ 24 + 163838 ∧
     (5 : TileName) < (2 : TileName) ^ 19 ∧
     st113.tileExists (5 : TileName) = true ∧
     MemCanonical st113 ∧
     st113.behindOwn 60 pk5 req9 = false ∧
     (pk5.windowed ≠ none →
       (∀ y ∈ st113.watches, y.kind ≠ WatchKind.wake req9.who) ∧
         ∀ y ∈ st113.packets, ∀ (i : ℕ), y.2.body ≠ Body.wake req9.who i) ∧
     req9.acc = Access.swrite 2 (indexed [(1 : Byte), (2 : Byte)]) ∧
     [(1 : Byte), (2 : Byte)].length = 2 ∧
     163838 + 2 ≤ 163840 ∧
     st113.eccBad (scratchKey (5 : TileName) 163838) 2 = false ∧
     st113.codeLocked (5 : TileName) 163838 2 = false) := by
  refine ⟨?_, ?_, ?_, ?_, ?_, ?_, ?_, ?_, fun h => absurd rfl h, ?_⟩ <;> repeat' first | decide +kernel | constructor

theorem witness_RequestsAtHome_3 :
    (Arrived 60 pk6 sLocked ∧
     pk6.body = Body.req req10 ∧
     req10.also = [] ∧
     BitVec.toNat req10.addr = 2 ^ 60 + (5 : TileName) * 2 ^ 24 + 8190 ∧
     (5 : TileName) < (2 : TileName) ^ 19 ∧
     sLocked.tileExists (5 : TileName) = true ∧
     MemCanonical sLocked ∧
     sLocked.behindOwn 60 pk6 req10 = false ∧
     (pk6.windowed ≠ none →
       (∀ y ∈ sLocked.watches, y.kind ≠ WatchKind.wake req10.who) ∧
         ∀ y ∈ sLocked.packets, ∀ (i : ℕ), y.2.body ≠ Body.wake req10.who i) ∧
     req10.acc = Access.store 2 (indexed [(1 : Byte), (2 : Byte)]) ∧
     8190 + 2 ≤ 163840 ∧
     sLocked.codeLocked (5 : TileName) 8190 2 = true) := by
  refine ⟨?_, ?_, ?_, ?_, ?_, ?_, ?_, ?_, fun h => absurd rfl h, ?_⟩ <;> repeat' first | decide +kernel | constructor

theorem witness_RequestsAtHome_4 :
    (Arrived 60 pk7 st114 ∧
     pk7.body = Body.req req11 ∧
     req11.also = [] ∧
     BitVec.toNat req11.addr = 2 ^ 60 + (5 : TileName) * 2 ^ 24 + 163824 ∧
     (5 : TileName) < (2 : TileName) ^ 19 ∧
     st114.tileExists (5 : TileName) = true ∧
     MemCanonical st114 ∧
     st114.behindOwn 60 pk7 req11 = false ∧
     (pk7.windowed ≠ none →
       (∀ y ∈ st114.watches, y.kind ≠ WatchKind.wake req11.who) ∧
         ∀ y ∈ st114.packets, ∀ (i : ℕ), y.2.body ≠ Body.wake req11.who i) ∧
     163824 % 16 = 0 ∧
     163824 + 16 ≤ 163840 ∧
     st114.eccBad (scratchKey (5 : TileName) 163824) 16 = false ∧
     unwatched (5 : TileName) (scratchKey (5 : TileName) 163824) st114 = true ∧
     unwaited (5 : TileName) (scratchKey (5 : TileName) 163824) st114 = true ∧
     req11.acc = Access.cadd (3 : Word) (0 : Word))
    ∧ (Arrived 60 pk8 st115 ∧
     pk8.body = Body.req req12 ∧
     req12.also = [] ∧
     BitVec.toNat req12.addr = 2 ^ 60 + (5 : TileName) * 2 ^ 24 + 163824 ∧
     (5 : TileName) < (2 : TileName) ^ 19 ∧
     st115.tileExists (5 : TileName) = true ∧
     MemCanonical st115 ∧
     st115.behindOwn 60 pk8 req12 = false ∧
     (pk8.windowed ≠ none →
       (∀ y ∈ st115.watches, y.kind ≠ WatchKind.wake req12.who) ∧
         ∀ y ∈ st115.packets, ∀ (i : ℕ), y.2.body ≠ Body.wake req12.who i) ∧
     163824 % 16 = 0 ∧
     163824 + 16 ≤ 163840 ∧
     st115.eccBad (scratchKey (5 : TileName) 163824) 16 = false ∧
     unwatched (5 : TileName) (scratchKey (5 : TileName) 163824) st115 = true ∧
     unwaited (5 : TileName) (scratchKey (5 : TileName) 163824) st115 = true ∧
     req12.acc = Access.caddf (3 : Word))
    ∧ (Arrived 60 pk9 st116 ∧
     pk9.body = Body.req req13 ∧
     req13.also = [] ∧
     BitVec.toNat req13.addr = 2 ^ 60 + (5 : TileName) * 2 ^ 24 + 0 ∧
     (5 : TileName) < (2 : TileName) ^ 19 ∧
     st116.tileExists (5 : TileName) = true ∧
     MemCanonical st116 ∧
     st116.behindOwn 60 pk9 req13 = false ∧
     (pk9.windowed ≠ none →
       (∀ y ∈ st116.watches, y.kind ≠ WatchKind.wake req13.who) ∧
         ∀ y ∈ st116.packets, ∀ (i : ℕ), y.2.body ≠ Body.wake req13.who i) ∧
     0 % 16 = 0 ∧
     0 + 16 ≤ 163840 ∧
     st116.eccBad (scratchKey (5 : TileName) 0) 16 = false ∧
     unwatched (5 : TileName) (scratchKey (5 : TileName) 0) st116 = true ∧
     unwaited (5 : TileName) (scratchKey (5 : TileName) 0) st116 = true ∧
     req13.acc = Access.cread) := by
  refine ⟨⟨?_, ?_, ?_, ?_, ?_, ?_, ?_, ?_, fun h => absurd rfl h, ?_⟩, ⟨?_, ?_, ?_, ?_, ?_, ?_, ?_, ?_, fun h => absurd rfl h, ?_⟩, ⟨?_, ?_, ?_, ?_, ?_, ?_, ?_, ?_, fun h => absurd rfl h, ?_⟩⟩ <;> repeat' first | decide +kernel | constructor

theorem witness_RequestsAtHome_5 :
    (Arrived 60 pk10 st117 ∧
     pk10.body = Body.req req14 ∧
     req14.also = [] ∧
     BitVec.toNat req14.addr = 2 ^ 60 + (5 : TileName) * 2 ^ 24 + 163836 ∧
     (5 : TileName) < (2 : TileName) ^ 19 ∧
     st117.tileExists (5 : TileName) = true ∧
     MemCanonical st117 ∧
     st117.behindOwn 60 pk10 req14 = false ∧
     (pk10.windowed ≠ none →
       (∀ y ∈ st117.watches, y.kind ≠ WatchKind.wake req14.who) ∧
         ∀ y ∈ st117.packets, ∀ (i : ℕ), y.2.body ≠ Body.wake req14.who i) ∧
     req14.acc = Access.red RedOp.addf (0 : BitVec 2) (1065353216 : Word) ∧
     ((163836 % if RedOp.addf = RedOp.addf ∨ (0 : BitVec 2) ≠ (0 : BitVec 2) then 4 else 8) =
       0) ∧
     ((163836 + if RedOp.addf = RedOp.addf ∨ (0 : BitVec 2) ≠ (0 : BitVec 2) then 4 else 8) ≤
       163840) ∧
     (st117.eccBad (scratchKey (5 : TileName) 163836)
         (if RedOp.addf = RedOp.addf ∨ (0 : BitVec 2) ≠ (0 : BitVec 2) then 4 else 8) =
       false)) := by
  refine ⟨?_, ?_, ?_, ?_, ?_, ?_, ?_, ?_, fun h => absurd rfl h, ?_⟩ <;> repeat' first | decide +kernel | constructor

theorem witness_ActivationFires :
    ((sFire.tile (5 : TileName)).pre = (0 : BitVec 2) ∧
     (sFire.bulk (TileName.ret (5 : TileName))).failed = false ∧
     bit (sFire.tile (5 : TileName)).trapctl 1 = false ∧
     (sFire.slot (5 : TileName) (1 : BitVec 2)).state = SlotState.free ∧
     (∀ j < (1 : BitVec 2), (sFire.slot (5 : TileName) j).state ≠ SlotState.free) ∧
     (sFire.tile (5 : TileName)).fires = some ((3 : QNum), 1, 4) ∧
     (sFire.tile (5 : TileName)).bindings[4]? = some aBind) := by decide +kernel

theorem witness_TileEvents_0 :
    ((st118.tile (5 : TileName)).shareAdds = [anAdd] ∧
     anAdd.after = [] ∧
     (st118.tile (5 : TileName)).offTile = [] ∧
     BitVec.toNat anAdd.counter = 64 ∧
     anAdd.status = (0 : Word) ∧
     (5 : TileName) < (2 : TileName) ^ 19 ∧
     64 % 16 = 0 ∧
     64 + 16 ≤ 163840 ∧
     st118.eccBad (scratchKey (5 : TileName) 64) 16 = false ∧
     MemCanonical st118 ∧
     unwatched (5 : TileName) (scratchKey (5 : TileName) 64) st118 = true ∧
     unwaited (5 : TileName) (scratchKey (5 : TileName) 64) st118 = true ∧
     st118.shareBehind (5 : TileName) anAdd = false)
    ∧ (sWire.wires.find? (128 * 0 + 64 * num false + 1) = some [(5 : TileName)] ∧
     (sWire.wireMembers 0 false 1 = [] ∨ (5 : TileName) ∈ sWire.wireMembers 0 false 1) ∧
     (sWire.slot (5 : TileName) (0 : BitVec 2)).state = SlotState.waiting ∧
     ((sWire.slot (5 : TileName) (0 : BitVec 2)).ctx.wait =
       if false = true then Wait.wire false true else Wait.wire true false) ∧
     (∀ (n : BitVec 2), (sWire.slot (5 : TileName) n).state ≠ SlotState.migrated) ∧
     (∀ (n : BitVec 2),
       n ≠ (0 : BitVec 2) → ∀ (row c : Bool), (sWire.slot (5 : TileName) n).ctx.wait ≠ Wait.wire row c))
    ∧ (Arrived 60 pk11 st119 ∧
     (pk11.body =
       Body.group (5 : TileName) (9 : BitVec 8) true (Agent.slot (5 : TileName) (0 : BitVec 2)) 7))
    ∧ (Arrived 60 pk12 st120 ∧
     (pk12.body =
       Body.group (5 : TileName) (9 : BitVec 8) false (Agent.slot (5 : TileName) (0 : BitVec 2)) 7))
    ∧ (Arrived 60 pk13 st121 ∧
     (pk13.body =
       Body.groupAck (5 : TileName) (9 : BitVec 8) true (Agent.slot (5 : TileName) (0 : BitVec 2)) 7) ∧
     (st121.slot (5 : TileName) (0 : BitVec 2)).act = 7 ∧
     (st121.slot (5 : TileName) (0 : BitVec 2)).state = SlotState.waiting ∧
     (st121.slot (5 : TileName) (0 : BitVec 2)).ctx.wait = Wait.group)
    ∧ (Arrived 60 kMig sMigG ∧
     kMig.body = Body.migrate img ∧
     (sMigG.core (kMig.dst / 4096) (3 : BitVec 3)).home = none ∧
     (sMigG.core (kMig.dst / 4096) (3 : BitVec 3)).running = false ∧
     (sMigG.core (kMig.dst / 4096) (3 : BitVec 3)).h = false)
    ∧ (Arrived 60 kBack st122 ∧
     kBack.body = Body.migrateBack img ∧
     img.tile = (5 : TileName) ∧
     (st122.slot (5 : TileName) img.slot).state = SlotState.migrated ∧
     (st122.slot (5 : TileName) img.slot).act = img.act)
    ∧ (Arrived 60 kSys st123 ∧
     kSys.body = Body.syscall (5 : TileName) (List.replicate 64 (1 : Byte)) (9 : BitVec 16) (64 : Word))
    ∧ ((st124.tile (5 : TileName)).lvl.edge ≠ (st124.bulk (TileName.ret (5 : TileName))).timer ∧
     BitVec.toNat (st124.bulk (TileName.ret (5 : TileName))).timer % (st124.tile (5 : TileName)).lvl.interval = 0 ∧
     bit (st124.tile (5 : TileName)).lvl.ctl 0 = false)
    ∧ (Arrived 60 kLev st125 ∧
     kLev.body = Body.level (6 : TileName) (5 : TileName) (List.replicate 32 (3 : Byte)) ∧
     (List.replicate 32 (3 : Byte)).length = 32 ∧
     (st125.tile (5 : TileName)).listFull = false ∧
     MemCanonical st125)
    ∧ ((sBehind.tile (5 : TileName)).shareAdds = [shareadd1] ∧
     ((∃ n ∈ shareadd1.after, sBehind.accessOpen (5 : TileName) n = true) ∨ sBehind.shareBehind (5 : TileName) shareadd1 = true))
    ∧ (sNoWire.wires.find? (128 * 0 + 64 * num false + 1) = none) := by repeat' first | decide +kernel | constructor

theorem witness_TileEvents_1 :
    (BitVec.toNat (sBal2.bulk (TileName.ret (5 : TileName))).timer % (sBal2.tile (5 : TileName)).lvl.interval = 0 ∧
     (sBal2.tile (5 : TileName)).lvl.edge ≠ (sBal2.bulk (TileName.ret (5 : TileName))).timer ∧
     (sBal2.tile (5 : TileName)).balances = true ∧
     (sBal2.tile (5 : TileName)).outst = (0 : BitVec 16) ∧
     (sBal2.tile (5 : TileName)).fails = (0 : BitVec 16) ∧
     (sBal2.bulk (TileName.ret (5 : TileName))).gate ≠ (2 : BitVec 2) ∧
     (sBal2.tile (5 : TileName)).lvl.depth = 9 ∧
     sBal2.leastLoaded (5 : TileName) (sBal2.levelNeighbours (5 : TileName)) none = some (6 : TileName) ∧
     sBal2.depthSeen (5 : TileName) (6 : TileName) = 1 ∧
     1 + 2 ≤ 9) := by decide +kernel

theorem witness_NetworkForwards_0 :
    (((st128.router nA).ins =
       [(8 * 4 + 3, { flits := [fA], behind := [], age := 7, promoted := false, served := false })]) ∧
     ((st128.island (nA / (4096 : BulkId))).ageLimit = 0 ∨ 7 ≠ (st128.island (nA / (4096 : BulkId))).ageLimit) ∧
     4 < 5 ∧
     3 < 8 ∧
     (st128.bulk (nA / (4096 : BulkId))).failed = false ∧
     st128.packets.find? fA.pkt = some kA ∧
     st128.portFor nA kA.dst = 1 ∧
     (((st128.router nA).out 1).holder 3 = if fA.idx = 0 then none else some fA.pkt) ∧
     ((st128.router nA).out 1).budgetAt 3 ≠ 0 ∧
     st128.nextNode nA 1 kA.dst = some (nodeAt 0 11 10, 3) ∧
     nodeAt 0 11 10 ≠ nA ∧
     ((st128.router (nodeAt 0 11 10)).buf 3 3).flits.length < 4 ∧
     (isGateway nA = true →
       1 = 0 →
         kA.stamp = 63 ∨
           (st128.bulk (nA / (4096 : BulkId))).gate ≠ (0 : BitVec 2) ∧
             (st128.bulk (nodeAt 0 11 10 / (4096 : BulkId))).gate ≠ (0 : BitVec 2) ∧
               (fA.idx ≠ 0 ∨
                 (st128.bulk (nodeAt 0 11 10 / (4096 : BulkId))).region ≠ (0 : BitVec 6) ∧
                   kA.stamp = (st128.bulk (nodeAt 0 11 10 / (4096 : BulkId))).region.toNat)) ∧
     kA.body ≠ Body.dropped)
    ∧ (((st129.router nA).ins =
       [(8 * 3 + 3, { flits := [fB], behind := [], age := 7, promoted := false, served := false })]) ∧
     ((st129.island (nA / (4096 : BulkId))).ageLimit = 0 ∨ 7 ≠ (st129.island (nA / (4096 : BulkId))).ageLimit) ∧
     3 < 5 ∧
     3 < 8 ∧
     (st129.bulk (nA / (4096 : BulkId))).failed = false ∧
     st129.packets.find? fB.pkt = some kB ∧
     st129.portFor nA kB.dst = 4 ∧
     (((st129.router nA).out 4).holder 3 = if fB.idx = 0 then none else some fB.pkt) ∧
     ((st129.router nA).out 4).budgetAt 3 ≠ 0 ∧
     st129.nextNode nA 4 kB.dst = none ∧
     (∀ (m : Msg), kB.body ≠ Body.msg m) ∧
     (∀ (q n : ℕ) (bs : List Byte), kB.body ≠ Body.linkOut q n bs ∧ kB.body ≠ Body.linkIn q n bs) ∧
     kB.body ≠ Body.dropped ∧
     (fB.idx ≠ 0 ∨ st129.accepts fB.pkt kB = true))
    ∧ (((st131.router gwE).ins =
       [(8 * 1 + 3, { flits := [fA], behind := [], age := 7, promoted := false, served := false })]) ∧
     ((st131.island (gwE / (4096 : BulkId))).ageLimit = 0 ∨ 7 ≠ (st131.island (gwE / (4096 : BulkId))).ageLimit) ∧
     1 < 5 ∧
     3 < 8 ∧
     (st131.bulk (gwE / (4096 : BulkId))).failed = false ∧
     st131.packets.find? fA.pkt = some kG ∧
     st131.portFor gwE kG.dst = 0 ∧
     (((st131.router gwE).out 0).holder 3 = if fA.idx = 0 then none else some fA.pkt) ∧
     ((st131.router gwE).out 0).budgetAt 3 ≠ 0 ∧
     st131.nextNode gwE 0 kG.dst = some (6192, 4) ∧
     ((st131.router 6192).buf 4 3).flits.length < 4 ∧
     isGateway gwE = true ∧
     0 = 0 ∧
     fA.idx = 0 ∧
     kG.body ≠ Body.dropped ∧
     kG.stamp ≠ 63 ∧
     (st131.bulk (gwE / (4096 : BulkId))).gate = (0 : BitVec 2) ∧
     fA.pkt < st131.serial)
    ∧ (((sBody.router (tileNode (5 : TileName))).ins =
       [(8 * 4 + 2, { flits := [fMid], behind := [], age := 7, promoted := false, served := false })]) ∧
     ((sBody.island (tileNode (5 : TileName) / (4096 : BulkId))).ageLimit = 0 ∨
       7 ≠ (sBody.island (tileNode (5 : TileName) / (4096 : BulkId))).ageLimit) ∧
     4 < 5 ∧
     2 < 8 ∧
     (sBody.bulk (tileNode (5 : TileName) / (4096 : BulkId))).failed = false ∧
     sBody.packets.find? fMid.pkt = some kBody ∧
     sBody.portFor (tileNode (5 : TileName)) kBody.dst = 4 ∧
     (((sBody.router (tileNode (5 : TileName))).out 4).holder 2 =
       if fMid.idx = 0 then none else some fMid.pkt) ∧
     ((sBody.router (tileNode (5 : TileName))).out 4).budgetAt 2 ≠ 0 ∧
     sBody.nextNode (tileNode (5 : TileName)) 4 kBody.dst = none ∧
     kBody.body = Body.msg bodyMsg ∧
     kBody.entry = some 2 ∧
     fMid.idx ≠ 0 ∧
     fMid.last = false ∧
     MemCanonical sBody)
    ∧ (((st268.router gwE).ins =
       [(8 * 1 + 3,
           { flits := [fMidG], behind := [], age := 7, promoted := false, served := false })]) ∧
     ((st268.island (gwE / (4096 : BulkId))).ageLimit = 0 ∨ 7 ≠ (st268.island (gwE / (4096 : BulkId))).ageLimit) ∧
     1 < 5 ∧
     3 < 8 ∧
     (st268.bulk (gwE / (4096 : BulkId))).failed = false ∧
     st268.packets.find? fMidG.pkt = some kDrop ∧
     st268.portFor gwE kDrop.dst = 0 ∧
     (((st268.router gwE).out 0).holder 3 = if fMidG.idx = 0 then none else some fMidG.pkt) ∧
     ((st268.router gwE).out 0).budgetAt 3 ≠ 0 ∧
     st268.nextNode gwE 0 kDrop.dst = some (6192, 4) ∧
     isGateway gwE = true ∧
     0 = 0 ∧
     kDrop.body = Body.dropped ∧
     fMidG.last = false)
    ∧ (((st269.router gwE).ins =
       [(8 * 1 + 3,
           { flits := [fEndG], behind := [], age := 7, promoted := false, served := false })]) ∧
     ((st269.island (gwE / (4096 : BulkId))).ageLimit = 0 ∨ 7 ≠ (st269.island (gwE / (4096 : BulkId))).ageLimit) ∧
     1 < 5 ∧
     3 < 8 ∧
     (st269.bulk (gwE / (4096 : BulkId))).failed = false ∧
     st269.packets.find? fEndG.pkt = some kDrop ∧
     st269.portFor gwE kDrop.dst = 0 ∧
     (((st269.router gwE).out 0).holder 3 = if fEndG.idx = 0 then none else some fEndG.pkt) ∧
     ((st269.router gwE).out 0).budgetAt 3 ≠ 0 ∧
     st269.nextNode gwE 0 kDrop.dst = some (6192, 4) ∧
     isGateway gwE = true ∧
     0 = 0 ∧
     kDrop.body = Body.dropped ∧
     fEndG.last = true)
    ∧ (((st270.router nP).ins =
       [(8 * 3 + 3,
           { flits := [fEndG], behind := [], age := 7, promoted := false, served := false })]) ∧
     ((st270.island (nP / (4096 : BulkId))).ageLimit = 0 ∨ 7 ≠ (st270.island (nP / (4096 : BulkId))).ageLimit) ∧
     3 < 5 ∧
     3 < 8 ∧
     (st270.bulk (nP / (4096 : BulkId))).failed = false ∧
     st270.packets.find? fEndG.pkt = some kLO ∧
     st270.portFor nP kLO.dst = 4 ∧
     (((st270.router nP).out 4).holder 3 = if fEndG.idx = 0 then none else some fEndG.pkt) ∧
     ((st270.router nP).out 4).budgetAt 3 ≠ 0 ∧
     (1 : BulkId) < (80 : BulkId) ∧
     1 < 8 ∧
     st270.nextNode nP 4 kLO.dst = none ∧
     fEndG.idx ≠ 0 ∧
     fEndG.last = true ∧
     kLO.body = Body.linkOut (8 * (1 : BulkId) + 1) 3 [(1 : Byte), (2 : Byte), (3 : Byte)] ∧
     (st270.port (1 : BulkId) 1).st ≠ (0 : BitVec 2))
    ∧ (((st271.router nP).ins =
       [(8 * 3 + 3,
           { flits := [fEndG], behind := [], age := 7, promoted := false, served := false })]) ∧
     ((st271.island (nP / (4096 : BulkId))).ageLimit = 0 ∨ 7 ≠ (st271.island (nP / (4096 : BulkId))).ageLimit) ∧
     3 < 5 ∧
     3 < 8 ∧
     (st271.bulk (nP / (4096 : BulkId))).failed = false ∧
     st271.packets.find? fEndG.pkt = some kLI ∧
     st271.portFor nP kLI.dst = 4 ∧
     (((st271.router nP).out 4).holder 3 = if fEndG.idx = 0 then none else some fEndG.pkt) ∧
     ((st271.router nP).out 4).budgetAt 3 ≠ 0 ∧
     (1 : BulkId) < (80 : BulkId) ∧
     1 < 8 ∧
     st271.nextNode nP 4 kLI.dst = none ∧
     fEndG.idx ≠ 0 ∧
     fEndG.last = true ∧
     kLI.body = Body.linkIn (8 * (1 : BulkId) + 1) 3 [(1 : Byte), (2 : Byte), (3 : Byte)]) := by
  refine ⟨?_, ⟨?_, ?_, ?_, ?_, ?_, ?_, ?_, ?_, ?_, ?_, fun _ => Body.noConfusion, fun _ _ _ => ⟨Body.noConfusion, Body.noConfusion⟩, ?_⟩, ?_, ?_, ?_, ?_, ?_, ?_⟩ <;> repeat' first | decide +kernel | constructor

theorem witness_NetworkForwards_1 :
    ((field (st128.island (nA / (4096 : BulkId))).arbcfg 32 10 = 0 ∨
       ((st128.router nA).buf 1 3).age ≠ field (st128.island (nA / (4096 : BulkId))).arbcfg 32 10))
    ∧ (((st130.router nA).buf 4 3).flits ≠ [] ∧
     field (st130.island (nA / (4096 : BulkId))).arbcfg 32 10 ≠ 0 ∧
     ((st130.router nA).buf 4 3).age = field (st130.island (nA / (4096 : BulkId))).arbcfg 32 10) := by repeat' first | decide +kernel | constructor

theorem witness_StationsTranslate_0 :
    (Arrived 60 pk14 st132 ∧
     pk14.body = Body.req rSt ∧
     bit rSt.addr 63 = true ∧
     st132.hasStation (pk14.dst / 4096) = true ∧
     rSt.hLevel = false ∧
     rSt.counted = false ∧
     pk14.ranges = none ∧
     (∀ (c : BulkId) (n : BitVec 3) (a : ℕ), rSt.who.origin ≠ Origin.core c n a) ∧
     rSt.acc = Access.store 8 [] ∧
     field rSt.addr 56 7 = 0 ∧
     bit (Sparse.get (0 : Word) (st132.station (pk14.dst / 4096)).range 0) 0 = true ∧
     (bit (Sparse.get (0 : Word) (st132.station (pk14.dst / 4096)).range 0) 11 = true ∨
       field (Sparse.get (0 : Word) (st132.station (pk14.dst / 4096)).range 0) 16 16 = rSt.pid.toNat) ∧
     (field (Sparse.get (0 : BitVec 64) (st132.station (pk14.dst / 4096)).range 1) 12 44 ≤
       field rSt.addr 0 56 / 4096) ∧
     (field rSt.addr 0 56 / 4096 ≤
       field (Sparse.get (0 : BitVec 64) (st132.station (pk14.dst / 4096)).range 2) 12 44) ∧
     bit (Sparse.get (0 : Word) (st132.station (pk14.dst / 4096)).range 0) 3 = true ∧
     field (Sparse.get (0 : Word) (st132.station (pk14.dst / 4096)).range 0) 6 2 ≠ 3 ∧
     (field (Sparse.get (0 : BitVec 64) (st132.station (pk14.dst / 4096)).range 3) 12 40 *
             4096 +
           field rSt.addr 0 56 -
         field (Sparse.get (0 : BitVec 64) (st132.station (pk14.dst / 4096)).range 1) 12 44 *
           4096 <
       2 ^ 49) ∧
     ((field (Sparse.get (0 : BitVec 64) (st132.station (pk14.dst / 4096)).range 3) 12 40 *
               4096 +
             field rSt.addr 0 56 -
           field (Sparse.get (0 : BitVec 64) (st132.station (pk14.dst / 4096)).range 1) 12 44 *
             4096) /
         2 ^ 42 =
       pk14.dst / 4096) ∧
     ((field (Sparse.get (0 : BitVec 64) (st132.station (pk14.dst / 4096)).range 3) 12 40 *
               4096 +
             field rSt.addr 0 56 -
           field (Sparse.get (0 : BitVec 64) (st132.station (pk14.dst / 4096)).range 1) 12 44 *
             4096) %
         2 ^ 42 <
       102005473280) ∧
     (st132.ksel.find?
         (8 * st132.regionOf (pk14.dst / 4096) +
           field (Sparse.get (0 : Word) (st132.station (pk14.dst / 4096)).range 0) 8 3) =
       some 3) ∧
     st132.token 3 ≠ 0)
    ∧ (Arrived 60 pk15 st133 ∧
     pk15.body = Body.req rHi ∧
     bit rHi.addr 63 = true ∧
     st133.hasStation (pk15.dst / 4096) = true ∧
     rHi.hLevel = false ∧
     rHi.counted = false ∧
     pk15.ranges = none ∧
     (∀ (c : BulkId) (n : BitVec 3) (a : ℕ), rHi.who.origin ≠ Origin.core c n a) ∧
     field rHi.addr 56 7 ≠ 0 ∧
     rHi.who.origin = Origin.slot (5 : TileName) (0 : BitVec 2) 7 ∧
     rHi.also = [] ∧
     Quiet (5 : TileName) (0 : BitVec 2) 7 st133 ∧
     (st133.station (pk15.dst / 4096)).nextXid ≠ (0 : BitVec 16) ∧
     st133.xidsAt (pk15.dst / 4096) = [])
    ∧ (Arrived 60 pk16 st134 ∧
     pk16.body = Body.req rSt ∧
     bit rSt.addr 63 = true ∧
     st134.hasStation (pk16.dst / 4096) = true ∧
     rSt.hLevel = false ∧
     rSt.counted = false ∧
     pk16.ranges = none ∧
     (∀ (c : BulkId) (n : BitVec 3) (a : ℕ), rSt.who.origin ≠ Origin.core c n a) ∧
     field rSt.addr 56 7 = 0 ∧
     (st134.station (pk16.dst / 4096)).rangeHit rSt.pid (field rSt.addr 0 56) 64 0 = none ∧
     (∀ l ∈ (st134.station (pk16.dst / 4096)).cache,
       l.h = true ∨
         l.pid ≠ rSt.pid ∨ field rSt.addr 0 56 < l.va ∨ l.va + 2 ^ l.log ≤ field rSt.addr 0 56) ∧
     st134.walksAt (pk16.dst / 4096) < 128 ∧
     st134.missAhead (pk16.dst / 4096) pk16 = false)
    ∧ (st135.packets.find? 60 = some pk17 ∧
     pk17.place = Place.walking walk1 ∧
     pk17.body = Body.req rSt ∧
     rSt.hLevel = false ∧
     walk1.restart = true)
    ∧ (sWalk.packets.find? 60 = some pk18 ∧
     pk18.place = Place.walking walk2 ∧
     pk18.body = Body.req rSt ∧
     rSt.hLevel = false ∧
     walk2.restart = false ∧
     walk2.level = 4 ∧
     walk2.entry < 2 ^ 51 ∧
     isEdgeBulk (paBulk walk2.entry) = true ∧
     sWalk.lineOk walk2.entry (sWalk.token 0) = true ∧
     sWalk.eccBad (physKey walk2.entry) 8 = false ∧
     bit (sWalk.mem.word (physKey walk2.entry)) 0 = true)
    ∧ (Arrived 60 kTr st136 ∧
     kTr.body = Body.treq rLine 65536 (0 : BitVec 2) 3 ∧
     rLine.also = [] ∧
     rLine.acc = Access.store 64 (indexed (List.replicate 64 (9 : Byte))) ∧
     st136.behindOwn 60 kTr rLine = false ∧
     (List.replicate 64 (9 : Byte)).length = 64 ∧
     rLine.counted = false ∧
     65536 < 2 ^ 51 ∧
     65536 % 64 = 0 ∧
     (st136.seal 65536).minor ≠ 127 ∧
     st136.eccBad (physKey 65536) 64 = false ∧
     MemCanonical st136) := by
  refine ⟨⟨?_, ?_, ?_, ?_, ?_, ?_, ?_, fun _ _ _ => Origin.noConfusion, ?_⟩, ⟨?_, ?_, ?_, ?_, ?_, ?_, ?_, fun _ _ _ => Origin.noConfusion, ?_⟩, ⟨?_, ?_, ?_, ?_, ?_, ?_, ?_, fun _ _ _ => Origin.noConfusion, ?_⟩, ?_, ?_, ?_⟩ <;> repeat' first | decide +kernel | constructor

theorem witness_StationsTranslate_1 :
    (sSeal.seals.find? (64 * 5 + 1) = some seal1 ∧
     (64 * 5 + 1) / 64 = 5 ∧
     seal1.minor = 127 ∧
     Sparse.get 0 sSeal.majors 5 ≠ 2 ^ 64 - 1) := by decide +kernel

theorem witness_StationsTranslate_2 :
    (((sInv.station (0 : BulkId)).invBusy = false ∨ ∀ n ∈ (sInv.station (0 : BulkId)).invWaits, sInv.packets.find? n = none))
    ∧ ((sInv2.station (0 : BulkId)).invBusy = true ∧
     61 ∈ (sInv2.station (0 : BulkId)).invWaits ∧
     sInv2.packets.find? 61 = some kTr)
    ∧ (st137.packets.find? 60 = some kStall ∧
     kStall.dst / 4096 = (0 : BulkId) ∧
     kStall.place = Place.stalled (BitVec.ofNat 16 9) (1 : BitVec 4)) := by repeat' first | decide +kernel | constructor

theorem witness_DeanControlsTiles_0 :
    (Arrived 60 kRec st138 ∧
     kRec.body = Body.trapRec aRec ∧
     (st138.island aRec.island).tqtail + (1 : BitVec 10) = (st138.island aRec.island).tqhead)
    ∧ (Arrived 60 kRec sRing2 ∧
     kRec.body = Body.trapRec aRec ∧
     (sRing2.island aRec.island).tqtail + (1 : BitVec 10) ≠ (sRing2.island aRec.island).tqhead ∧
     (DeanMaps aRec.island
       (place 63 1 + (sRing2.island aRec.island).tqbase +
         BitVec.ofNat 64 (32 * (sRing2.island aRec.island).tqtail.toNat))
       32 32800 Right.w sRing2) ∧
     32800 < 2 ^ 49 ∧
     isEdgeBulk (paBulk 32800) = true ∧
     32800 % 2 ^ 42 < 103079215104 ∧
     32800 % 64 + 32 ≤ 64 ∧
     sRing2.lineOk 32800 (sRing2.token 0) = true ∧
     (sRing2.seal 32800).minor ≠ 127 ∧
     sRing2.eccBad (physKey 32800) 32 = false ∧
     MemCanonical sRing2)
    ∧ (Arrived 60 kRec sRing3 ∧
     kRec.body = Body.trapRec aRec ∧
     (DeanMaps aRec.island
       (place 63 1 + (sRing3.island aRec.island).tqbase +
         BitVec.ofNat 64 (32 * (sRing3.island aRec.island).tqtail.toNat))
       32 32800 Right.w sRing3) ∧
     32800 < 2 ^ 49 ∧
     isEdgeBulk (paBulk 32800) = true ∧
     32800 % 2 ^ 42 < 103079215104 ∧
     32800 % 64 + 32 ≤ 64 ∧
     sRing3.lineOk 32800 (sRing3.token 0) = false) := by
  refine ⟨?_, ⟨?_, ?_, ?_, ⟨⟨{ h := true, pid := 0, va := 0, log := 30, pte := 0xF }, by decide +kernel⟩, by decide +kernel, by decide +kernel, by decide +kernel, by decide +kernel⟩, ?_⟩, ⟨?_, ?_, ⟨⟨{ h := true, pid := 0, va := 0, log := 30, pte := 0xF }, by decide +kernel⟩, by decide +kernel, by decide +kernel, by decide +kernel, by decide +kernel⟩, ?_⟩⟩ <;> repeat' first | decide +kernel | constructor

theorem witness_DeanControlsTiles_1 :
    (st139.isAnchor (st139.anchor 1) = true ∧
     st139.regionOf (st139.anchor 1) = 1 ∧
     bit (st139.island (st139.anchor 1)).invctl 0 = true ∧
     ((st139.island (st139.anchor 1)).idle.toNat <
       2 ^ max 10 (min 30 (field (st139.island (st139.anchor 1)).invctl 1 5))))
    ∧ (st140.isAnchor (st140.anchor 1) = true ∧
     st140.regionOf (st140.anchor 1) = 1 ∧
     bit (st140.island (st140.anchor 1)).invctl 0 = true ∧
     (2 ^ max 10 (min 30 (field (st140.island (st140.anchor 1)).invctl 1 5)) ≤
       (st140.island (st140.anchor 1)).idle.toNat)) := by repeat' first | decide +kernel | constructor

theorem witness_DeanControlsTiles_2 :
    (8 * (scratchKey (5 : TileName) 64 / 8) = scratchKey (5 : TileName) 64 ∧
     (5 : TileName) < (2 : TileName) ^ 19 ∧
     64 < 2 ^ 24 ∧
     st141.ecc.find? (scratchKey (5 : TileName) 64 / 8) = some false)
    ∧ (8 * (scratchKey (5 : TileName) 64 / 8) = scratchKey (5 : TileName) 64 ∧
     (5 : TileName) < (2 : TileName) ^ 19 ∧
     64 < 2 ^ 24 ∧
     st142.ecc.find? (scratchKey (5 : TileName) 64 / 8) = some true ∧
     (st142.island (TileName.ret (5 : TileName))).eccUnc ≠ (65535 : BitVec 16)) := by repeat' first | decide +kernel | constructor

theorem witness_DeanControlsTiles_3 :
    ((st143.slot (5 : TileName) (0 : BitVec 2)).state = SlotState.parked)
    ∧ (((st143.slot (5 : TileName) (0 : BitVec 2)).state = SlotState.parked ∨
       (st143.slot (5 : TileName) (0 : BitVec 2)).state = SlotState.ready ∨
         (st143.slot (5 : TileName) (0 : BitVec 2)).state = SlotState.waiting) ∧
     (st143.tile (5 : TileName)).mat.zeros = [] ∧
     (∀ (n : ℕ) (q : Packet) (a : BitVec 16) (b : BitVec 4), (n, q) ∈ st143.packets → q.place ≠ Place.stalled a b) ∧
     (∀ w ∈ st143.watches, (st143.slot (5 : TileName) (0 : BitVec 2)).ctx.watchedBy w = false))
    ∧ (bit (st143.tile (5 : TileName)).dbgCtl 0 = true ∧
     field (st143.tile (5 : TileName)).dbgCtl 3 2 = BitVec.toNat (0 : BitVec 2) ∧
     (st143.slot (5 : TileName) (0 : BitVec 2)).state = SlotState.parked ∧
     field (1281 : BitVec 64) 0 8 ≠ 0)
    ∧ ((st144.slot (5 : TileName) (0 : BitVec 2)).state ≠ SlotState.parked)
    ∧ (bit (st144.tile (5 : TileName)).dbgCtl 0 = false)
    ∧ (((st145.slot (5 : TileName) (0 : BitVec 2)).state = SlotState.free ∨
       (st145.slot (5 : TileName) (0 : BitVec 2)).state = SlotState.migrated ∨
         (st145.slot (5 : TileName) (0 : BitVec 2)).state = SlotState.preempted))
    ∧ (((st293.slot (5 : TileName) (0 : BitVec 2)).state = SlotState.parked ∨
       (st293.slot (5 : TileName) (0 : BitVec 2)).state = SlotState.ready ∨
         (st293.slot (5 : TileName) (0 : BitVec 2)).state = SlotState.waiting) ∧
     (st293.tile (5 : TileName)).mat.zeros = [] ∧
     (∀ (n : ℕ) (q : Packet) (a : BitVec 16) (b : BitVec 4), (n, q) ∈ st293.packets → q.place ≠ Place.stalled a b) ∧
     watch1 ∈ st293.watches ∧
     (st293.slot (5 : TileName) (0 : BitVec 2)).ctx.watchedBy watch1 = true ∧
     (∀ v ∈ st293.watches,
       v ≠ watch1 →
         v.id ≠ watch1.id ∧
           (st293.slot (5 : TileName) (0 : BitVec 2)).ctx.watchedBy v = false ∧
             (v.home = watch1.home → v.active = true))) := by
  refine ⟨?_, ⟨?_, ?_, fun n q a b h => (by cases (show (n, q) ∈ ([] : List (Nat × Packet)) from h)), ?_⟩, ?_, ?_, ?_, ?_, ⟨?_, ?_, fun n q a b h => (by cases (show (n, q) ∈ ([] : List (Nat × Packet)) from h)), ?_⟩⟩ <;> repeat' first | decide +kernel | constructor

theorem witness_DeanControlsTiles_4 :
    ((st141.tile (5 : TileName)).pre = (0 : BitVec 2) ∧
     (st141.tile (5 : TileName)).fab.state ≠ (1 : BitVec 2))
    ∧ ((st143.tile (5 : TileName)).pre ≠ (1 : BitVec 2))
    ∧ ((st147.tile (5 : TileName)).pre = (0 : BitVec 2) ∧
     (st147.tile (5 : TileName)).fab.state = (1 : BitVec 2) ∧
     (st147.domain (st147.domainOf (5 : TileName))).run = none ∧
     (∀ (j : BitVec 2), (st147.slot (5 : TileName) j).dwaited = st147.slot (5 : TileName) j))
    ∧ (((st148.tile (5 : TileName)).pre = (1 : BitVec 2) ∨ (st148.tile (5 : TileName)).pre = (3 : BitVec 2)))
    ∧ ((st148.tile (5 : TileName)).pre = (1 : BitVec 2))
    ∧ ((st149.tile (5 : TileName)).pre = (2 : BitVec 2) ∧
     (st149.tile (5 : TileName)).image.toNat < 2 ^ 51 ∧
     st149.walkWaits (st149.coreStation (TileName.ret (5 : TileName)) true) = false ∧
     (st149.tile (5 : TileName)).preSave = true)
    ∧ ((st150.tile (5 : TileName)).pre = (2 : BitVec 2) ∧
     (st150.tile (5 : TileName)).image.toNat < 2 ^ 51 ∧
     st150.walkWaits (st150.coreStation (TileName.ret (5 : TileName)) true) = false ∧
     (st150.tile (5 : TileName)).preSave = false)
    ∧ ((5 : TileName) < (2 : TileName) ^ 19 ∧
     (st156.tile (5 : TileName)).pre = (2 : BitVec 2) ∧
     2 ^ 51 ≤ 2 ^ 51 + 1191936 ∧
     2 ^ 51 + 1191936 + 226304 ≤ 2 ^ 52 ∧
     MemCanonical st156 ∧
     (st156.tile (5 : TileName)).preSave = true ∧
     (DeanMaps (TileName.ret (5 : TileName)) (place 12 (st156.tile (5 : TileName)).image.toNat) 226304
       (2 ^ 51 + 1191936) Right.w st156))
    ∧ ((5 : TileName) < (2 : TileName) ^ 19 ∧
     (st157.tile (5 : TileName)).pre = (2 : BitVec 2) ∧
     2 ^ 51 ≤ 2 ^ 51 + 1191936 ∧
     2 ^ 51 + 1191936 + 226304 ≤ 2 ^ 52 ∧
     MemCanonical st157 ∧
     (st157.tile (5 : TileName)).preSave = false ∧
     (DeanMaps (TileName.ret (5 : TileName)) (place 12 (st157.tile (5 : TileName)).image.toNat) 226304
       (2 ^ 51 + 1191936) Right.r st157) ∧
     (field ((fun o => st157.mem.word (physKey (2 ^ 51 + 1191936) + o)) 163872) 0 32 =
       st157.mapgen.toNat)) := by
  refine ⟨?_, ?_, ?_, ?_, ?_, ?_, ?_, ⟨?_, ?_, ?_, ?_, ?_, ?_, ⟨⟨{ h := true, pid := 0, va := 0, log := 30, pte := 0xF + 2 ^ 51 }, by decide +kernel⟩, by decide +kernel, by decide +kernel, by decide +kernel, by decide +kernel⟩⟩, ⟨?_, ?_, ?_, ?_, ?_, ?_, ⟨⟨{ h := true, pid := 0, va := 0, log := 30, pte := 0xF + 2 ^ 51 }, by decide +kernel⟩, by decide +kernel, by decide +kernel, by decide +kernel, by decide +kernel⟩, ?_⟩⟩ <;> repeat' first | decide +kernel | constructor

theorem witness_DeanControlsTiles_5 :
    ((∀ j ∈ ((st146.tile (5 : TileName)).queue (BitVec.ofNat 3 (BitVec.toNat (1193046 : BitVec 64)))).inUse,
       (((st146.tile (5 : TileName)).queue (BitVec.ofNat 3 (BitVec.toNat (1193046 : BitVec 64)))).entry
               j).seq.toNat ≠
         field (1193046 : BitVec 64) 16 16))
    ∧ (2 ∈ ((st151.tile (5 : TileName)).queue (BitVec.ofNat 3 (BitVec.toNat (589827 : BitVec 64)))).inUse ∧
     ((((st151.tile (5 : TileName)).queue (BitVec.ofNat 3 (BitVec.toNat (589827 : BitVec 64)))).entry
           2).full =
       true) ∧
     ((((st151.tile (5 : TileName)).queue (BitVec.ofNat 3 (BitVec.toNat (589827 : BitVec 64)))).entry
           2).here =
       true) ∧
     ((((st151.tile (5 : TileName)).queue (BitVec.ofNat 3 (BitVec.toNat (589827 : BitVec 64)))).entry
             2).seq.toNat =
       field (589827 : BitVec 64) 16 16) ∧
     (∀ j ∈ ((st151.tile (5 : TileName)).queue (BitVec.ofNat 3 (BitVec.toNat (589827 : BitVec 64)))).inUse,
       j ≠ 2 →
         (((st151.tile (5 : TileName)).queue (BitVec.ofNat 3 (BitVec.toNat (589827 : BitVec 64)))).entry j).seq ≠
           (((st151.tile (5 : TileName)).queue (BitVec.ofNat 3 (BitVec.toNat (589827 : BitVec 64)))).entry
               2).seq) ∧
     ((((st151.tile (5 : TileName)).queue (BitVec.ofNat 3 (BitVec.toNat (589827 : BitVec 64)))).entry
           2).taken =
       false) ∧
     ((((st151.tile (5 : TileName)).queue (BitVec.ofNat 3 (BitVec.toNat (589827 : BitVec 64)))).entry
           2).fired =
       false))
    ∧ (2 ∈ ((st152.tile (5 : TileName)).queue (BitVec.ofNat 3 (BitVec.toNat (589827 : BitVec 64)))).inUse ∧
     ((((st152.tile (5 : TileName)).queue (BitVec.ofNat 3 (BitVec.toNat (589827 : BitVec 64)))).entry
           2).full =
       true) ∧
     ((((st152.tile (5 : TileName)).queue (BitVec.ofNat 3 (BitVec.toNat (589827 : BitVec 64)))).entry
           2).here =
       true) ∧
     ((((st152.tile (5 : TileName)).queue (BitVec.ofNat 3 (BitVec.toNat (589827 : BitVec 64)))).entry
             2).seq.toNat =
       field (589827 : BitVec 64) 16 16) ∧
     (∀ j ∈ ((st152.tile (5 : TileName)).queue (BitVec.ofNat 3 (BitVec.toNat (589827 : BitVec 64)))).inUse,
       j ≠ 2 →
         (((st152.tile (5 : TileName)).queue (BitVec.ofNat 3 (BitVec.toNat (589827 : BitVec 64)))).entry j).seq ≠
           (((st152.tile (5 : TileName)).queue (BitVec.ofNat 3 (BitVec.toNat (589827 : BitVec 64)))).entry
               2).seq) ∧
     ((((st152.tile (5 : TileName)).queue (BitVec.ofNat 3 (BitVec.toNat (589827 : BitVec 64)))).entry
             2).taken =
         true ∨
       (((st152.tile (5 : TileName)).queue (BitVec.ofNat 3 (BitVec.toNat (589827 : BitVec 64)))).entry
             2).fired =
         true))
    ∧ ((st153.tile (5 : TileName)).fab.changes = [] ∧
     254 % 2 = 0 ∧
     254 < 256 ∧
     (st153.tile (5 : TileName)).fab.state = (0 : BitVec 2))
    ∧ ((st154.tile (5 : TileName)).fab.changes = [] ∧
     254 % 2 = 0 ∧
     254 < 256 ∧
     (st154.tile (5 : TileName)).fab.state ≠ (0 : BitVec 2))
    ∧ (3 < 64 ∧
     7 < 8)
    ∧ (3 < 32 ∧
     (st155.tile (5 : TileName)).tableOpen = false)
    ∧ (31 < 32 ∧
     (sTab.tile (5 : TileName)).tableOpen = true) := by repeat' first | decide +kernel | constructor

theorem witness_OfficeDieWorks_0 :
    (3 < 256)
    ∧ (st158.office.open8 = true ∧
     st158.office.hostFailed ≠ (3 : BitVec 2) ∧
     4 ≤ (st158.hostQueue 3).sqsize.toNat ∧
     (st158.hostQueue 3).sqsize.toNat ≤ 12 ∧
     ((st158.hostQueue 3).sqhead.toNat % 2 ^ (st158.hostQueue 3).sqsize.toNat ≠
       (st158.hostQueue 3).sqtail.toNat % 2 ^ (st158.hostQueue 3).sqsize.toNat) ∧
     (((st158.hostQueue 3).cqtail.toNat + 1) % 2 ^ (st158.hostQueue 3).sqsize.toNat ≠
       (st158.hostQueue 3).cqhead.toNat % 2 ^ (st158.hostQueue 3).sqsize.toNat) ∧
     MemCanonical st158 ∧
     (st158.hostQueue 3).owner = 0)
    ∧ (st159.office.open8 = true ∧
     st159.office.hostFailed ≠ (3 : BitVec 2) ∧
     4 ≤ (st159.hostQueue 3).sqsize.toNat ∧
     (st159.hostQueue 3).sqsize.toNat ≤ 12 ∧
     ((st159.hostQueue 3).sqhead.toNat % 2 ^ (st159.hostQueue 3).sqsize.toNat ≠
       (st159.hostQueue 3).sqtail.toNat % 2 ^ (st159.hostQueue 3).sqsize.toNat) ∧
     (((st159.hostQueue 3).cqtail.toNat + 1) % 2 ^ (st159.hostQueue 3).sqsize.toNat ≠
       (st159.hostQueue 3).cqhead.toNat % 2 ^ (st159.hostQueue 3).sqsize.toNat) ∧
     MemCanonical st159 ∧
     (st159.hostQueue 3).owner ≠ 0 ∧
     (st159.hostQueue 3).owner < 64 ∧
     (st159.mem.word
         (2 ^ 67 +
           BitVec.toNat
             ((st159.hostQueue 3).sqbase +
               BitVec.ofNat 64
                 (64 * ((st159.hostQueue 3).sqhead.toNat % 2 ^ (st159.hostQueue 3).sqsize.toNat)))) =
       tileId (5 : TileName)) ∧
     (5 : TileName) < (2 : TileName) ^ 19 ∧
     st159.tileExists (5 : TileName) = true ∧
     st159.regionOf (TileName.ret (5 : TileName)) ≠ (st159.hostQueue 3).owner)
    ∧ (st160.office.open8 = true ∧
     st160.office.hostFailed ≠ (3 : BitVec 2) ∧
     4 ≤ (st160.hostQueue 3).sqsize.toNat ∧
     (st160.hostQueue 3).sqsize.toNat ≤ 12 ∧
     ((st160.hostQueue 3).sqhead.toNat % 2 ^ (st160.hostQueue 3).sqsize.toNat ≠
       (st160.hostQueue 3).sqtail.toNat % 2 ^ (st160.hostQueue 3).sqsize.toNat) ∧
     (((st160.hostQueue 3).cqtail.toNat + 1) % 2 ^ (st160.hostQueue 3).sqsize.toNat ≠
       (st160.hostQueue 3).cqhead.toNat % 2 ^ (st160.hostQueue 3).sqsize.toNat) ∧
     MemCanonical st160 ∧
     (st160.hostQueue 3).owner ≠ 0 ∧
     (st160.hostQueue 3).owner < 64 ∧
     (st160.mem.word
         (2 ^ 67 +
           BitVec.toNat
             ((st160.hostQueue 3).sqbase +
               BitVec.ofNat 64
                 (64 * ((st160.hostQueue 3).sqhead.toNat % 2 ^ (st160.hostQueue 3).sqsize.toNat)))) =
       tileId (5 : TileName)) ∧
     (5 : TileName) < (2 : TileName) ^ 19 ∧
     st160.tileExists (5 : TileName) = true ∧
     st160.regionOf (TileName.ret (5 : TileName)) = (st160.hostQueue 3).owner ∧
     (256 <
         ofBytes
           (st160.mem.readN
             (2 ^ 67 +
                 BitVec.toNat
                   ((st160.hostQueue 3).sqbase +
                     BitVec.ofNat 64
                       (64 *
                         ((st160.hostQueue 3).sqhead.toNat % 2 ^ (st160.hostQueue 3).sqsize.toNat))) +
               12)
             2) ∨
       BitVec.toNat
             (st160.mem.word
               (2 ^ 67 +
                   BitVec.toNat
                     ((st160.hostQueue 3).sqbase +
                       BitVec.ofNat 64
                         (64 *
                           ((st160.hostQueue 3).sqhead.toNat % 2 ^ (st160.hostQueue 3).sqsize.toNat))) +
                 16)) %
           8 ≠
         0))
    ∧ (st161.office.open8 = true ∧
     st161.office.hostFailed ≠ (3 : BitVec 2) ∧
     4 ≤ (st161.hostQueue 3).sqsize.toNat ∧
     (st161.hostQueue 3).sqsize.toNat ≤ 12 ∧
     ((st161.hostQueue 3).sqhead.toNat % 2 ^ (st161.hostQueue 3).sqsize.toNat ≠
       (st161.hostQueue 3).sqtail.toNat % 2 ^ (st161.hostQueue 3).sqsize.toNat) ∧
     (((st161.hostQueue 3).cqtail.toNat + 1) % 2 ^ (st161.hostQueue 3).sqsize.toNat ≠
       (st161.hostQueue 3).cqhead.toNat % 2 ^ (st161.hostQueue 3).sqsize.toNat) ∧
     MemCanonical st161 ∧
     (st161.hostQueue 3).owner ≠ 0 ∧
     (st161.hostQueue 3).owner < 64 ∧
     (st161.mem.word
         (2 ^ 67 +
           BitVec.toNat
             ((st161.hostQueue 3).sqbase +
               BitVec.ofNat 64
                 (64 * ((st161.hostQueue 3).sqhead.toNat % 2 ^ (st161.hostQueue 3).sqsize.toNat)))) =
       tileId (5 : TileName)) ∧
     (5 : TileName) < (2 : TileName) ^ 19 ∧
     st161.tileExists (5 : TileName) = true ∧
     st161.regionOf (TileName.ret (5 : TileName)) = (st161.hostQueue 3).owner ∧
     (ofBytes
         (st161.mem.readN
           (2 ^ 67 +
               BitVec.toNat
                 ((st161.hostQueue 3).sqbase +
                   BitVec.ofNat 64
                     (64 *
                       ((st161.hostQueue 3).sqhead.toNat % 2 ^ (st161.hostQueue 3).sqsize.toNat))) +
             12)
           2) ≤
       256) ∧
     (BitVec.toNat
           (st161.mem.word
             (2 ^ 67 +
                 BitVec.toNat
                   ((st161.hostQueue 3).sqbase +
                     BitVec.ofNat 64
                       (64 *
                         ((st161.hostQueue 3).sqhead.toNat % 2 ^ (st161.hostQueue 3).sqsize.toNat))) +
               16)) %
         8 =
       0)) := by repeat' first | decide +kernel | constructor

theorem witness_OfficeDieWorks_1 :
    ((0 : BulkId) < (80 : BulkId))
    ∧ ((0 : BulkId) < (80 : BulkId) ∧
     sMany.regionOf (0 : BulkId) ≠ 0 ∧
     (∀ c < (80 : BulkId), sMany.regionOf c = sMany.regionOf (0 : BulkId) → (sMany.bulk c).st = BulkState.live))
    ∧ (isEdgeBulk (0 : BulkId) = true) := by repeat' first | decide +kernel | constructor

theorem witness_OfficeDieWorks_2 :
    (st158.office.recovery = false)
    ∧ ((∀ b < (80 : BulkId),
       ¬(fun b =>
               (sPow.powerOf b).inreset = false ∧ (sPow.office.flow < 150 ∨ (1760 : ℤ) ≤ (sPow.powerOf b).hot.toInt))
             b ∧
         ¬(fun b => (sPow.powerOf b).inreset = true ∧ 450 ≤ sPow.office.flow ∧ (sPow.powerOf b).hot.toInt < (1440 : ℤ))
             b))
    ∧ ((3 : BulkId) < (80 : BulkId) ∧
     (sPow.office.modcapNext <
       sPow.capSum - (sPow.powerOf (3 : BulkId)).capNext + max 120000 (min 325000 15000000) + 3900000))
    ∧ (sRec.office.recovery = true)
    ∧ ((3 : BulkId) < (80 : BulkId) ∧
     (st162.capSum - (st162.powerOf (3 : BulkId)).capNext + max 120000 (min 325000 0) + 3900000 ≤
       st162.office.modcapNext))
    ∧ ((0 : BulkId) < (80 : BulkId) ∧
     (∀ c < (80 : BulkId),
       c ≠ (0 : BulkId) →
         ¬(fun b =>
                 (st294.powerOf b).inreset = false ∧
                   (st294.office.flow < 150 ∨ (1760 : ℤ) ≤ (st294.powerOf b).hot.toInt))
               c ∧
           ¬(fun b =>
                 (st294.powerOf b).inreset = true ∧
                   450 ≤ st294.office.flow ∧ (st294.powerOf b).hot.toInt < (1440 : ℤ))
               c) ∧
     ((st294.powerOf (0 : BulkId)).inreset = false ∧
       (st294.office.flow < 150 ∨ (1760 : ℤ) ≤ (st294.powerOf (0 : BulkId)).hot.toInt)))
    ∧ ((0 : BulkId) < (80 : BulkId) ∧
     (∀ c < (80 : BulkId),
       c ≠ (0 : BulkId) →
         ¬(fun b =>
                 (st295.powerOf b).inreset = false ∧
                   (st295.office.flow < 150 ∨ (1760 : ℤ) ≤ (st295.powerOf b).hot.toInt))
               c ∧
           ¬(fun b =>
                 (st295.powerOf b).inreset = true ∧
                   450 ≤ st295.office.flow ∧ (st295.powerOf b).hot.toInt < (1440 : ℤ))
               c) ∧
     ((st295.powerOf (0 : BulkId)).inreset = true ∧
       450 ≤ st295.office.flow ∧ (st295.powerOf (0 : BulkId)).hot.toInt < (1440 : ℤ))) := by repeat' first | decide +kernel | constructor

theorem witness_MailboxAnswers_0 :
    (Rings (1 : BitVec 2) 1 st163) := by repeat' first | decide +kernel | constructor

theorem witness_MailboxAnswers_1 :
    (Rings (1 : BitVec 2) 2 st164 ∧
     st164.regions.find? (st164.mail (1 : BitVec 2) 8 1) = none)
    ∧ (Rings (1 : BitVec 2) 2 st165 ∧
     st165.regions.find? (st165.mail (1 : BitVec 2) 8 1) = some reg1) := by repeat' first | decide +kernel | constructor

theorem witness_MailboxAnswers_2 :
    (Rings (1 : BitVec 2) 3 st166 ∧
     st166.mail (1 : BitVec 2) 8 2 = 1 ∧
     (st166.mail (1 : BitVec 2) 10 2 = 0 ∨ 32 < st166.mail (1 : BitVec 2) 10 2))
    ∧ (Rings (1 : BitVec 2) 3 st167 ∧
     st167.mail (1 : BitVec 2) 8 2 = 1 ∧
     1 ≤ st167.mail (1 : BitVec 2) 10 2 ∧
     st167.mail (1 : BitVec 2) 10 2 ≤ 32 ∧
     st167.regions.find? (st167.mail (1 : BitVec 2) 10 2) = none ∧
     st167.scrubs.find? (st167.mail (1 : BitVec 2) 10 2) = none)
    ∧ (Rings (1 : BitVec 2) 3 st168 ∧
     st168.mail (1 : BitVec 2) 8 2 = 1 ∧
     1 ≤ st168.mail (1 : BitVec 2) 10 2 ∧
     st168.mail (1 : BitVec 2) 10 2 ≤ 32 ∧
     (st168.regions.find? (st168.mail (1 : BitVec 2) 10 2) ≠ none ∨
       st168.scrubs.find? (st168.mail (1 : BitVec 2) 10 2) ≠ none))
    ∧ (Rings (1 : BitVec 2) 3 st169 ∧
     st169.mail (1 : BitVec 2) 8 2 = 2 ∧
     st169.mail (1 : BitVec 2) 10 2 < 80)
    ∧ (Rings (1 : BitVec 2) 3 st170 ∧
     st170.mail (1 : BitVec 2) 8 2 = 2 ∧
     80 ≤ st170.mail (1 : BitVec 2) 10 2)
    ∧ (Rings (1 : BitVec 2) 3 st171 ∧
     st171.mail (1 : BitVec 2) 8 2 = 3)
    ∧ (Rings (1 : BitVec 2) 3 st172 ∧
     st172.mail (1 : BitVec 2) 8 2 = 4 ∧
     st172.office.log[st172.mail (1 : BitVec 2) 10 2]? = some ((258 : Word), (5 : Word)))
    ∧ (Rings (1 : BitVec 2) 3 st173 ∧
     st173.mail (1 : BitVec 2) 8 2 = 4 ∧
     st173.office.log.length ≤ st173.mail (1 : BitVec 2) 10 2)
    ∧ (Rings (1 : BitVec 2) 3 st174 ∧
     st174.mail (1 : BitVec 2) 8 2 = 5)
    ∧ (Rings (1 : BitVec 2) 3 st175 ∧
     st175.mail (1 : BitVec 2) 8 2 = 6 ∧
     1 ≤ st175.mail (1 : BitVec 2) 10 2 ∧
     st175.mail (1 : BitVec 2) 10 2 ≤ 32 ∧
     st175.regions.find? (st175.mail (1 : BitVec 2) 10 2) = some r7)
    ∧ (Rings (1 : BitVec 2) 3 st176 ∧
     st176.mail (1 : BitVec 2) 8 2 = 6 ∧
     1 ≤ st176.mail (1 : BitVec 2) 10 2 ∧
     st176.mail (1 : BitVec 2) 10 2 ≤ 32 ∧
     st176.regions.find? (st176.mail (1 : BitVec 2) 10 2) = none)
    ∧ (Rings (1 : BitVec 2) 3 st177 ∧
     st177.mail (1 : BitVec 2) 8 2 = 7) := by repeat' first | decide +kernel | constructor

theorem witness_MailboxAnswers_3 :
    (Rings (2 : BitVec 2) 4 st178 ∧
     st178.office.owner = some (1 : BitVec 2))
    ∧ (Rings (2 : BitVec 2) 4 st179 ∧
     st179.office.owner = none) := by repeat' first | decide +kernel | constructor

theorem witness_MailboxAnswers_4 :
    (Rings (2 : BitVec 2) 5 st180 ∧
     st180.office.owner ≠ some (2 : BitVec 2))
    ∧ (Rings (1 : BitVec 2) 5 st181 ∧
     st181.office.owner = some (1 : BitVec 2) ∧
     (st181.mail (1 : BitVec 2) 8 1 < 4 ∨ st181.mail (1 : BitVec 2) 8 1 = 255))
    ∧ (Rings (1 : BitVec 2) 5 st185 ∧
     st185.office.owner = some (1 : BitVec 2) ∧
     4 ≤ st185.mail (1 : BitVec 2) 8 1 ∧
     st185.mail (1 : BitVec 2) 8 1 ≠ 255) := by repeat' first | decide +kernel | constructor

theorem witness_MailboxAnswers_5 :
    (Rings (2 : BitVec 2) 22 st182 ∧
     st182.office.owner ≠ some (2 : BitVec 2))
    ∧ (Rings (1 : BitVec 2) 22 st183 ∧
     st183.office.owner = some (1 : BitVec 2) ∧
     (field (BitVec.ofNat 64 (st183.mail (1 : BitVec 2) 8 8)) 0 2 = 0 ∨
       80 ≤ field (BitVec.ofNat 64 (st183.mail (1 : BitVec 2) 8 8)) 8 7 ∨
         4032 ≤ st183.office.log.length))
    ∧ (Rings (1 : BitVec 2) 22 st184 ∧
     st184.office.owner = some (1 : BitVec 2) ∧
     field (BitVec.ofNat 64 (st184.mail (1 : BitVec 2) 8 8)) 0 2 ≠ 0 ∧
     field (BitVec.ofNat 64 (st184.mail (1 : BitVec 2) 8 8)) 8 7 < 80 ∧
     (field (BitVec.ofNat 64 (st184.mail (1 : BitVec 2) 8 8)) 0 2 ≠ 3 →
       isBlockSite (field (BitVec.ofNat 64 (st184.mail (1 : BitVec 2) 8 8)) 16 7) = true) ∧
     st184.office.log.length < 4032 ∧
     (∀ e ∈ st184.office.log,
       sameUnit e.1
           (BitVec.ofNat 64
             (field (BitVec.ofNat 64 (st184.mail (1 : BitVec 2) 8 8)) 0 2 + 4 +
                   field (BitVec.ofNat 64 (st184.mail (1 : BitVec 2) 8 8)) 8 7 *
                     2 ^ 8 +
                 (if
                       field (BitVec.ofNat 64 (st184.mail (1 : BitVec 2) 8 8)) 0 2 =
                         3 then
                     0
                   else field (BitVec.ofNat 64 (st184.mail (1 : BitVec 2) 8 8)) 16 7) *
                   2 ^ 16 +
               (if
                     field (BitVec.ofNat 64 (st184.mail (1 : BitVec 2) 8 8)) 0 2 =
                       1 then
                   field (BitVec.ofNat 64 (st184.mail (1 : BitVec 2) 8 8)) 24 4
                 else 0) *
                 2 ^ 24)) =
         false)) := by
  refine ⟨?_, ?_, ⟨?_, ?_, ?_, ?_, ?_, ?_, fun e he => by
    rcases List.mem_singleton.mp (show e ∈ [((0x102 : Word), (5 : Word))] from he) with rfl
    decide +kernel⟩⟩ <;> repeat' first | decide +kernel | constructor

theorem witness_RegionsLive_0 :
    (Rings (1 : BitVec 2) 16 st186 ∧
     st186.office.owner = some (1 : BitVec 2) ∧
     st186.mail (1 : BitVec 2) 8 16 = 2 ^ (8 : BulkId) ∧
     (8 : BulkId) < (80 : BulkId) ∧
     st186.hasStation (8 : BulkId) = true ∧
     (st186.bulk (8 : BulkId)).st = BulkState.unassigned ∧
     (st186.bulk (8 : BulkId)).retired = false ∧
     st186.migs = [] ∧
     1 ≤ st186.mail (1 : BitVec 2) 24 1 ∧
     st186.mail (1 : BitVec 2) 24 1 ≤ 8 ∧
     st186.mail (1 : BitVec 2) 24 1 ≤ st186.freeSlots.length ∧
     1 ≤ 2 ∧
     2 ≤ 32 ∧
     st186.regions.find? 2 = none ∧
     ((st186.scrubRec 2).phase = (0 : BitVec 4) ∨ (st186.scrubRec 2).phase = (4 : BitVec 4)) ∧
     (∀ (p : ℕ), 1 ≤ p → p < 2 → st186.regions.find? p ≠ none))
    ∧ (Rings (2 : BitVec 2) 16 st187 ∧
     st187.office.owner ≠ some (2 : BitVec 2))
    ∧ (Rings (2 : BitVec 2) 17 st188 ∧
     st188.office.owner ≠ some (2 : BitVec 2))
    ∧ (Rings (1 : BitVec 2) 17 st189 ∧
     st189.office.owner = some (1 : BitVec 2) ∧
     ((st189.scrubRec (st189.mail (1 : BitVec 2) 8 1)).phase = (0 : BitVec 4) ∨
       (st189.scrubRec (st189.mail (1 : BitVec 2) 8 1)).phase = (4 : BitVec 4)) ∧
     st189.regions.find? (st189.mail (1 : BitVec 2) 8 1) = none)
    ∧ (Rings (1 : BitVec 2) 17 st190 ∧
     st190.office.owner = some (1 : BitVec 2) ∧
     ((st190.scrubRec (st190.mail (1 : BitVec 2) 8 1)).phase = (0 : BitVec 4) ∨
       (st190.scrubRec (st190.mail (1 : BitVec 2) 8 1)).phase = (4 : BitVec 4)) ∧
     st190.regions.find? (st190.mail (1 : BitVec 2) 8 1) ≠ none)
    ∧ (Rings (1 : BitVec 2) 21 st191 ∧
     st191.office.owner = some (1 : BitVec 2) ∧
     st191.regions.find? (st191.mail (1 : BitVec 2) 8 1) ≠ none ∧
     st191.mail (1 : BitVec 2) 9 1 = 0 ∧
     st191.freeSlots.head? = some 2 ∧
     1 < 8 ∧
     st191.ksel.find? (8 * st191.mail (1 : BitVec 2) 8 1 + 1) = none ∧
     (∀ j < 1, st191.ksel.find? (8 * st191.mail (1 : BitVec 2) 8 1 + j) ≠ none))
    ∧ (Rings (1 : BitVec 2) 21 sKeys ∧
     sKeys.office.owner = some (1 : BitVec 2) ∧
     sKeys.regions.find? (sKeys.mail (1 : BitVec 2) 8 1) ≠ none ∧
     sKeys.mail (1 : BitVec 2) 9 1 = 1 ∧
     1 ≤ sKeys.mail (1 : BitVec 2) 10 1 ∧
     sKeys.mail (1 : BitVec 2) 10 1 < 8 ∧
     (sKeys.ksel.find?
         (8 * sKeys.mail (1 : BitVec 2) 8 1 + sKeys.mail (1 : BitVec 2) 10 1) =
       some 5))
    ∧ (Rings (1 : BitVec 2) 21 st192 ∧
     st192.office.owner = some (1 : BitVec 2) ∧
     st192.regions.find? (st192.mail (1 : BitVec 2) 8 1) ≠ none ∧
     st192.mail (1 : BitVec 2) 9 1 = 1 ∧
     st192.mail (1 : BitVec 2) 10 1 = 0)
    ∧ (Rings (1 : BitVec 2) 18 st193 ∧
     st193.office.owner = some (1 : BitVec 2) ∧
     st193.mail (1 : BitVec 2) 8 1 ≠ 0 ∧
     (∃ b < (80 : BulkId), st193.regionOf b = st193.mail (1 : BitVec 2) 8 1) ∧
     (∀ b < (80 : BulkId),
       st193.regionOf b = st193.mail (1 : BitVec 2) 8 1 → (st193.bulk b).st = BulkState.live) ∧
     st193.mail (1 : BitVec 2) 9 1 = 0)
    ∧ (Rings (1 : BitVec 2) 18 st194 ∧
     st194.office.owner = some (1 : BitVec 2) ∧
     st194.mail (1 : BitVec 2) 8 1 ≠ 0 ∧
     (∃ b < (80 : BulkId), st194.regionOf b = st194.mail (1 : BitVec 2) 8 1) ∧
     (∀ b < (80 : BulkId),
       st194.regionOf b = st194.mail (1 : BitVec 2) 8 1 → (st194.bulk b).st = BulkState.live) ∧
     st194.mail (1 : BitVec 2) 9 1 = 1)
    ∧ (MemCanonical st195 ∧
     st195.job (1 : BitVec 2) = Job.preempt 1 true 2 ∧
     (∀ u ∈ st195.everyTile 1, (st195.tile u).pre = (3 : BitVec 2)))
    ∧ (st196.job (1 : BitVec 2) = Job.preempt 1 false 2 ∧
     (∀ u ∈ st196.everyTile 1, (st196.tile u).pre = (3 : BitVec 2)))
    ∧ (Rings (1 : BitVec 2) 19 sRel ∧
     sRel.office.owner = some (1 : BitVec 2) ∧
     sRel.regions.find? (sRel.mail (1 : BitVec 2) 8 1) = some relR ∧
     relR.released = true ∧
     relR.imageGen = sRel.mapgen ∧
     relR.bulks.Nodup ∧
     (∀ b ∈ relR.bulks, b < (80 : BulkId) ∧ (sRel.bulk b).st = BulkState.unassigned ∧ (sRel.bulk b).retired = false) ∧
     ((sRel.scrubRec (sRel.mail (1 : BitVec 2) 8 1)).phase = (0 : BitVec 4) ∨
       (sRel.scrubRec (sRel.mail (1 : BitVec 2) 8 1)).phase = (4 : BitVec 4)))
    ∧ (MemCanonical sRes ∧
     sRes.job (1 : BitVec 2) = Job.restore 1 1 ∧
     (∀ u ∈ (sRes.region 1).images, (sRes.tile u).pre = (3 : BitVec 2)))
    ∧ (Rings (1 : BitVec 2) 20 sWin ∧
     sWin.mail (1 : BitVec 2) 10 1 = 0 ∧
     sWin.mail (1 : BitVec 2) 8 1 = 0 ∧
     0 < 80 ∧
     sWin.mail (1 : BitVec 2) 9 1 < 4 ∧
     bulkBeyond 0 (sWin.mail (1 : BitVec 2) 9 1) = some (1 : BulkId) ∧
     inBulk (1 : BulkId) (entryDword (sWin.mailBytes (1 : BitVec 2) 256 32) 1) = true ∧
     inBulk (1 : BulkId) (entryDword (sWin.mailBytes (1 : BitVec 2) 256 32) 2) = true ∧
     1 < 8 ∧
     bit (sWin.window 0 (sWin.mail (1 : BitVec 2) 9 1) 1 0) 31 = false ∧
     (∀ j < 1, bit (sWin.window 0 (sWin.mail (1 : BitVec 2) 9 1) j 0) 31 = true))
    ∧ (Rings (1 : BitVec 2) 20 st197 ∧
     st197.mail (1 : BitVec 2) 10 1 = 1 ∧
     st197.mail (1 : BitVec 2) 8 1 = (0 : BulkId) ∧
     (0 : BulkId) < (80 : BulkId) ∧
     st197.mail (1 : BitVec 2) 9 1 < 4 ∧
     st197.mail (1 : BitVec 2) 11 1 < 8 ∧
     bulkBeyond (0 : BulkId) (st197.mail (1 : BitVec 2) 9 1) = some (1 : BulkId) ∧
     (bit
         (st197.window (0 : BulkId) (st197.mail (1 : BitVec 2) 9 1)
           (st197.mail (1 : BitVec 2) 11 1) 0)
         31 =
       true))
    ∧ (st198.job (1 : BitVec 2) = Job.withdraw (0 : BulkId) 3 [60] ∧
     (∀ x ∈ st198.windowedOpen, x.2.2.2 ∉ [60]) ∧
     MemCanonical st198) := by repeat' first | decide +kernel | constructor

theorem witness_RegionsLive_1 :
    ((st199.scrubRec 1).phase = (1 : BitVec 4) ∧
     st199.stationsHold 1 (st199.scrubRec 1).bulks = false)
    ∧ ((sHeld.scrubRec 1).phase = (1 : BitVec 4) ∧
     sHeld.stationsHold 1 (sHeld.scrubRec 1).bulks = true)
    ∧ ((st200.scrubRec 1).phase = (2 : BitVec 4) ∧
     (st200.scrubRec 1).bulks ≠ [] ∧
     (∀ (m : BitVec 2), st200.job m ≠ Job.teardown 1))
    ∧ ((sTd.scrubRec 1).phase = (2 : BitVec 4) ∧
     (sTd.scrubRec 1).bulks ≠ [] ∧
     sTd.job (1 : BitVec 2) = Job.teardown 1 ∧
     (∀ (n : BitVec 2), n ≠ (1 : BitVec 2) → sTd.job n ≠ Job.teardown 1) ∧
     MemCanonical sTd)
    ∧ ((sFin.scrubRec 1).phase = (3 : BitVec 4) ∧
     (sFin.scrubRec 1).broken = none ∧
     (∀ b ∈ (sFin.scrubRec 1).bulks,
       sFin.scrubEnded (sFin.scrubRec 1) b = true ∧ 512 ≤ sFin.sinceMilestone (sFin.scrubRec 1).doneAt b) ∧
     (∀ (m : BitVec 2), sFin.job m ≠ Job.preempt 1 false 3))
    ∧ ((sBrk.scrubRec 1).phase = (3 : BitVec 4) ∧
     (sBrk.scrubRec 1).broken = some (0 : BulkId) ∧
     2048 ≤ BitVec.toNat (sBrk.bulk (0 : BulkId)).timer) := by repeat' first | decide +kernel | constructor

theorem witness_RegionsLive_2 :
    ((st201.scrubRec (st201.regionOf (0 : BulkId))).phase = (3 : BitVec 4) ∧
     (0 : BulkId) ∈ (st201.scrubRec (st201.regionOf (0 : BulkId))).bulks ∧
     (st201.scrubRec (st201.regionOf (0 : BulkId))).broken = none ∧
     Sparse.get 0 (st201.scrubRec (st201.regionOf (0 : BulkId))).prog (0 : BulkId) = 0 ∧
     32768 ≤ st201.sinceMilestone (st201.scrubRec (st201.regionOf (0 : BulkId))).since (0 : BulkId))
    ∧ ((st202.scrubRec (st202.regionOf (0 : BulkId))).phase = (3 : BitVec 4) ∧
     (0 : BulkId) ∈ (st202.scrubRec (st202.regionOf (0 : BulkId))).bulks ∧
     (st202.scrubRec (st202.regionOf (0 : BulkId))).broken = none ∧
     Sparse.get 0 (st202.scrubRec (st202.regionOf (0 : BulkId))).prog (0 : BulkId) = 0 ∧
     st202.sinceMilestone (st202.scrubRec (st202.regionOf (0 : BulkId))).since (0 : BulkId) < 32768)
    ∧ ((sBlk3.scrubRec (sBlk3.regionOf (0 : BulkId))).phase = (3 : BitVec 4) ∧
     (0 : BulkId) ∈ (sBlk3.scrubRec (sBlk3.regionOf (0 : BulkId))).bulks ∧
     (sBlk3.scrubRec (sBlk3.regionOf (0 : BulkId))).broken = none ∧
     sBlk3.nextBlock (sBlk3.scrubRec (sBlk3.regionOf (0 : BulkId))) (0 : BulkId) = some 4 ∧
     2560 ≤ sBlk3.sinceMilestone (sBlk3.scrubRec (sBlk3.regionOf (0 : BulkId))).since (0 : BulkId)) := by repeat' first | decide +kernel | constructor

theorem witness_LinksWork_0 :
    ((st203.port (1 : BulkId) 1).st = (1 : BitVec 2) ∧
     ((if (st203.port (1 : BulkId) 1).active = true then (st203.port (1 : BulkId) 1).tx[1]
       else (st203.port (1 : BulkId) 1).tx[0]) =
       some (5 : BitVec 32)) ∧
     (st203.port (1 : BulkId) 1).run = false ∧
     (st203.port (1 : BulkId) 1).counter.toNat + 1 < 4293918720 ∧
     (st203.port (1 : BulkId) 1).nakDue = [(7 : BitVec 16), (8 : BitVec 16)])
    ∧ ((st204.port (1 : BulkId) 1).st = (1 : BitVec 2) ∧
     ((if (st204.port (1 : BulkId) 1).active = true then (st204.port (1 : BulkId) 1).tx[1]
       else (st204.port (1 : BulkId) 1).tx[0]) =
       some (5 : BitVec 32)) ∧
     (st204.port (1 : BulkId) 1).run = false ∧
     (st204.port (1 : BulkId) 1).counter.toNat + 1 < 4293918720 ∧
     (st204.port (1 : BulkId) 1).nakDue = [] ∧
     (st204.port (1 : BulkId) 1).ackDue = [(9 : BitVec 16)])
    ∧ ((st205.port (1 : BulkId) 1).st = (1 : BitVec 2) ∧
     ((if (st205.port (1 : BulkId) 1).active = true then (st205.port (1 : BulkId) 1).tx[1]
       else (st205.port (1 : BulkId) 1).tx[0]) =
       some (5 : BitVec 32)) ∧
     (st205.port (1 : BulkId) 1).run = false ∧
     (st205.port (1 : BulkId) 1).counter.toNat + 1 < 4293918720 ∧
     (st205.port (1 : BulkId) 1).nakDue = [] ∧
     (st205.port (1 : BulkId) 1).ackDue = [] ∧
     (st205.port (1 : BulkId) 1).replay = [rp 3 true] ++ [replay1, rp 5 false] ∧
     (∀ y ∈ [rp 3 true], y.sent = true) ∧
     replay1.sent = false ∧
     (∀ y ∈ [rp 3 true] ++ [rp 5 false], y.seq ≠ replay1.seq))
    ∧ ((st206.port (1 : BulkId) 1).st = (1 : BitVec 2) ∧
     ((if (st206.port (1 : BulkId) 1).active = true then (st206.port (1 : BulkId) 1).tx[1]
       else (st206.port (1 : BulkId) 1).tx[0]) =
       some (5 : BitVec 32)) ∧
     (st206.port (1 : BulkId) 1).run = false ∧
     (st206.port (1 : BulkId) 1).counter.toNat + 1 < 4293918720 ∧
     (st206.port (1 : BulkId) 1).nakDue = [] ∧
     (st206.port (1 : BulkId) 1).ackDue = [] ∧
     (∀ y ∈ (st206.port (1 : BulkId) 1).replay, y.sent = true) ∧
     (st206.port (1 : BulkId) 1).txq = [outgoing1, og 7 1 [(1 : Byte)] none] ∧
     (st206.port (1 : BulkId) 1).replay.length < 64 ∧
     (st206.port (1 : BulkId) 1).injArm = false)
    ∧ ((st206.port (1 : BulkId) 1).st = (1 : BitVec 2) ∧
     ((if (st206.port (1 : BulkId) 1).active = true then (st206.port (1 : BulkId) 1).tx[1]
       else (st206.port (1 : BulkId) 1).tx[0]) =
       some (5 : BitVec 32)) ∧
     (st206.port (1 : BulkId) 1).run = false ∧
     (st206.port (1 : BulkId) 1).counter.toNat + 1 < 4293918720 ∧
     (st206.port (1 : BulkId) 1).nakDue = [] ∧
     (st206.port (1 : BulkId) 1).ackDue = [] ∧
     (∀ y ∈ (st206.port (1 : BulkId) 1).replay, y.sent = true) ∧
     (st206.port (1 : BulkId) 1).quiet < 4096)
    ∧ ((st207.port (1 : BulkId) 1).st = (1 : BitVec 2) ∧
     ((if (st207.port (1 : BulkId) 1).active = true then (st207.port (1 : BulkId) 1).tx[1]
       else (st207.port (1 : BulkId) 1).tx[0]) =
       some (5 : BitVec 32)) ∧
     (st207.port (1 : BulkId) 1).run = false ∧
     (st207.port (1 : BulkId) 1).counter.toNat + 1 < 4293918720 ∧
     (st207.port (1 : BulkId) 1).nakDue = [] ∧
     (st207.port (1 : BulkId) 1).ackDue = [] ∧
     (∀ y ∈ (st207.port (1 : BulkId) 1).replay, y.sent = true) ∧
     64 ≤ (st207.port (1 : BulkId) 1).replay.length)
    ∧ ((st207.port (1 : BulkId) 1).st = (1 : BitVec 2) ∧
     ((if (st207.port (1 : BulkId) 1).active = true then (st207.port (1 : BulkId) 1).tx[1]
       else (st207.port (1 : BulkId) 1).tx[0]) =
       some (5 : BitVec 32)) ∧
     (st207.port (1 : BulkId) 1).run = false ∧
     (st207.port (1 : BulkId) 1).counter.toNat + 1 < 4293918720 ∧
     (st207.port (1 : BulkId) 1).nakDue = [] ∧
     (st207.port (1 : BulkId) 1).ackDue = [] ∧
     (∀ y ∈ (st207.port (1 : BulkId) 1).replay, y.sent = true) ∧
     (st207.port (1 : BulkId) 1).txq = [])
    ∧ ((st208.port (1 : BulkId) 1).st = (1 : BitVec 2) ∧
     ((if (st208.port (1 : BulkId) 1).active = true then (st208.port (1 : BulkId) 1).tx[1]
       else (st208.port (1 : BulkId) 1).tx[0]) =
       some (5 : BitVec 32)) ∧
     (st208.port (1 : BulkId) 1).run = false ∧
     (st208.port (1 : BulkId) 1).counter.toNat + 1 < 4293918720 ∧
     (st208.port (1 : BulkId) 1).nakDue = [] ∧
     (st208.port (1 : BulkId) 1).ackDue = [] ∧
     (∀ y ∈ (st208.port (1 : BulkId) 1).replay, y.sent = true) ∧
     (st208.port (1 : BulkId) 1).txq = [] ∧
     4096 ≤ (st208.port (1 : BulkId) 1).quiet)
    ∧ ((st209.port (1 : BulkId) 1).st = (1 : BitVec 2) ∧
     ((if (st209.port (1 : BulkId) 1).active = true then (st209.port (1 : BulkId) 1).tx[1]
       else (st209.port (1 : BulkId) 1).tx[0]) =
       some (5 : BitVec 32)) ∧
     (st209.port (1 : BulkId) 1).run = false ∧
     4293918720 ≤ (st209.port (1 : BulkId) 1).counter.toNat ∧
     (st209.port (1 : BulkId) 1).counter.toNat < 4294967294 ∧
     ((if (st209.port (1 : BulkId) 1).active = true then (st209.port (1 : BulkId) 1).tx[0]
       else (st209.port (1 : BulkId) 1).tx[1]) =
       some (8 : BitVec 32)) ∧
     (st209.port (1 : BulkId) 1).injArm = false ∧
     (st209.port (1 : BulkId) 1).replay.length < 64)
    ∧ ((st210.port (1 : BulkId) 1).st = (1 : BitVec 2) ∧
     ((if (st210.port (1 : BulkId) 1).active = true then (st210.port (1 : BulkId) 1).tx[1]
       else (st210.port (1 : BulkId) 1).tx[0]) =
       some (5 : BitVec 32)) ∧
     (st210.port (1 : BulkId) 1).run = false ∧
     4293918720 ≤ (st210.port (1 : BulkId) 1).counter.toNat ∧
     ((if (st210.port (1 : BulkId) 1).active = true then (st210.port (1 : BulkId) 1).tx[0]
       else (st210.port (1 : BulkId) 1).tx[1]) =
       some (8 : BitVec 32)) ∧
     64 ≤ (st210.port (1 : BulkId) 1).replay.length ∧
     (st210.port (1 : BulkId) 1).nakDue = [] ∧
     (st210.port (1 : BulkId) 1).ackDue = [] ∧
     (∀ y ∈ (st210.port (1 : BulkId) 1).replay, y.sent = true)) := by repeat' first | decide +kernel | constructor

theorem witness_LinksWork_1 :
    ((st249.port (1 : BulkId) 1).st = (1 : BitVec 2) ∧
     ((if (st249.port (1 : BulkId) 1).active = true then (st249.port (1 : BulkId) 1).tx[1]
       else (st249.port (1 : BulkId) 1).tx[0]) =
       some (5 : BitVec 32)) ∧
     (st249.port (1 : BulkId) 1).run = true ∧
     (st249.port (1 : BulkId) 1).counter.toNat + 1 < 4293918720 ∧
     (st249.port (1 : BulkId) 1).nakDue = [] ∧
     (st249.port (1 : BulkId) 1).ackDue = [] ∧
     (∀ y ∈ (st249.port (1 : BulkId) 1).replay, y.sent = true) ∧
     (st249.port (1 : BulkId) 1).sentTest < (st249.port (1 : BulkId) 1).runCount.toNat ∧
     (st249.port (1 : BulkId) 1).replay.length < 64 ∧
     (st249.port (1 : BulkId) 1).injArm = false)
    ∧ ((st250.port (1 : BulkId) 1).st = (1 : BitVec 2) ∧
     ((if (st250.port (1 : BulkId) 1).active = true then (st250.port (1 : BulkId) 1).tx[1]
       else (st250.port (1 : BulkId) 1).tx[0]) =
       some (5 : BitVec 32)) ∧
     (st250.port (1 : BulkId) 1).run = true ∧
     (st250.port (1 : BulkId) 1).counter.toNat + 1 < 4293918720 ∧
     (st250.port (1 : BulkId) 1).nakDue = [] ∧
     (st250.port (1 : BulkId) 1).ackDue = [] ∧
     (∀ y ∈ (st250.port (1 : BulkId) 1).replay, y.sent = true) ∧
     (st250.port (1 : BulkId) 1).runCount.toNat ≤ (st250.port (1 : BulkId) 1).sentTest) := by repeat' first | decide +kernel | constructor

theorem witness_LinksWork_2 :
    ((st211.port (1 : BulkId) 1).inbox = [frame1] ∧
     (st211.port (1 : BulkId) 1).st = (1 : BitVec 2) ∧
     frame1.type = (0 : BitVec 4) ∧
     (frame1.tag = true ∧
       (if frame1.ksel = true then (st211.port (1 : BulkId) 1).rx[1]
         else (st211.port (1 : BulkId) 1).rx[0]) =
         some frame1.gen) ∧
     frame1.seq = (st211.port (1 : BulkId) 1).rxSeq ∧
     frame1.chan ≠ (240 : Byte) ∧
     frame1.chan ≠ (241 : Byte) ∧
     (st211.port (1 : BulkId) 1).unacked + 1 < 16)
    ∧ ((st212.port (1 : BulkId) 1).inbox = [frame2] ∧
     (st212.port (1 : BulkId) 1).st = (1 : BitVec 2) ∧
     frame2.type = (0 : BitVec 4) ∧
     (frame2.tag = true ∧
       (if frame2.ksel = true then (st212.port (1 : BulkId) 1).rx[1]
         else (st212.port (1 : BulkId) 1).rx[0]) =
         some frame2.gen) ∧
     frame2.seq = (st212.port (1 : BulkId) 1).rxSeq ∧
     frame2.chan ≠ (240 : Byte) ∧
     frame2.chan ≠ (241 : Byte) ∧
     15 ≤ (st212.port (1 : BulkId) 1).unacked)
    ∧ ((st213.port (1 : BulkId) 1).inbox = [frame3] ∧
     (st213.port (1 : BulkId) 1).st = (1 : BitVec 2) ∧
     frame3.type = (0 : BitVec 4) ∧
     (frame3.tag = true ∧
       (if frame3.ksel = true then (st213.port (1 : BulkId) 1).rx[1]
         else (st213.port (1 : BulkId) 1).rx[0]) =
         some frame3.gen) ∧
     frame3.seq ≠ (st213.port (1 : BulkId) 1).rxSeq ∧
     ((fun seq base => decide ((seq - base).toNat < 2 ^ 15)) frame3.seq (st213.port (1 : BulkId) 1).rxSeq =
       true))
    ∧ ((st214.port (1 : BulkId) 1).inbox = [frame4] ∧
     (st214.port (1 : BulkId) 1).st = (1 : BitVec 2) ∧
     frame4.type = (0 : BitVec 4) ∧
     (frame4.tag = true ∧
       (if frame4.ksel = true then (st214.port (1 : BulkId) 1).rx[1]
         else (st214.port (1 : BulkId) 1).rx[0]) =
         some frame4.gen) ∧
     ((fun seq base => decide ((seq - base).toNat < 2 ^ 15)) frame4.seq (st214.port (1 : BulkId) 1).rxSeq =
       false))
    ∧ ((st215.port (1 : BulkId) 1).inbox = [frame5] ∧
     (st215.port (1 : BulkId) 1).st = (1 : BitVec 2) ∧
     frame5.type = (0 : BitVec 4) ∧
     (¬(frame5.tag = true ∧
         (if frame5.ksel = true then (st215.port (1 : BulkId) 1).rx[1]
           else (st215.port (1 : BulkId) 1).rx[0]) =
           some frame5.gen)))
    ∧ ((st216.port (1 : BulkId) 1).inbox = [frame6] ∧
     (st216.port (1 : BulkId) 1).st = (1 : BitVec 2) ∧
     4 < frame6.type.toNat)
    ∧ ((st217.port (1 : BulkId) 1).inbox = [frame7] ∧
     (st217.port (1 : BulkId) 1).st = (1 : BitVec 2) ∧
     frame7.type = (1 : BitVec 4) ∧
     (frame7.tag = true ∧
       (if frame7.ksel = true then (st217.port (1 : BulkId) 1).rx[1]
         else (st217.port (1 : BulkId) 1).rx[0]) =
         some frame7.gen) ∧
     frame7.seq = (st217.port (1 : BulkId) 1).rxSeq ∧
     (st217.port (1 : BulkId) 1).unacked + 1 < 16)
    ∧ ((st218.port (1 : BulkId) 1).inbox = [frame8] ∧
     (st218.port (1 : BulkId) 1).st = (1 : BitVec 2) ∧
     frame8.type = (2 : BitVec 4) ∧
     (frame8.tag = true ∧
       (if frame8.ksel = true then (st218.port (1 : BulkId) 1).rx[1]
         else (st218.port (1 : BulkId) 1).rx[0]) =
         some frame8.gen) ∧
     (st218.port (1 : BulkId) 1).run = false)
    ∧ ((st219.port (1 : BulkId) 1).inbox = [frame9] ∧
     (st219.port (1 : BulkId) 1).st = (1 : BitVec 2) ∧
     frame9.type = (2 : BitVec 4) ∧
     (frame9.tag = true ∧
       (if frame9.ksel = true then (st219.port (1 : BulkId) 1).rx[1]
         else (st219.port (1 : BulkId) 1).rx[0]) =
         some frame9.gen) ∧
     (st219.port (1 : BulkId) 1).run = true ∧
     (st219.port (1 : BulkId) 1).lastTest = some (3 : BitVec 16) ∧
     ((fun seq base => decide ((seq - base).toNat < 2 ^ 15)) frame9.seq (3 : BitVec 16) = true))
    ∧ ((st220.port (1 : BulkId) 1).inbox = [frame10] ∧
     (st220.port (1 : BulkId) 1).st = (1 : BitVec 2) ∧
     frame10.type = (3 : BitVec 4) ∧
     (frame10.tag = true ∧
       (if frame10.ksel = true then (st220.port (1 : BulkId) 1).rx[1]
         else (st220.port (1 : BulkId) 1).rx[0]) =
         some frame10.gen) ∧
     ((if frame10.seq = (st220.port (1 : BulkId) 1).nakSeq then (st220.port (1 : BulkId) 1).nakRun + 1
       else 1) <
       16))
    ∧ ((st221.port (1 : BulkId) 1).inbox = [frame11] ∧
     (st221.port (1 : BulkId) 1).st = (1 : BitVec 2) ∧
     frame11.type = (3 : BitVec 4) ∧
     (frame11.tag = true ∧
       (if frame11.ksel = true then (st221.port (1 : BulkId) 1).rx[1]
         else (st221.port (1 : BulkId) 1).rx[0]) =
         some frame11.gen) ∧
     (16 ≤
       if frame11.seq = (st221.port (1 : BulkId) 1).nakSeq then (st221.port (1 : BulkId) 1).nakRun + 1
       else 1) ∧
     (List.filterMap (fun x => x.origin)
         (List.map (fun x => x.load) (st221.port (1 : BulkId) 1).replay ++ (st221.port (1 : BulkId) 1).txq) =
       []))
    ∧ ((st222.port (1 : BulkId) 1).inbox = [frame12] ∧
     (st222.port (1 : BulkId) 1).st = (1 : BitVec 2) ∧
     frame12.type = (4 : BitVec 4) ∧
     (frame12.tag = true ∧
       (if frame12.ksel = true then (st222.port (1 : BulkId) 1).rx[1]
         else (st222.port (1 : BulkId) 1).rx[0]) =
         some frame12.gen))
    ∧ ((st253.port (1 : BulkId) 1).inbox = [frame13] ∧
     (st253.port (1 : BulkId) 1).st = (1 : BitVec 2) ∧
     frame13.type = (0 : BitVec 4) ∧
     (frame13.tag = true ∧
       (if frame13.ksel = true then (st253.port (1 : BulkId) 1).rx[1]
         else (st253.port (1 : BulkId) 1).rx[0]) =
         some frame13.gen) ∧
     frame13.seq = (st253.port (1 : BulkId) 1).rxSeq ∧
     frame13.chan = (241 : Byte))
    ∧ ((st254.port (1 : BulkId) 1).inbox = [frame14] ∧
     (st254.port (1 : BulkId) 1).st = (1 : BitVec 2) ∧
     frame14.type = (3 : BitVec 4) ∧
     (frame14.tag = true ∧
       (if frame14.ksel = true then (st254.port (1 : BulkId) 1).rx[1]
         else (st254.port (1 : BulkId) 1).rx[0]) =
         some frame14.gen) ∧
     (16 ≤
       if frame14.seq = (st254.port (1 : BulkId) 1).nakSeq then (st254.port (1 : BulkId) 1).nakRun + 1
       else 1) ∧
     (List.filterMap (fun x => x.origin)
         (List.map (fun x => x.load) (st254.port (1 : BulkId) 1).replay ++ (st254.port (1 : BulkId) 1).txq) =
       [kOut]) ∧
     kOut.body = Body.linkOut 9 3 [(1 : Byte), (2 : Byte), (3 : Byte)]) := by repeat' first | decide +kernel | constructor

theorem witness_LinksWork_3 :
    (0 < (st223.port (1 : BulkId) 1).unacked ∧
     8 ≤ (st223.port (1 : BulkId) 1).age) := by decide +kernel

theorem witness_LinksWork_4 :
    (((st203.port (1 : BulkId) 1).unacked = 0 ∨ (st203.port (1 : BulkId) 1).age < 8)) := by decide +kernel

theorem witness_LinksWork_5 :
    ((st223.port (1 : BulkId) 1).confirmed ≠ some (BitVec.ofNat 32 77) ∧
     (st223.port (1 : BulkId) 1).rx[0].isSome = true ∧
     (st223.port (1 : BulkId) 1).rx[0] ≠ some (BitVec.ofNat 32 77) ∧
     (st223.port (1 : BulkId) 1).rx[1] = none)
    ∧ ((st251.port (1 : BulkId) 1).confirmed = some (BitVec.ofNat 32 7) ∧
     (st251.port (1 : BulkId) 1).active = false ∧
     (st251.port (1 : BulkId) 1).tx[0].isSome = true ∧
     (st251.port (1 : BulkId) 1).tx[0] ≠ some (BitVec.ofNat 32 7) ∧
     (st251.port (1 : BulkId) 1).tx[1] = none) := by repeat' first | decide +kernel | constructor

theorem witness_LinksWork_6 :
    (bit (330245 : BitVec 64) 0 = true ∧
     (st223.port (1 : BulkId) 1).st = (1 : BitVec 2) ∧
     (st223.port (1 : BulkId) 1).run = false ∧
     BitVec.ofNat 16 (field (330245 : BitVec 64) 16 16) ≠ (0 : BitVec 16)) := by decide +kernel

theorem witness_LinksWork_7 :
    ((st252.port (1 : BulkId) 1).run = true) := by decide +kernel

theorem witness_LinksWork_9 :
    ((st224.port (1 : BulkId) 1).st = (3 : BitVec 2) ∧
     (st224.port (1 : BulkId) 1).version = none) := by decide +kernel

theorem witness_LinksWork_10 :
    ((st255.port (1 : BulkId) 1).st = (3 : BitVec 2) ∧
     (st255.port (1 : BulkId) 1).version = some (131584 : Word) ∧
     (∀ z ∈ st255.migs, z.source = false ∨ z.stage ≠ 2) ∧
     max 2 (field (131584 : Word) 16 8) ≤ min 2 (field (131584 : Word) 8 8))
    ∧ ((st256.port (1 : BulkId) 1).st = (3 : BitVec 2) ∧
     (st256.port (1 : BulkId) 1).version = some (197376 : Word) ∧
     (∀ z ∈ st256.migs, z.source = false ∨ z.stage ≠ 2) ∧
     min 2 (field (197376 : Word) 8 8) < max 2 (field (197376 : Word) 16 8)) := by repeat' first | decide +kernel | constructor

theorem witness_LinksWork_11 :
    ((st203.port (1 : BulkId) 1).st ≠ (3 : BitVec 2)) := by decide +kernel

theorem witness_MigrationsMove_0 :
    ((st225.port (1 : BulkId) 1).out = ((7 : Byte), 256, mgMsg 1) :: rst ∧
     1 < 8 ∧
     migType (mgMsg 1) = 1 ∧
     st225.freeRegion = some 3 ∧
     st225.mig? false (migId (mgMsg 1)) = none)
    ∧ ((sMgFull.port (1 : BulkId) 1).out = ((7 : Byte), 256, mgMsg 1) :: rst ∧
     1 < 8 ∧
     migType (mgMsg 1) = 1 ∧
     sMgFull.freeRegion = none)
    ∧ ((st226.port (1 : BulkId) 1).out = ((7 : Byte), 256, mgMsg 2) :: rst ∧
     1 < 8 ∧
     migType (mgMsg 2) = 2 ∧
     st226.mig? true (migId (mgMsg 2)) = some mig1 ∧
     mig1.stage = 0 ∧
     mig1.hash = migHash (mgMsg 2) ∧
     mig1.device = migDevice (mgMsg 2))
    ∧ ((st227.port (1 : BulkId) 1).out = ((7 : Byte), 256, mgMsg 2) :: rst ∧
     1 < 8 ∧
     migType (mgMsg 2) = 2 ∧
     st227.mig? true (migId (mgMsg 2)) = some mig2 ∧
     mig2.stage = 4)
    ∧ ((st228.port (1 : BulkId) 1).out = ((7 : Byte), 256, mgMsg 2) :: rst ∧
     1 < 8 ∧
     migType (mgMsg 2) = 2 ∧
     st228.mig? true (migId (mgMsg 2)) = none)
    ∧ ((st229.port (1 : BulkId) 1).out = ((7 : Byte), 256, mgMsg 3) :: rst ∧
     1 < 8 ∧
     (∀ z ∈ st229.migs, z.source = true ∨ z.port ≠ 8 * (1 : BulkId) + 1 ∨ z.stage ≠ 2) ∧
     migType (mgMsg 3) = 3 ∧
     st229.mig? false (migId (mgMsg 3)) = none)
    ∧ ((sMgKey.port (1 : BulkId) 1).out = ((7 : Byte), 256, mgMsg 3) :: rst ∧
     1 < 8 ∧
     (∀ z ∈ sMgKey.migs, z.source = true ∨ z.port ≠ 8 * (1 : BulkId) + 1 ∨ z.stage ≠ 2) ∧
     migType (mgMsg 3) = 3 ∧
     sMgKey.mig? false (migId (mgMsg 3)) = some mig3 ∧
     mig3.stage = 1 ∧
     sMgKey.ksel.find? (8 * mig3.region) = some 5 ∧
     sMgKey.token 5 ≠ 0 ∧
     (sMgKey.region mig3.region).pages = [] ∧
     (sMgKey.region mig3.region).edge = [] ∧
     (sMgKey.region mig3.region).bulks.Nodup ∧
     (∀ c ∈ (sMgKey.region mig3.region).bulks, (sMgKey.bulk c).st = BulkState.unassigned ∧ (sMgKey.bulk c).retired = false) ∧
     ((sMgKey.scrubRec mig3.region).phase = (0 : BitVec 4) ∨
       (sMgKey.scrubRec mig3.region).phase = (4 : BitVec 4)))
    ∧ ((st230.port (1 : BulkId) 1).out = ((7 : Byte), 256, mgMsg 3) :: rst ∧
     1 < 8 ∧
     (∀ z ∈ st230.migs, z.source = true ∨ z.port ≠ 8 * (1 : BulkId) + 1 ∨ z.stage ≠ 2) ∧
     migType (mgMsg 3) = 3 ∧
     st230.mig? false (migId (mgMsg 3)) = some mig4 ∧
     mig4.stage = 3)
    ∧ ((st231.port (1 : BulkId) 1).out = ((7 : Byte), 256, mgMsg 3) :: rst ∧
     1 < 8 ∧
     (∀ z ∈ st231.migs, z.source = true ∨ z.port ≠ 8 * (1 : BulkId) + 1 ∨ z.stage ≠ 2) ∧
     migType (mgMsg 3) = 3 ∧
     st231.mig? false (migId (mgMsg 3)) = some mig5 ∧
     mig5.stage = 5)
    ∧ ((st232.port (1 : BulkId) 1).out = ((7 : Byte), 256, mgMsg 4) :: rst ∧
     1 < 8 ∧
     (∀ (m : BitVec 2), st232.job m = Job.idle) ∧
     st232.mig? false (migId (mgMsg 4)) = none ∧
     st232.mig? true (migId (mgMsg 4)) = some mig6 ∧
     migType (mgMsg 4) = 4 ∧
     mig6.stage = 2)
    ∧ ((st233.port (1 : BulkId) 1).out = ((7 : Byte), 256, mgMsg 6) :: rst ∧
     1 < 8 ∧
     (∀ (m : BitVec 2), st233.job m = Job.idle) ∧
     st233.mig? false (migId (mgMsg 6)) = none ∧
     st233.mig? true (migId (mgMsg 6)) = some mig7 ∧
     migType (mgMsg 6) = 6 ∧
     mig7.stage = 0)
    ∧ ((st234.port (1 : BulkId) 1).out = ((7 : Byte), 256, mgMsg 7) :: rst ∧
     1 < 8 ∧
     (∀ (m : BitVec 2), st234.job m = Job.idle) ∧
     st234.mig? false (migId (mgMsg 7)) = none ∧
     st234.mig? true (migId (mgMsg 7)) = some mig8 ∧
     migType (mgMsg 7) = 7 ∧
     mig8.stage = 0)
    ∧ ((st235.port (1 : BulkId) 1).out = ((7 : Byte), 256, mgMsg 8) :: rst ∧
     1 < 8 ∧
     (∀ (m : BitVec 2), st235.job m = Job.idle) ∧
     st235.mig? false (migId (mgMsg 8)) = none ∧
     st235.mig? true (migId (mgMsg 8)) = some mig9 ∧
     migType (mgMsg 8) = 8 ∧
     mig9.stage = 2)
    ∧ ((st236.port (1 : BulkId) 1).out = ((7 : Byte), 256, mgMsg 5) :: rst ∧
     1 < 8 ∧
     migType (mgMsg 5) = 5 ∧
     (∀ (m : BitVec 2), st236.job m = Job.idle) ∧
     st236.mig? false (migId (mgMsg 5)) = some mig10 ∧
     mig10.stage < 2) := by repeat' first | decide +kernel | constructor

theorem witness_MigrationsMove_1 :
    ((st237.port (1 : BulkId) 1).out = [((3 : Byte), 2, [(5 : Byte), (6 : Byte), (7 : Byte)])] ∧
     (List.find? (fun y => !y.source && decide (y.port = (8 : BulkId) * (1 : BulkId) + 1) && decide (y.stage = 0))
         st237.migs =
       some mig11) ∧
     (∀ y ∈ st237.migs, y.source = false → y.id = mig11.id → y = mig11) ∧
     mig11.whole = false ∧
     padTo 64 (Config.sha512 (mig11.manifest ++ List.take 2 [(5 : Byte), (6 : Byte), (7 : Byte)])) ≠ mig11.hash)
    ∧ ((sItem2.port (1 : BulkId) 1).out = [((3 : Byte), 2, [(5 : Byte), (6 : Byte), (7 : Byte)])] ∧
     (List.find? (fun y => !y.source && decide (y.port = (8 : BulkId) * (1 : BulkId) + 1) && decide (y.stage = 0))
         sItem2.migs =
       some zi2) ∧
     (∀ y ∈ sItem2.migs, y.source = false → y.id = zi2.id → y = zi2) ∧
     zi2.whole = true ∧
     zi2.got.length + (List.take 2 [(5 : Byte), (6 : Byte), (7 : Byte)]).length < itemsLength zi2.manifest)
    ∧ ((sItem3.port (1 : BulkId) 1).out = [((3 : Byte), 2, [(5 : Byte), (6 : Byte), (7 : Byte)])] ∧
     (List.find? (fun y => !y.source && decide (y.port = (8 : BulkId) * (1 : BulkId) + 1) && decide (y.stage = 0))
         sItem3.migs =
       some zi3) ∧
     (∀ y ∈ sItem3.migs, y.source = false → y.id = zi3.id → y = zi3) ∧
     zi3.whole = true ∧
     itemsLength zi3.manifest ≤ zi3.got.length + (List.take 2 [(5 : Byte), (6 : Byte), (7 : Byte)]).length ∧
     1 < 8) := by
  refine ⟨⟨?_, ?_, ?_, ?_, fun h => absurd ((padTo_length 64 _).symm.trans (congrArg List.length h)) (by decide +kernel)⟩, ?_, ?_⟩ <;> repeat' first | decide +kernel | constructor

theorem witness_MigrationsMove_2 :
    (Rings (2 : BitVec 2) 23 st238 ∧
     st238.mail (2 : BitVec 2) 9 1 = 0 ∧
     st238.office.owner ≠ some (2 : BitVec 2))
    ∧ (Rings (1 : BitVec 2) 23 st239 ∧
     st239.mail (1 : BitVec 2) 9 1 = 0 ∧
     st239.office.owner = some (1 : BitVec 2) ∧
     st239.regions.find? (st239.mail (1 : BitVec 2) 8 1) = none)
    ∧ (Rings (1 : BitVec 2) 23 st240 ∧
     st240.mail (1 : BitVec 2) 9 1 = 0 ∧
     st240.office.owner = some (1 : BitVec 2) ∧
     st240.regions.find? (st240.mail (1 : BitVec 2) 8 1) = some reg2 ∧
     st240.ports = [(9, upPort)] ∧
     (9, upPort).2.st = (1 : BitVec 2) ∧
     reg2.released = true ∧
     reg2.saved = [] ∧
     (∀ z ∈ st240.migs, z.source = false ∨ z.region ≠ st240.mail (1 : BitVec 2) 8 1) ∧
     padTo 16 (9, upPort).2.peer ≠ st240.mailBytes (1 : BitVec 2) 16 16)
    ∧ (Rings (1 : BitVec 2) 23 sBox4 ∧
     sBox4.mail (1 : BitVec 2) 9 1 = 0 ∧
     sBox4.office.owner = some (1 : BitVec 2) ∧
     sBox4.regions.find? (sBox4.mail (1 : BitVec 2) 8 1) = some reg3 ∧
     sBox4.ports = [(9, noPeer)] ∧
     (9, noPeer).2.st = (1 : BitVec 2) ∧
     reg3.released = true ∧
     reg3.saved = [] ∧
     (∀ z ∈ sBox4.migs, z.source = false ∨ z.region ≠ sBox4.mail (1 : BitVec 2) 8 1) ∧
     padTo 16 (9, noPeer).2.peer = sBox4.mailBytes (1 : BitVec 2) 16 16)
    ∧ (Rings (1 : BitVec 2) 23 st241 ∧
     st241.mail (1 : BitVec 2) 9 1 = 1 ∧
     st241.office.owner = some (1 : BitVec 2) ∧
     st241.mig? true (st241.mailBytes (1 : BitVec 2) 32 32) = none)
    ∧ (Rings (1 : BitVec 2) 23 st242 ∧
     st242.mail (1 : BitVec 2) 9 1 = 1 ∧
     st242.office.owner = some (1 : BitVec 2) ∧
     st242.mig? true (st242.mailBytes (1 : BitVec 2) 32 32) = some mig12 ∧
     mig12.stage = 0 ∧
     (∀ (n : BitVec 2), st242.job n = Job.idle))
    ∧ (Rings (1 : BitVec 2) 23 st243 ∧
     st243.mail (1 : BitVec 2) 9 1 = 1 ∧
     st243.office.owner = some (1 : BitVec 2) ∧
     st243.mig? true (st243.mailBytes (1 : BitVec 2) 32 32) = some mig13 ∧
     (mig13.stage = 2 ∨ mig13.stage = 3))
    ∧ (Rings (1 : BitVec 2) 23 st244 ∧
     st244.mail (1 : BitVec 2) 9 1 = 2 ∧
     st244.office.owner = some (1 : BitVec 2) ∧
     st244.mig? false (st244.mailBytes (1 : BitVec 2) 32 32) = none)
    ∧ (Rings (1 : BitVec 2) 23 st245 ∧
     st245.mail (1 : BitVec 2) 9 1 = 2 ∧
     st245.office.owner = some (1 : BitVec 2) ∧
     st245.mig? false (st245.mailBytes (1 : BitVec 2) 32 32) = some mig14 ∧
     mig14.stage = 2)
    ∧ (Rings (1 : BitVec 2) 23 st246 ∧
     st246.mail (1 : BitVec 2) 9 1 = 2 ∧
     st246.office.owner = some (1 : BitVec 2) ∧
     st246.mig? false (st246.mailBytes (1 : BitVec 2) 32 32) = some mig15 ∧
     mig15.stage = 3)
    ∧ (Rings (1 : BitVec 2) 23 st247 ∧
     st247.mail (1 : BitVec 2) 9 1 = 2 ∧
     st247.office.owner = some (1 : BitVec 2) ∧
     st247.mig? false (st247.mailBytes (1 : BitVec 2) 32 32) = some mig16 ∧
     mig16.stage = 4)
    ∧ (Rings (1 : BitVec 2) 23 st248 ∧
     st248.mail (1 : BitVec 2) 9 1 = 2 ∧
     st248.office.owner = some (1 : BitVec 2) ∧
     st248.mig? false (st248.mailBytes (1 : BitVec 2) 32 32) = some mig17 ∧
     mig17.stage = 5) := by repeat' first | decide +kernel | constructor

end Sys2Proof.Test
end

section
/-! Encodings: the word of every instruction says its own length, and the decoder reads the instruction from it (R101, R106
to R116). -/

namespace Sys2Proof

/-! ## Fields of appended bit vectors -/

/-- A field above an appended part is a field of what stands before it. -/
@[simp] theorem bitsAt_append_above {m n : Nat} (x : BitVec m) (y : BitVec n) {lo len : Nat} (h : n ≤ lo) :
    bitsAt (x ++ y) lo len = bitsAt x (lo - n) len := BitVec.extractLsb'_append_eq_of_le h

/-- A field within an appended part is a field of that part. -/
@[simp] theorem bitsAt_append_within {m n : Nat} (x : BitVec m) (y : BitVec n) {lo len : Nat} (h : lo + len ≤ n) :
    bitsAt (x ++ y) lo len = bitsAt y lo len := BitVec.extractLsb'_append_eq_of_add_le h

@[simp] theorem bitsAt_all {n : Nat} (x : BitVec n) : bitsAt x 0 n = x := BitVec.extractLsb'_eq_self

theorem bitsAt_append_low {m n : Nat} (x : BitVec m) (y : BitVec n) : bitsAt (x ++ y) 0 n = y :=
  (bitsAt_append_within x y (by omega)).trans (bitsAt_all y)

@[simp] theorem bitAt_append_above {m n : Nat} (x : BitVec m) (y : BitVec n) {i : Nat} (h : n ≤ i) :
    bitAt (x ++ y) i = bitAt x (i - n) := by
  simp [bitAt, BitVec.getLsbD_append, Nat.not_lt.mpr h]

@[simp] theorem bitAt_append_within {m n : Nat} (x : BitVec m) (y : BitVec n) {i : Nat} (h : i < n) :
    bitAt (x ++ y) i = bitAt y i := by
  simp [bitAt, BitVec.getLsbD_append, h]

@[simp] theorem bitAt_bit1 (b : Bool) : bitAt (bit1 b) 0 = b := by cases b <;> rfl

/-! ## Words of each format, and what the decoder reads from them (R106 to R115) -/

/-- An encoding says its own length, and the decoder reads the instruction from it. -/
def Encoding.Spells (i : Instr) : Encoding → Prop
  | .wide w => bitsAt w 0 2 = 3#2 ∧ decodeFields w = .ok i
  | .compact h => isWide h = false ∧ (i.wf = true → decodeHalf h = .ok i)
  | .none => True

/- In the proofs below the width of an appended word stays the sum of its parts' widths (`-Nat.reduceAdd`): the lemmas about
appended vectors match nothing else. -/

theorem spells_alu {i : Instr} (fn : BitVec 10) (d a b : Reg)
    (h : aluTable fn.toNat d a b = some i) :
    (Encoding.wide (encRRR 0x00#5 fn d a b)).Spells i :=
  ⟨Laws.low_two _ _, by simp [-Nat.reduceAdd, decodeFields, encRRR, h]⟩

theorem spells_addi (d a : Reg) (imm : BitVec 15) :
    (Encoding.wide (imm ++ a ++ d ++ 0x01#5 ++ 3#2)).Spells (.addi d a imm) :=
  ⟨Laws.low_two _ _, by simp [-Nat.reduceAdd, decodeFields]⟩

theorem spells_logi {i : Instr} (f : BitVec 2) (d a : Reg) (imm : BitVec 13)
    (h : logiTable f.toNat d a imm = some i) :
    (Encoding.wide (f ++ imm ++ a ++ d ++ 0x02#5 ++ 3#2)).Spells i :=
  ⟨Laws.low_two _ _, by simp [-Nat.reduceAdd, decodeFields, h]⟩

theorem spells_shifti {i : Instr} (f : BitVec 3) (d a : Reg) (n : BitVec 6)
    (h : shiftiTable f.toNat d a n = some i) :
    (Encoding.wide (f ++ n ++ 0#6 ++ a ++ d ++ 0x03#5 ++ 3#2)).Spells i :=
  ⟨Laws.low_two _ _, by simp [-Nat.reduceAdd, decodeFields, h]⟩

theorem spells_movi (d : Reg) (imm : BitVec 20) :
    (Encoding.wide (imm ++ d ++ 0x04#5 ++ 3#2)).Spells (.movi d imm) :=
  ⟨Laws.low_two _ _, by simp [-Nat.reduceAdd, decodeFields]⟩

theorem spells_lih (d : Reg) (imm : BitVec 20) :
    (Encoding.wide (imm ++ d ++ 0x05#5 ++ 3#2)).Spells (.lih d imm) :=
  ⟨Laws.low_two _ _, by simp [-Nat.reduceAdd, decodeFields]⟩

theorem spells_load {i : Instr} (off : BitVec 12) (f : BitVec 3) (a d : Reg)
    (h : loadTable f.toNat d a off = some i) :
    (Encoding.wide (encOff 0x06#5 off f a d)).Spells i :=
  ⟨Laws.low_two _ _, by simp [-Nat.reduceAdd, decodeFields, encOff, h]⟩

theorem spells_store {i : Instr} (off : BitVec 12) (f : BitVec 3) (a d : Reg)
    (h : storeTable f.toNat d a off = some i) :
    (Encoding.wide (encOff 0x07#5 off f a d)).Spells i :=
  ⟨Laws.low_two _ _, by simp [-Nat.reduceAdd, decodeFields, encOff, h]⟩

theorem spells_branch {i : Instr} (off : BitVec 12) (f : BitVec 3) (a d : Reg)
    (h : branchTable f.toNat a d off = some i) :
    (Encoding.wide (encOff 0x08#5 off f a d)).Spells i :=
  ⟨Laws.low_two _ _, by simp [-Nat.reduceAdd, decodeFields, encOff, h]⟩

theorem spells_b (off : BitVec 25) :
    (Encoding.wide (off ++ 0x09#5 ++ 3#2)).Spells (.b off) :=
  ⟨Laws.low_two _ _, by simp [-Nat.reduceAdd, decodeFields]⟩

theorem spells_call (off : BitVec 25) :
    (Encoding.wide (off ++ 0x0A#5 ++ 3#2)).Spells (.call off) :=
  ⟨Laws.low_two _ _, by simp [-Nat.reduceAdd, decodeFields]⟩

theorem spells_j (a : Reg) (off : BitVec 14) :
    (Encoding.wide (0#1 ++ off ++ a ++ 0#5 ++ 0x0B#5 ++ 3#2)).Spells (.j a off) :=
  ⟨Laws.low_two _ _, by simp [-Nat.reduceAdd, decodeFields, show bitAt 0#1 0 = false from rfl]⟩

theorem spells_jal (d a : Reg) (off : BitVec 14) :
    (Encoding.wide (1#1 ++ off ++ a ++ d ++ 0x0B#5 ++ 3#2)).Spells (.jal d a off) :=
  ⟨Laws.low_two _ _, by simp [-Nat.reduceAdd, decodeFields, show bitAt 1#1 0 = true from rfl]⟩

theorem spells_loop (a : Reg) (len : BitVec 12) :
    (Encoding.wide (encOff 0x0C#5 len 0#3 a 0#5)).Spells (.loop a len) :=
  ⟨Laws.low_two _ _, by simp [-Nat.reduceAdd, decodeFields, encOff]⟩

theorem spells_xset {k : EReg} (d a b : Reg) (hk : bitsAt d 0 3 = k) :
    (Encoding.wide (encRRR 0x17#5 0#10 d a b)).Spells (.xset k a) :=
  ⟨Laws.low_two _ _, by simp [-Nat.reduceAdd, decodeFields, encRRR, hk]⟩

theorem spells_xget {k : EReg} (d a b : Reg) (hk : bitsAt a 0 3 = k) :
    (Encoding.wide (encRRR 0x17#5 1#10 d a b)).Spells (.xget d k) :=
  ⟨Laws.low_two _ _, by simp [-Nat.reduceAdd, decodeFields, encRRR, hk]⟩

theorem spells_sync {i : Instr} (fn : BitVec 5) (scope : BitVec 3) (m : BitVec 2) (d a b : Reg)
    (h : syncTable fn.toNat scope m d a b = some i) :
    (Encoding.wide (encSync fn scope m d a b)).Spells i :=
  ⟨Laws.low_two _ _, by simp [-Nat.reduceAdd, decodeFields, encSync, h]⟩

theorem spells_msg {i : Instr} (fn : BitVec 5) (lc : Bool) (m : BitVec 4) (d a b : Reg)
    (h : msgTable fn.toNat lc m d a b = some i) :
    (Encoding.wide (encMsg 0x0E#5 fn lc m d a b)).Spells i :=
  ⟨Laws.low_two _ _, by simp [-Nat.reduceAdd, decodeFields, encMsg, h]⟩

theorem spells_queue {i : Instr} (fn : BitVec 5) (lc : Bool) (m : BitVec 4) (d a b : Reg)
    (h : queueTable fn.toNat m d a b = some i) :
    (Encoding.wide (encMsg 0x0F#5 fn lc m d a b)).Spells i :=
  ⟨Laws.low_two _ _, by simp [-Nat.reduceAdd, decodeFields, encMsg, h]⟩

theorem spells_system {i : Instr} (fn : BitVec 5) (imm : BitVec 12) (c : Reg)
    (h : systemTable fn.toNat imm c = some i) :
    (Encoding.wide (encSys fn imm c)).Spells i :=
  ⟨Laws.low_two _ _, by simp [-Nat.reduceAdd, decodeFields, encSys, h]⟩

theorem spells_nop : (Encoding.wide (0#25 ++ 0x1F#5 ++ 3#2)).Spells .nop := ⟨Laws.low_two _ _, rfl⟩

theorem spells_vecA {i : Instr} (fn : BitVec 4) (ty : Ty) (vd va vb : VReg)
    (h : vecATable fn.toNat ty vd va vb = some i) :
    (Encoding.wide (encV 0x11#5 fn ty vd va vb)).Spells i :=
  ⟨Laws.low_two _ _, by simp [-Nat.reduceAdd, decodeFields, encV, h]⟩

theorem spells_vecB {i : Instr} (fn : BitVec 4) (ty : Ty) (vd va vb : VReg)
    (h : vecBTable fn.toNat ty vd va vb = some i) :
    (Encoding.wide (encV 0x12#5 fn ty vd va vb)).Spells i :=
  ⟨Laws.low_two _ _, by simp [-Nat.reduceAdd, decodeFields, encV, h]⟩

theorem spells_vecX {i : Instr} (fn : BitVec 5) (ty : Ty) (v : VReg) (a : Reg) (x : BitVec 6)
    (h : vecXTable fn.toNat ty v a x = some i) :
    (Encoding.wide (encVX fn ty v a x)).Spells i :=
  ⟨Laws.low_two _ _, by simp [-Nat.reduceAdd, decodeFields, encVX, h]⟩

theorem spells_matrix {i : Instr} (fn : BitVec 4) (acc : Acc) (pb : Bool) (fmt : BitVec 3) (d a b : Reg)
    (h : ∀ w, matrixTable fn.toNat acc pb fmt d a b w = some i) :
    (Encoding.wide (encM fn acc pb fmt d a b)).Spells i :=
  ⟨Laws.low_two _ _, by simp [-Nat.reduceAdd, decodeFields, encM, h]⟩

theorem spells_msca (acc : Acc) (pb : Bool) (vsa vsb : VReg) :
    (Encoding.wide (5#4 ++ acc ++ bit1 pb ++ 0#3 ++ vsa ++ vsb ++ 0#3 ++ 0x14#5 ++ 3#2)).Spells (.msca acc pb vsa vsb) :=
  ⟨Laws.low_two _ _, by simp [-Nat.reduceAdd, decodeFields, matrixTable]⟩

theorem spells_dda {i : Instr} (fn : BitVec 4) (imm : BitVec 11) (d a : Reg)
    (h : ddaTable fn.toNat imm d a = some i) :
    (Encoding.wide (encD fn imm d a)).Spells i :=
  ⟨Laws.low_two _ _, by simp [-Nat.reduceAdd, decodeFields, encD, h]⟩

theorem spells_stream {i : Instr} (fn : BitVec 4) (acq rel : Bool) (scope : BitVec 3) (lc : Bool) (d a b : Reg)
    (h : streamTable fn.toNat acq rel scope lc d a b = some i) :
    (Encoding.wide (encS fn acq rel scope lc d a b)).Spells i :=
  ⟨Laws.low_two _ _, by simp [-Nat.reduceAdd, decodeFields, encS, h]⟩

/-! ## Compact halfwords (R116) -/

theorem spells_compact {i : Instr} {h : BitVec 16} (short : isWide h = false) (nonzero : i.wf = true → h ≠ 0#16)
    (read : h ≠ 0#16 → decodeHalf h = .ok i) : (Encoding.compact h).Spells i := ⟨short, fun hw => read (nonzero hw)⟩

theorem halfword_ne_zero {h : BitVec 16} (hf : ¬ (bitsAt h 13 3 = 0 ∧ bitsAt h 2 3 = 0 ∧ bitsAt h 0 2 = 0)) :
    h ≠ 0#16 := by
  rintro rfl
  exact hf ⟨rfl, rfl, rfl⟩

/-! ## Every instruction -/

/-- Every encoding says its own length, and the decoder reads the instruction from it: one lemma for each format. -/
theorem encode_spells (i : Instr) : (encode i).Spells i := by
  cases i with
  | add | sub | and | or | xor | andn | shl | shr | sha | rot | mul | mulh | mulhn | div | divn | rem | remn | min | max
  | minn | maxn | seq | slt | sltn | sel | addsh1 | addsh2 | addsh3 | popc | clz | ctz | bext | bexts | bins | mov =>
    exact spells_alu _ _ _ _ rfl
  | addi => exact spells_addi _ _ _
  | andi | ori | xori | slti => exact spells_logi _ _ _ _ rfl
  | shli | shri | shai | roti => exact spells_shifti _ _ _ _ rfl
  | movi => exact spells_movi _ _
  | lih => exact spells_lih _ _
  | ldb | ldh | ldw | ldd | ldbs | ldhs | ldws => exact spells_load _ _ _ _ rfl
  | ldq => exact spells_load _ _ _ _ (by simp [-Nat.reduceAdd, loadTable])
  | stb | sth | stw | std => exact spells_store _ _ _ _ rfl
  | beq | bne | blt | bge | bltn | bgen | bbs | bbc => exact spells_branch _ _ _ _ rfl
  | b => exact spells_b _
  | call => exact spells_call _
  | j => exact spells_j _ _
  | jal => exact spells_jal _ _ _
  | loop => exact spells_loop _ _
  | xset => exact spells_xset _ _ _ (bitsAt_append_low _ _)
  | xget => exact spells_xget _ _ _ (bitsAt_append_low _ _)
  | cadd | caddf | cwait | cwaitt | cread | cwatch | redadd | redaddf | redmin | redmax | redand | redor | redxor |
  fence | barw =>
    exact spells_sync _ _ _ _ _ _ rfl
  | send | sends | commit | abort | llput | llget | trig | endI | join | leave => exact spells_msg _ _ _ _ _ _ rfl
  | fwd | fwdw | arm | disarm => exact spells_msg _ _ _ _ _ _ (by simp [-Nat.reduceAdd, msgTable])
  | qwait | qadv | qfree | qpush | qstat => exact spells_queue _ _ _ _ _ _ (by simp [-Nat.reduceAdd, queueTable])
  | trap | syscall | migrate | brk | mfs | mts | eret | wfi | hvcall | atinv | dcwb | dcinv | icinv =>
    exact spells_system _ _ _ rfl
  | nop => exact spells_nop
  | vadd | vsub | vmul | vfma | vmin | vmax | vand | vor | vxor | vshl | vshr | vsha | vabs | vneg | vrec =>
    exact spells_vecA _ _ _ _ _ rfl
  | vexp2 | vlog2 | vrcp | vrsq | vsig | vperm | vshf | vmov => exact spells_vecB _ _ _ _ _ rfl
  | vcvt | vscan => exact spells_vecB _ _ _ _ _ (by simp [-Nat.reduceAdd, vecBTable])
  | vld | vst | vbcast | vext | vins | vcmpeq | vcmplt | vcmple | vsel | vredadd | vredmax | vredmin | vfence =>
    exact spells_vecX _ _ _ _ _ rfl
  | vldq | xscan | vstm => exact spells_vecX _ _ _ _ _ (by simp [-Nat.reduceAdd, vecXTable])
  | gang | mopaAcc | mopaBlock | mopbAcc | mopbBlock | mma | mmas | mzero | mstat | mwait =>
    exact spells_matrix _ _ _ _ _ _ _ fun _ => rfl
  | msca => exact spells_msca _ _ _ _
  | dpatch | dclk | drdc | dclrc => exact spells_dda _ _ _ _ (by simp [-Nat.reduceAdd, ddaTable])
  | dset | dget | dres =>
    exact spells_dda _ _ _ _ (by simp [-Nat.reduceAdd, ddaTable, show bitAt 0#3 0 = false from rfl])
  | dsave | dload | dstep | drun | dhalt | dwait | dstat | dinj => exact spells_dda _ _ _ _ rfl
  | fetch | put | copy | mcast | gather | scatter | trec | trinv | sfence => exact spells_stream _ _ _ _ _ _ _ _ rfl
  | cMov d b =>
    refine spells_compact (Laws.compact_of_low _ _ _ rfl rfl) (fun hw e => ?_) fun h => ?_
    · have hd : d = 0 := by simpa [-Nat.reduceAdd, encC0] using (e ▸ rfl : bitsAt (encC0 0#3 d b 0#3) 9 4 = 0)
      have hb : b = 0 := by simpa [-Nat.reduceAdd, encC0] using (e ▸ rfl : bitsAt (encC0 0#3 d b 0#3) 5 4 = 0)
      simp [Instr.wf, hd, hb] at hw
    · simp only [decodeHalf, h, if_false]
      simp [-Nat.reduceAdd, encC0]
  | cAdd | cSub | cAnd | cOr | cXor | cShl | cShr | cAddi | cMovi | cShli | cLdd | cStd | cLdw | cStw | cBeqz | cBnez |
  cB | cJ | cQadv =>
    refine spells_compact (Laws.compact_of_low _ _ _ rfl rfl) (fun _ => halfword_ne_zero ?_) fun h => ?_
    · simp [-Nat.reduceAdd, encC0]
    · simp only [decodeHalf, h, if_false]
      simp [-Nat.reduceAdd, encC0]
  | cEnd | compactHint => exact spells_compact (Laws.compact_of_low _ _ _ rfl rfl) (fun _ => by decide) fun _ => rfl
  | _ => trivial

end Sys2Proof
end

section
/-! Fetch and issue: a slot runs the instruction whose bytes stand at its program counter (R22, R101 to R103). -/

namespace Sys2Proof

theorem bitsAt_bitsAt {n : Nat} (x : BitVec n) {lo len lo' len' : Nat} (h : lo' + len' ≤ len) :
    bitsAt (bitsAt x lo len) lo' len' = bitsAt x (lo + lo') len' := by
  apply BitVec.eq_of_getLsbD_eq
  intro i hi
  have : lo' + i < len := by omega
  simp [bitsAt, hi, this, Nat.add_assoc]

/-! ## Decoding an instruction's own encoding -/

theorem decodeWord_encode {i : Instr} {w : BitVec 32} (he : encode i = .wide w) (hw : i.wf = true) : decodeWord w = .ok i := by
  obtain ⟨_, hread⟩ : (Encoding.wide w).Spells i := he ▸ encode_spells i
  rw [decodeWord, hread, checkWf, if_pos hw]

theorem decodeHalf_encode {i : Instr} {h : BitVec 16} (he : encode i = .compact h) (hw : i.wf = true) :
    decodeHalf h = .ok i := by
  obtain ⟨_, hread⟩ : (Encoding.compact h).Spells i := he ▸ encode_spells i
  exact hread hw

/-- A word's first halfword announces a second one (R101). -/
theorem isWide_of_encode {i : Instr} {w : BitVec 32} (he : encode i = .wide w) : isWide (bitsAt w 0 16) = true := by
  obtain ⟨hlow, _⟩ : (Encoding.wide w).Spells i := he ▸ encode_spells i
  rw [isWide, bitsAt_bitsAt w (by decide), hlow, beq_self_eq_true]

theorem isWide_of_encode_compact {i : Instr} {h : BitVec 16} (he : encode i = .compact h) : isWide h = false := by
  obtain ⟨hshort, _⟩ : (Encoding.compact h).Spells i := he ▸ encode_spells i
  exact hshort

namespace Machine

theorem bitsAt_toNat {n : Nat} (x : BitVec n) (lo len : Nat) : (bitsAt x lo len).toNat = x.toNat / 2 ^ lo % 2 ^ len := by
  rw [bitsAt, BitVec.extractLsb'_toNat, Nat.shiftRight_eq_div_pow]

theorem ofBytes_halfBytes (h : BitVec 16) : ofBytes (halfBytes h) = h.toNat := by
  simp only [halfBytes, ofBytes, bitsAt_toNat]
  omega

theorem ofBytes_wordBytes (w : BitVec 32) : ofBytes (wordBytes w) = w.toNat := by
  simp only [wordBytes, ofBytes, bitsAt_toNat]
  omega

theorem wordBytes_eq_append (w : BitVec 32) : wordBytes w = halfBytes (bitsAt w 0 16) ++ halfBytes (bitsAt w 16 16) := by
  simp [wordBytes, halfBytes, bitsAt_bitsAt]

theorem wordOfHalves_bitsAt (w : BitVec 32) : wordOfHalves (bitsAt w 0 16) (bitsAt w 16 16) = w := by
  apply BitVec.eq_of_getLsbD_eq
  intro i hi
  rw [wordOfHalves, BitVec.getLsbD_append]
  by_cases h : i < 16
  · simp [bitsAt, h]
  · simp [bitsAt, h, show i - 16 < 16 by omega, show 16 + (i - 16) = i by omega]

theorem Memory.readN_add (m : Memory) (k a b : Nat) : m.readN k (a + b) = m.readN k a ++ m.readN (k + a) b := by
  induction a generalizing k with
  | zero => simp [Memory.readN]
  | succ a ih => rw [Nat.succ_add, Memory.readN, Memory.readN, ih, List.cons_append, Nat.add_right_comm k 1 a, Nat.add_assoc]

theorem Memory.length_readN (m : Memory) (k n : Nat) : (m.readN k n).length = n := by
  induction n generalizing k with
  | zero => rfl
  | succ n ih => rw [Memory.readN, List.length_cons, ih]

theorem State.eccBad_within {s : State} {key n key' n' : Nat} (h : s.eccBad key n = false) (hlo : key ≤ key')
    (hhi : key' + n' ≤ key + n) : s.eccBad key' n' = false := by
  simp only [State.eccBad, List.any_eq_false, Bool.and_eq_true, decide_eq_true_eq, not_and] at h ⊢
  intro e he ⟨hbad, hfrom⟩ hto
  exact h e he ⟨hbad, by omega⟩ (by omega)

theorem encodeBytes_of_wide {i : Instr} {w : BitVec 32} (he : encode i = .wide w) : encodeBytes i = wordBytes w := by
  rw [encodeBytes, he]

theorem encodeBytes_of_compact {i : Instr} {h : BitVec 16} (he : encode i = .compact h) : encodeBytes i = halfBytes h := by
  rw [encodeBytes, he]

theorem zext_eq_ofNat {w : Nat} (x : BitVec w) : zext x = BitVec.ofNat 64 x.toNat := (BitVec.ofNat_toNat 64 x).symm

theorem ofNat_zext {n : Nat} (x : BitVec n) (hn : n ≤ 64) : BitVec.ofNat n (zext x).toNat = x := by
  rw [zext, BitVec.ofNat_toNat]
  exact (BitVec.setWidth_setWidth_of_le x hn).trans (BitVec.setWidth_eq x)

/-! ## Fetch from tile scratch (R101, R102) -/

/-- Bytes that stand in tile scratch at an offset, inside it and free of uncorrectable errors. -/
structure CodeAt (t : TileName) (a : Nat) (bs : List Byte) (s : State) : Prop where
  inside : a + bs.length ≤ 0x28000
  bytes : s.mem.readN (scratchKey t a) bs.length = bs
  noEcc : s.eccBad (scratchKey t a) bs.length = false

section
variable {s : State} {t : TileName} {k : BitVec 2} {a : Nat}

theorem CodeAt.append {bs cs : List Byte} (h : CodeAt t a (bs ++ cs) s) :
    CodeAt t a bs s ∧ CodeAt t (a + bs.length) cs s := by
  obtain ⟨hin, hbytes, hecc⟩ := h
  rw [List.length_append] at hin hbytes hecc
  rw [Memory.readN_add] at hbytes
  obtain ⟨hb, hc⟩ := List.append_inj hbytes (Memory.length_readN ..)
  have hkey : scratchKey t a + bs.length = scratchKey t (a + bs.length) := Nat.add_assoc ..
  rw [hkey] at hc
  exact ⟨⟨by omega, hb, State.eccBad_within hecc (Nat.le_refl _) (by omega)⟩,
    ⟨by omega, hc, State.eccBad_within hecc (by omega) (by omega)⟩⟩

theorem fetchHalf_of_codeAt {pc : Word} {h : BitVec 16} (hcur : s.cur = .slot t k) (hcode : CodeAt t pc.toNat (halfBytes h) s) :
    s.fetchHalf pc = .ok (h, s) := by
  obtain ⟨hin, hbytes, hecc⟩ := hcode
  rw [show (halfBytes h).length = 2 from rfl] at hin hbytes hecc
  have htake : (halfBytes h).take 2 = halfBytes h := rfl
  simp only [State.fetchHalf, hcur, if_neg (Nat.not_lt.mpr hin), hecc, hbytes, Bool.false_eq_true, if_false, List.drop_zero,
    htake, ofBytes_halfBytes, BitVec.ofNat_toNat, BitVec.setWidth_eq]

theorem fetchInstr_compact {h : BitVec 16} (hcur : s.cur = .slot t k) (hcode : CodeAt t s.pc.toNat (halfBytes h) s)
    (hshort : isWide h = false) : s.fetchInstr = .ok ({ word := zext h, wide := false }, s) := by
  simp [State.fetchInstr, fetchHalf_of_codeAt hcur hcode, hshort]

theorem fetchInstr_wide {lo hi : BitVec 16} (hcur : s.cur = .slot t k)
    (hcode : CodeAt t s.pc.toNat (halfBytes lo ++ halfBytes hi) s) (hlong : isWide lo = true) :
    s.fetchInstr = .ok ({ word := zext (wordOfHalves lo hi), wide := true }, s) := by
  obtain ⟨hlo, hhi⟩ := hcode.append
  have hnext : s.pc.toNat + (halfBytes lo).length = (s.pc + 2).toNat := by
    have hin := hhi.inside
    rw [show (halfBytes lo).length = 2 from rfl] at hin ⊢
    bv_omega
  rw [hnext] at hhi
  simp only [State.fetchInstr, fetchHalf_of_codeAt hcur hlo, fetchHalf_of_codeAt hcur hhi, hlong, Bool.not_true,
    Bool.false_eq_true, if_false]

/-- A well-formed instruction whose bytes stand at the program counter is fetched and decoded. -/
theorem fetchInstr_of_codeAt {i : Instr} (hcur : s.cur = .slot t k) (hwf : i.wf = true) (hword : i.hasWord = true)
    (hcode : CodeAt t s.pc.toNat (encodeBytes i) s) :
    ∃ f : Fetched, s.fetchInstr = .ok (f, s) ∧ f.instr = .ok i ∧ f.word = BitVec.ofNat 64 (ofBytes (encodeBytes i)) := by
  cases he : encode i with
  | wide w =>
    rw [encodeBytes_of_wide he, ofBytes_wordBytes, ← zext_eq_ofNat]
    rw [encodeBytes_of_wide he, wordBytes_eq_append] at hcode
    refine ⟨_, fetchInstr_wide hcur hcode (isWide_of_encode he), ?_, by rw [wordOfHalves_bitsAt]⟩
    rw [Fetched.instr, if_pos rfl, wordOfHalves_bitsAt, ofNat_zext w (by decide), decodeWord_encode he hwf]
  | compact h =>
    rw [encodeBytes_of_compact he, ofBytes_halfBytes, ← zext_eq_ofNat]
    rw [encodeBytes_of_compact he] at hcode
    refine ⟨_, fetchInstr_compact hcur hcode (isWide_of_encode_compact he), ?_, rfl⟩
    rw [Fetched.instr, if_neg Bool.false_ne_true, ofNat_zext h (by decide), decodeHalf_encode he hwf]
  | none => simp [Instr.hasWord, he] at hword

/-! ## The issue of a slot (R22, R103) -/

theorem State.atBreakpoint_of_dbgCtl (hcur : s.cur = .slot t k) (hctl : (s.tile t).dbgCtl = 0) : s.atBreakpoint = false := by
  simp [State.atBreakpoint, hcur, hctl, bit]

theorem State.awaitsReg_of_pend (i : Instr) (hpend : s.ctx.pend = []) : s.awaitsReg i = false := by
  simp [State.awaitsReg, hpend]

/-- Where nothing holds the instruction at the program counter back, the attempt is its meaning. -/
theorem attempt_of_codeAt {i : Instr} (hcur : s.cur = .slot t k) (hctl : (s.tile t).dbgCtl = 0) (hpend : s.ctx.pend = [])
    (hwf : i.wf = true) (hword : i.hasWord = true) (hcode : CodeAt t s.pc.toNat (encodeBytes i) s) :
    s.attempt = exec i { s with iw := BitVec.ofNat 64 (ofBytes (encodeBytes i)) } := by
  obtain ⟨f, hfetch, hinstr, hiw⟩ := fetchInstr_of_codeAt hcur hwf hword hcode
  have hbreak : ({ s with iw := f.word } : State).atBreakpoint = false := State.atBreakpoint_of_dbgCtl hcur hctl
  have hawait : ({ s with iw := f.word } : State).awaitsReg i = false := State.awaitsReg_of_pend i hpend
  simp only [State.attempt, hfetch, hbreak, hinstr, hawait, Bool.false_eq_true, if_false]
  rw [hiw]

theorem State.begin_slot (s : State) (t : TileName) (k : BitVec 2) :
    s.begin (.slot t k) = ({ s with cur := .slot t k } : State).onSlot t k fun x =>
      { x with state := if x.state = .waiting then .ready else x.state,
               ctx := { x.ctx with wait := .none, issuedAt := none } } := by
  simp [State.begin, State.wakeUp, State.onCtx, State.setCtx, State.ctx, State.setCtxOf, State.ctxOf, State.slot,
    State.onSlot, State.onTile, Tile.onSlot, State.tile, State.setTile]

@[simp] theorem State.begin_cur (s : State) (t : TileName) (k : BitVec 2) : (s.begin (.slot t k)).cur = .slot t k := by
  rw [State.begin_slot]; rfl

@[simp] theorem State.begin_mem (s : State) (t : TileName) (k : BitVec 2) : (s.begin (.slot t k)).mem = s.mem := by
  rw [State.begin_slot]; rfl

@[simp] theorem State.begin_ecc (s : State) (t : TileName) (k : BitVec 2) : (s.begin (.slot t k)).ecc = s.ecc := by
  rw [State.begin_slot]; rfl

@[simp] theorem State.tile_begin_dbgCtl (s : State) (t : TileName) (k : BitVec 2) :
    ((s.begin (.slot t k)).tile t).dbgCtl = (s.tile t).dbgCtl := by
  rw [State.begin_slot, State.onSlot_eq, State.tile_setTile_same]; rfl

theorem State.ctx_begin (s : State) (t : TileName) (k : BitVec 2) :
    (s.begin (.slot t k)).ctx = { (s.slot t k).ctx with wait := .none, issuedAt := none } := by
  rw [State.ctx, State.begin_cur, State.begin_slot, State.ctxOf, State.slot, State.onSlot_eq, State.tile_setTile_same,
    Tile.slot_setSlot_same]
  rfl

theorem CodeAt.begin {bs : List Byte} (h : CodeAt t a bs s) (k : BitVec 2) : CodeAt t a bs (s.begin (.slot t k)) := by
  obtain ⟨hin, hbytes, hecc⟩ := h
  exact ⟨hin, by rw [State.begin_mem, hbytes], by rw [State.eccBad, State.begin_ecc]; exact hecc⟩

/-- A READY slot of a tile without a debug step issues (R22). -/
theorem State.issueFrom_ready (hstep : (s.tile t).dbgActive = false) (hready : (s.slot t k).state = .ready)
    (rest : List (BitVec 2)) :
    s.issueFrom t (k :: rest) = andThen (s.begin (.slot t k)).attempt fun s' =>
      if (s'.slot t k).ctx.wait = .retry then s'.issueFrom t rest else .next (s'.issued t k) := by
  have hcount : s.countStep t k = s := by simp [State.countStep, hstep]
  have hmay : (s.slot t k).mayIssue = true := by simp [Slot.mayIssue, hready]
  rw [State.issueFrom, hcount]
  exact if_pos hmay

theorem step_empty_agenda (hagenda : s.agenda = []) (hrec : s.office.recovery = false)
    (hruns : s.tileRuns s.focus = true) : step s = s.issueFrom s.focus (s.tile s.focus).order := by
  simp [step, State.runAgenda, State.issueTile, hagenda, hrec, hruns]

end

/-- Settles O4: the first slot in the scheduler's order issues, and its attempt is the meaning of the instruction whose
bytes it fetches. -/
theorem stepRunsDecoded : Obligations.StepRunsDecoded := by
  unfold Obligations.StepRunsDecoded
  intro s i k hagenda hrec hruns hptr hready hpend hstep hctl hwf hword hin hbytes hecc
  have hcode := CodeAt.begin ⟨hin, hbytes, hecc⟩ k
  have hctx := State.ctx_begin s s.focus k
  have hattempt : (s.begin (.slot s.focus k)).attempt
      = exec i { s.begin (.slot s.focus k) with iw := BitVec.ofNat 64 (ofBytes (encodeBytes i)) } :=
    attempt_of_codeAt (State.begin_cur ..) ((State.tile_begin_dbgCtl ..).trans hctl) (by rw [hctx]; exact hpend) hwf hword
      (by rw [State.pc, hctx]; exact hcode)
  rw [step_empty_agenda hagenda hrec hruns, Tile.order, hptr, State.issueFrom_ready hstep hready, hattempt]

end Machine
end Sys2Proof
end

section
/-! The firing of an activation (R27, R28, R45). -/

namespace Sys2Proof.Machine

/-! ## Frames -/

theorem SameBut.trans {ps : List Part} {s t r : State} (h : SameBut ps s t) (h' : SameBut ps t r) : SameBut ps s r :=
  Eq.trans h h'

/-- A frame that excepts one part more. -/
theorem SameBut.cons {p : Part} {ps : List Part} {s t : State} (h : SameBut ps s t) : SameBut (p :: ps) s t :=
  congrArg p.forget h

/-! ## Progress -/

@[simp] theorem State.tile_noteProgress (s : State) (r : Nat) (u : TileName) : (s.noteProgress r).tile u = s.tile u := by
  unfold State.noteProgress; split <;> rfl

@[simp] theorem State.noteProgress_serial (s : State) (r : Nat) : (s.noteProgress r).serial = s.serial := by
  unfold State.noteProgress; split <;> rfl

/-! ## Queue entries -/

@[simp] theorem Queue.entry_setEntry_same (q : Queue) (i : Nat) (e : Entry) : (q.setEntry i e).entry i = e :=
  Sparse.get_put_same _ _ _ _

theorem Queue.entry_setEntry_other (q : Queue) {i j : Nat} (e : Entry) (h : j ≠ i) :
    (q.setEntry i e).entry j = q.entry j :=
  Sparse.get_put_other _ _ h _

/-! ## Firing (R27, R28, R45) -/

theorem Tile.find_lowest_free {x : Tile} {k : BitVec 2} (hk : (x.slot k).state = .free)
    (hlow : ∀ j, j < k → (x.slot j).state ≠ .free) :
    (allSlots.find? fun j => (x.slot j).state = .free) = some k := by
  match k with
  | 0#2 => simp [allSlots, hk]
  | 1#2 => simp [allSlots, hk, hlow 0#2 (by decide)]
  | 2#2 => simp [allSlots, hk, hlow 0#2 (by decide), hlow 1#2 (by decide)]
  | 3#2 => simp [allSlots, hk, hlow 0#2 (by decide), hlow 1#2 (by decide), hlow 2#2 (by decide)]

theorem Tile.bindingAt_of_getElem? {x : Tile} {n : Nat} {b : Binding} (h : x.bindings[n]? = some b) :
    x.bindingAt n = b := by
  unfold Tile.bindingAt
  rw [List.getD_eq_getElem?_getD, Vector.getElem?_toList, h, Option.getD_some]

theorem Ctx.get_set (c : Ctx) {d : Reg} (v : Word) (r : Reg) (hd : d ≠ 0) :
    (c.set d v).get r = if r = d then v else c.get r := by
  split
  case isTrue h => rw [h, Ctx.get_set_same c v hd]
  case isFalse h => exact Ctx.get_set_other c v h

@[simp] theorem Ctx.get_reset (r : Reg) : Ctx.reset.get r = 0 := by simp [Ctx.get, Ctx.reset]

/-- The registers at the first instruction of an activation (R28). -/
theorem Slot.get_fire (act : Nat) (q : Queue) (qn : QNum) (i n : Nat) (b : Binding) (r : Reg) :
    (Slot.fire act q qn i n b).ctx.get r
      = if r = 2 then BitVec.ofNat 64 (q.offset i) else if r = 3 then BitVec.ofNat 64 (q.entry i).tag.toNat
        else if r = 4 then BitVec.ofNat 64 (q.entry i).len.toNat else if r = 5 then senderId (q.entry i) else 0 := by
  rw [← zext_eq_ofNat, ← zext_eq_ofNat]
  show ((((Ctx.reset.set 2 _).set 3 _).set 4 _).set 5 _).get r = _
  rw [Ctx.get_set _ _ r (by decide), Ctx.get_set _ _ r (by decide), Ctx.get_set _ _ r (by decide),
    Ctx.get_set _ _ r (by decide), Ctx.get_reset]
  obtain rfl | h5 := eq_or_ne r 5
  · simp
  obtain rfl | h4 := eq_or_ne r 4
  · simp
  obtain rfl | h3 := eq_or_ne r 3
  · simp
  rw [if_neg h5, if_neg h4, if_neg h3, if_neg h3, if_neg h4, if_neg h5]

@[simp] theorem Slot.eget_fire (act : Nat) (q : Queue) (qn : QNum) (i n : Nat) (b : Binding) (r : EReg) :
    (Slot.fire act q qn i n b).ctx.eget r = 0 := by
  simp [Slot.fire, Ctx.eget, Ctx.reset]

/-- A tile after a firing: the entry is taken, passed and fired by slot `k`, which holds the activation. -/
def Tile.fired (x : Tile) (act : Nat) (k : BitVec 2) (qn : QNum) (i n : Nat) : Tile :=
  let q := x.queue qn
  (x.setQueue qn (q.setEntry i
    { q.entry i with taken := true, passed := true, fired := true, held := true, holder := k })).setSlot k
    { Slot.fire act q qn i n (x.bindingAt n) with ctl := (x.slot k).ctl }

section
variable (x : Tile) (act : Nat) (k : BitVec 2) (qn : QNum) (i n : Nat)

theorem Tile.slot_fired_same :
    (x.fired act k qn i n).slot k = { Slot.fire act (x.queue qn) qn i n (x.bindingAt n) with ctl := (x.slot k).ctl } :=
  Tile.slot_setSlot_same _ _ _

theorem Tile.slot_fired_other {j : BitVec 2} (h : j ≠ k) : (x.fired act k qn i n).slot j = x.slot j :=
  Tile.slot_setSlot_other _ _ h

theorem Tile.queue_fired :
    (x.fired act k qn i n).queue qn = (x.queue qn).setEntry i
      { (x.queue qn).entry i with taken := true, passed := true, fired := true, held := true, holder := k } :=
  Tile.queue_setQueue_same _ _ _

/-- A firing changes slots and queues of its tile alone. -/
theorem Tile.fired_rest :
    x.fired act k qn i n
      = { x with slots := (x.fired act k qn i n).slots, queues := (x.fired act k qn i n).queues } := rfl

end

/-- The module after message `i` of queue `qn` of tile `u` has fired into slot `k` by binding `n`. -/
def State.fired (s : State) (u : TileName) (k : BitVec 2) (qn : QNum) (i n : Nat) : State :=
  (s.bump.setTile u ((s.tile u).fired s.serial k qn i n)).noteProgress (s.regionOf u.ret)

section
variable (s : State) (u : TileName) (k : BitVec 2) (qn : QNum) (i n : Nat)

theorem State.tile_fired_same : (s.fired u k qn i n).tile u = (s.tile u).fired s.serial k qn i n := by
  rw [State.fired, State.tile_noteProgress, State.tile_setTile_same]

theorem State.tile_fired_other {v : TileName} (h : v ≠ u) : (s.fired u k qn i n).tile v = s.tile v := by
  rw [State.fired, State.tile_noteProgress, State.tile_setTile_other _ _ h]; rfl

theorem State.fired_serial : (s.fired u k qn i n).serial = s.serial + 1 := State.noteProgress_serial _ _

theorem State.bump_setTile_rest (x : Tile) : SameBut [.tiles, .serial, .progress] s (s.bump.setTile u x) := rfl

theorem State.fired_rest : SameBut [.tiles, .serial, .progress] s (s.fired u k qn i n) :=
  have noted := State.noteProgress_rest (s.bump.setTile u ((s.tile u).fired s.serial k qn i n)) (s.regionOf u.ret)
  SameBut.trans (s.bump_setTile_rest u _) noted.cons.cons

end

theorem exec_activationFiring (u : TileName) (s : State) : exec (.activationFiring u) s = execActivationFiring u s := rfl

/-- Where nothing holds a firing back, the earliest firable message fires into the lowest FREE slot (R27, R45). -/
theorem exec_activationFiring_fires {s : State} {u : TileName} {k : BitVec 2} {qn : QNum} {i n : Nat}
    (hpre : (s.tile u).pre = 0) (hup : (s.bulk u.ret).failed = false) (hhold : bit (s.tile u).trapctl 1 = false)
    (hfree : (allSlots.find? fun j => ((s.tile u).slot j).state = .free) = some k)
    (hfires : (s.tile u).fires = some (qn, i, n)) :
    exec (.activationFiring u) s = .next (s.fired u k qn i n) := by
  rw [exec_activationFiring, execActivationFiring]
  simp only [hpre, hup, hhold, hfree, hfires, bne_self_eq_false, Bool.false_and, Bool.or_false, Bool.false_eq_true, if_false,
    State.onTile_eq]
  rfl

/-- Settles O51: the state after a firing is `State.fired`, whose lemmas give the slot, the entry and the frame. -/
theorem activationFires : Obligations.ActivationFires := by
  unfold Obligations.ActivationFires
  intro s u k qn i n b hpre hup hhold hfree hlow hfires hbinding q e
  refine ⟨_, exec_activationFiring_fires hpre hup hhold (Tile.find_lowest_free hfree hlow) hfires, ?_⟩
  have htile := s.tile_fired_same u k qn i n
  have hslot : (s.fired u k qn i n).slot u k
      = { Slot.fire s.serial q qn i n b with ctl := ((s.tile u).slot k).ctl } := by
    rw [State.slot, htile, Tile.slot_fired_same, Tile.bindingAt_of_getElem? hbinding]
  dsimp only
  rw [hslot]
  refine ⟨Slot.get_fire s.serial q qn i n b, Slot.eget_fire s.serial q qn i n b, rfl, rfl, rfl, rfl, rfl, rfl, rfl, rfl, rfl,
    rfl, rfl, rfl, ?slots, ?entry, ?entries, ?tile, fun v hv => s.tile_fired_other u k qn i n hv, s.fired_serial u k qn i n,
    s.fired_rest u k qn i n⟩
  case slots =>
    intro j hj
    rw [State.slot, htile, Tile.slot_fired_other _ _ _ _ _ _ hj, State.slot]
  case entry => rw [htile, Tile.queue_fired, Queue.entry_setEntry_same]
  case entries =>
    intro j hj
    rw [htile, Tile.queue_fired, Queue.entry_setEntry_other _ _ hj]
  case tile => rw [htile]; exact Tile.fired_rest ..

end Sys2Proof.Machine
end

section
/-! The decoder on the bytes of an instruction, and the form of what it accepts (R101, R103, R105, R116). -/

namespace Sys2Proof

/-- Two neighbouring fields are one field. -/
theorem bitsAt_append_bitsAt {n : Nat} (x : BitVec n) {hi lo len len' : Nat} (h : hi = lo + len) :
    bitsAt x hi len' ++ bitsAt x lo len = bitsAt x lo (len' + len) :=
  BitVec.extractLsb'_append_extractLsb'_eq_extractLsb' h

/-! ## Decoding an instruction's own bytes -/

theorem decode_wordBytes {w : BitVec 32} (hlong : isWide (bitsAt w 0 16) = true) (rest : List Byte) :
    decode (wordBytes w ++ rest) = (decodeWord w).map fun i => (i, 4) := by
  have hlow : halfOf (bitsAt w 0 8) (bitsAt w 8 8) = bitsAt w 0 16 := bitsAt_append_bitsAt w rfl
  have hhigh : halfOf (bitsAt w 16 8) (bitsAt w 24 8) = bitsAt w 16 16 := bitsAt_append_bitsAt w rfl
  have hword : bitsAt w 16 16 ++ bitsAt w 0 16 = w := (bitsAt_append_bitsAt w rfl).trans (bitsAt_all w)
  simp only [wordBytes, List.cons_append, decode, hlow, hhigh, hlong, if_true, hword]

theorem decode_halfBytes {h : BitVec 16} (hshort : isWide h = false) (rest : List Byte) :
    decode (halfBytes h ++ rest) = (decodeHalf h).map fun i => (i, 2) := by
  have hhalf : halfOf (bitsAt h 0 8) (bitsAt h 8 8) = h := (bitsAt_append_bitsAt h rfl).trans (bitsAt_all h)
  simp only [halfBytes, List.cons_append, decode, hhalf, hshort, Bool.false_eq_true, if_false]

/-- Settles O1: the bytes of an instruction put its word together again, and the decoder reads the instruction from its
word. -/
theorem decodeEncode : Obligations.DecodeEncode := by
  unfold Obligations.DecodeEncode
  intro i rest hwf hword
  cases he : encode i with
  | wide w =>
    rw [Machine.encodeBytes_of_wide he, decode_wordBytes (isWide_of_encode he), decodeWord_encode he hwf]; rfl
  | compact h =>
    rw [Machine.encodeBytes_of_compact he, decode_halfBytes (isWide_of_encode_compact he), decodeHalf_encode he hwf]; rfl
  | none => simp [Instr.hasWord, he] at hword

/-! ## What the decoder accepts -/

theorem wf_of_checkWf {r : Except DecodeError Instr} {i : Instr} (h : checkWf r = .ok i) : i.wf = true := by
  cases r with
  | error e => cases h
  | ok j =>
    rw [checkWf] at h
    split at h
    · cases h; assumption
    · cases h

/-- A halfword of quadrant 0 and op 0 is the encoding of its fields. -/
theorem encC0_bitsAt {h : BitVec 16} (hquad : bitsAt h 0 2 = 0#2) :
    encC0 (bitsAt h 13 3) (bitsAt h 9 4) (bitsAt h 5 4) (bitsAt h 2 3) = h := by
  rw [encC0, ← hquad]
  simp only [bitsAt_append_bitsAt h (show 13 = 9 + 4 from rfl), bitsAt_append_bitsAt h (show 9 = 5 + 4 from rfl),
    bitsAt_append_bitsAt h (show 5 = 2 + 3 from rfl), bitsAt_append_bitsAt h (show 2 = 0 + 2 from rfl)]
  exact bitsAt_all h

/-- The one halfword that would read as `C.MOV s0, s0` is 0x0000 (R116). -/
theorem wf_cMov_of_ne_zero {h : BitVec 16} (hz : h ≠ 0#16) (hquad : (bitsAt h 0 2).toNat = 0)
    (hop : (bitsAt h 13 3).toNat = 0) (hfunc : (bitsAt h 2 3).toNat = 0) :
    (Instr.cMov (bitsAt h 9 4) (bitsAt h 5 4)).wf = true := by
  have hrebuild := encC0_bitsAt (BitVec.eq_of_toNat_eq hquad)
  rw [show bitsAt h 13 3 = 0#3 from BitVec.eq_of_toNat_eq hop, show bitsAt h 2 3 = 0#3 from BitVec.eq_of_toNat_eq hfunc]
    at hrebuild
  simp only [Instr.wf, Bool.not_eq_true', Bool.and_eq_false_imp, beq_iff_eq, beq_eq_false_iff_ne]
  intro hd hb
  rw [hd, hb] at hrebuild
  exact hz hrebuild.symm

theorem wf_of_decodeHalf {h : BitVec 16} {i : Instr} (hdec : decodeHalf h = .ok i) : i.wf = true := by
  unfold decodeHalf at hdec
  dsimp only at hdec
  split at hdec
  case isTrue => cases hdec
  case isFalse hz =>
  split at hdec
  case h_1 hquad hop =>
    split at hdec
    case h_1 hfunc => cases hdec; exact wf_cMov_of_ne_zero hz hquad hop hfunc
    all_goals cases hdec; rfl
  all_goals cases hdec
  all_goals rfl

/-- Settles O2: a word passes the check of its fields; of the halfwords, only 0x0000 could read as ill-formed. -/
theorem decodedIsWellFormed : Obligations.DecodedIsWellFormed := by
  unfold Obligations.DecodedIsWellFormed
  exact ⟨fun _ _ hdec => wf_of_checkWf hdec, fun _ _ hdec => wf_of_decodeHalf hdec⟩

/-! ## No-operations (R105) -/

theorem decodeWord_major_hint {w : BitVec 32} (hmajor : (bitsAt w 2 5).toNat = 0x1F) : decodeWord w = .ok .nop := by
  have hfields : decodeFields w = .ok .nop := by simp only [decodeFields, hmajor]
  rw [decodeWord, hfields]; rfl

theorem decodeHalf_hint {h : BitVec 16} (hquad : (bitsAt h 0 2).toNat = 1) (hop : (bitsAt h 13 3).toNat = 6) :
    decodeHalf h = .ok .compactHint := by
  have hz : h ≠ 0#16 := by rintro rfl; exact absurd hquad (by decide)
  simp only [decodeHalf, hz, hquad, hop, if_false]

end Sys2Proof
end

section
/-! The end of an instruction beside its results: passing reads and writes neither register file (R101, R117, R149). -/

namespace Sys2Proof.Machine

/-! ## Passing and the register files -/

/-- A context with other register files. -/
def Ctx.withFiles (c : Ctx) (regs : Vector Word 32) (eregs : Vector Word 8) : Ctx := { c with regs := regs, eregs := eregs }

section
variable (c : Ctx) (regs : Vector Word 32) (eregs : Vector Word 8)

theorem Ctx.endOuter_withFiles (x next : Word) :
    (c.withFiles regs eregs).endOuter x next = (c.endOuter x next).withFiles regs eregs := by
  simp only [Ctx.endOuter, apply_ite (Ctx.withFiles · regs eregs)]
  rfl

theorem Ctx.endAction_withFiles (x next : Word) :
    (c.withFiles regs eregs).endAction x next = (c.endAction x next).withFiles regs eregs := by
  simp only [Ctx.endAction, apply_ite (Ctx.withFiles · regs eregs), ← Ctx.endOuter_withFiles]
  rfl

theorem Ctx.advance_withFiles (len : Nat) :
    (c.withFiles regs eregs).advance len = (c.advance len).withFiles regs eregs := by
  simp only [Ctx.advance, apply_ite (Ctx.withFiles · regs eregs), ← Ctx.endAction_withFiles]
  rfl

end

/-- Passing leaves the extension registers, as `Ctx.advance_regs` says of the scalar ones. -/
theorem Ctx.advance_eregs (c : Ctx) (len : Nat) : (c.advance len).eregs = c.eregs :=
  (congrArg Ctx.eregs (c.advance_withFiles c.regs c.eregs len) :)

theorem Ctx.advance_set (c : Ctx) (d : Reg) (v : Word) (len : Nat) :
    (c.set d v).advance len = { c.advance len with regs := (c.set d v).regs } := by
  have hset : c.set d v = c.withFiles (c.set d v).regs c.eregs := by unfold Ctx.set; split <;> rfl
  calc (c.set d v).advance len
      = (c.advance len).withFiles (c.set d v).regs c.eregs := by rw [← Ctx.advance_withFiles, ← hset]
    _ = { c.advance len with regs := (c.set d v).regs } := by rw [← c.advance_eregs len]; rfl

theorem Ctx.advance_eset (c : Ctx) (k : EReg) (v : Word) (len : Nat) :
    (c.eset k v).advance len = { c.advance len with eregs := (c.eset k v).eregs } :=
  calc (c.eset k v).advance len
      = (c.advance len).withFiles c.regs (c.eset k v).eregs := c.advance_withFiles c.regs (c.eset k v).eregs len
    _ = { c.advance len with eregs := (c.eset k v).eregs } := by rw [← c.advance_regs len]; rfl

/-! ## Extension registers (R117, R152) -/

@[simp] theorem Ctx.eget_eset_same (c : Ctx) (k : EReg) (v : Word) : (c.eset k v).eget k = v := by
  simp [Ctx.eget, Ctx.eset]

theorem Ctx.eget_eset_other (c : Ctx) {j k : EReg} (v : Word) (h : j ≠ k) : (c.eset k v).eget j = c.eget j := by
  have h' : k.toNat ≠ j.toNat := fun e => h (BitVec.eq_of_toNat_eq e.symm)
  simp [Ctx.eget, Ctx.eset, Vector.getElem_set_ne, h']

/-! ## The state after a result -/

theorem sameMem_setCtx (s : State) (c : Ctx) : SameMem s (s.setCtx c) := fun _ => by rw [State.setCtx_mem]

theorem State.retire_setCtx (s : State) (c : Ctx) : (s.setCtx c).retire = s.setCtx (c.advance s.len) := by
  rw [State.retire, State.onCtx_eq, State.ctx_setCtx, State.setCtx_setCtx, State.setCtx_len]

theorem State.put_eq_setCtx (s : State) (d : Reg) (v : Word) :
    s.put d v = s.setCtx ((s.ctx.set d v).advance s.len) := s.retire_setCtx _

/-- A result in a register is what `Writes` says of it. -/
theorem State.put_writes (s : State) (d : Reg) (v : Word) : Writes d v s (s.put d v) where
  value := s.rd_put_same v
  zero := State.rd_zero _
  others _ := s.rd_put_other v
  ctx := by rw [State.put_eq_setCtx, State.ctx_setCtx, Ctx.advance_set]
  rest := by rw [State.put_eq_setCtx, State.ctx_setCtx]
  mem _ := by rw [State.put_mem]

/-! ## The instructions -/

theorem exec_nop (s : State) : exec .nop s = .next s.retire := rfl

theorem exec_compactHint (s : State) : exec .compactHint s = .next s.retire := rfl

theorem exec_xget (d : Reg) (k : EReg) (s : State) : exec (.xget d k) s = .next (s.put d (s.erd k)) := rfl

theorem exec_xset (k : EReg) (a : Reg) (s : State) :
    exec (.xset k a) s = .next (s.setCtx ((s.ctx.eset k (s.rd a)).advance s.len)) :=
  congrArg Host.Outcome.next (s.retire_setCtx _)

/-- Settles O11: the words and halfwords of R105 decode to instructions that pass; `XSET` replaces one extension register
and `XGET` one scalar register of a context that is passed. -/
theorem extensionRegisters : Obligations.ExtensionRegisters := by
  unfold Obligations.ExtensionRegisters
  refine ⟨⟨fun s => ⟨⟨_, exec_nop s, s.retire_passes⟩, ⟨_, exec_compactHint s, s.retire_passes⟩⟩, ?word, ?half⟩,
    fun s k a d => ⟨⟨_, exec_xset k a s, ?xset⟩, ⟨_, exec_xget d k s, s.put_writes d _⟩⟩⟩
  case word =>
    intro w hw
    refine decodeWord_major_hint ?_
    rw [bitsAt_toNat]
    omega
  case half =>
    intro h hquad hop
    refine decodeHalf_hint ?_ ?_ <;> rw [bitsAt_toNat] <;> omega
  case xset =>
    simp only [State.erd, State.ctx_setCtx, Ctx.advance_eset]
    exact ⟨Ctx.eget_eset_same .., fun j hj => Ctx.eget_eset_other _ _ hj, Ctx.advance_regs .., trivial, trivial,
      sameMem_setCtx _ _⟩

end Sys2Proof.Machine
end

section
/-! How an instruction of a slot ends: it passes, writes a register, waits, is tried again, or stops at a release point; and
what each ending makes of the module (R99, R101, R126, R155). -/

namespace Sys2Proof.Machine

theorem Completes.intro {i : Instr} {s t : State} {P : State → Prop} (h : exec i s = .next t) (hp : P t) : Completes i s P :=
  ⟨t, h, hp⟩

/-! ## Frames -/

/-- Replacing a tile of a state whose other tiles are as before is a change of that tile alone. -/
theorem State.oneTile_setTile {s r : State} {u : TileName} (x : Tile) (h : ∀ v, v ≠ u → r.tile v = s.tile v) :
    OneTile u x s (r.setTile u x) :=
  ⟨r.tile_setTile_same u x, fun v hv => (r.tile_setTile_other x hv).trans (h v hv)⟩

theorem State.setTile_frame (s : State) (u : TileName) (x : Tile) :
    OneTile u x s (s.setTile u x) ∧ SameBut [.tiles] s (s.setTile u x) :=
  ⟨s.oneTile_setTile x fun _ _ => rfl, rfl⟩

@[simp] theorem State.len_setTile (s : State) (u : TileName) (x : Tile) : (s.setTile u x).len = s.len := rfl
@[simp] theorem State.tile_bump (s : State) (u : TileName) : s.bump.tile u = s.tile u := rfl
@[simp] theorem State.len_bump (s : State) : s.bump.len = s.len := rfl
@[simp] theorem State.cur_bump (s : State) : s.bump.cur = s.cur := rfl
@[simp] theorem State.len_inject (s : State) (src dst vc flits stamp : Nat) (marked : Bool) (body : Body) :
    (s.inject src dst vc flits stamp marked body).len = s.len := rfl
@[simp] theorem State.cur_inject (s : State) (src dst vc flits stamp : Nat) (marked : Bool) (body : Body) :
    (s.inject src dst vc flits stamp marked body).cur = s.cur := rfl

@[simp] theorem State.mem_retire (s : State) : s.retire.mem = s.mem := State.setCtx_mem s _

/-! ## The executing slot -/

section
variable {s : State} {u : TileName} {k : BitVec 2}

theorem State.ctx_slot (h : s.cur = .slot u k) : s.ctx = ((s.tile u).slot k).ctx := by
  unfold State.ctx; rw [h]; rfl

theorem State.setCtx_slot (h : s.cur = .slot u k) (c : Ctx) :
    s.setCtx c = s.setTile u ((s.tile u).onSlot k fun y => { y with ctx := c }) := by
  unfold State.setCtx; rw [h]; rfl

theorem State.homeTile_slot (h : s.cur = .slot u k) : s.homeTile = some u := by unfold State.homeTile; rw [h]

theorem State.homeSlot_slot (h : s.cur = .slot u k) : s.homeSlot = some (u, k) := by unfold State.homeSlot; rw [h]

theorem State.actNow_slot (h : s.cur = .slot u k) : s.actNow = (s.slot u k).act := by unfold State.actNow; rw [h]

theorem State.gatesHeld_slot (h : s.cur = .slot u k) : s.gatesHeld = decide ((s.bulk u.ret).gate = 2) := by
  unfold State.gatesHeld; rw [h]

theorem State.stampNow_slot (h : s.cur = .slot u k) : s.stampNow = (s.bulk u.ret).region.toNat := by
  unfold State.stampNow State.atH; rw [h]; rfl

theorem State.onTileOnly_slot (h : s.cur = .slot u k) (act : TileName → BitVec 2 → State) : s.onTileOnly act = act u k := by
  unfold State.onTileOnly; rw [h]

theorem State.onHome_slot (h : s.cur = .slot u k) (act : TileName → BitVec 2 → State) : s.onHome act = act u k := by
  unfold State.onHome; rw [State.homeSlot_slot h]

/-! ## Endings -/

/-- A slot's instruction that is passed changes its context alone (R101, R149). -/
theorem State.retire_slot (h : s.cur = .slot u k) : s.retire = s.setTile u ((s.tile u).passed k s.len) := by
  rw [State.retire, State.onCtx_eq, State.setCtx_slot h, State.ctx_slot h, Tile.passed, Tile.onSlot, Tile.onSlot]

/-- So does an instruction that has changed the state before it passes. -/
theorem State.retire_after {r : State} (h : s.cur = .slot u k) (hr : r.cur = s.cur) (hl : r.len = s.len) :
    r.retire = r.setTile u ((r.tile u).passed k s.len) := by
  rw [← hl]
  exact State.retire_slot (hr.trans h)

theorem State.retire_setTile (h : s.cur = .slot u k) (x : Tile) :
    (s.setTile u x).retire = s.setTile u (x.passed k s.len) := by
  rw [State.retire_slot (s := s.setTile u x) h, State.tile_setTile_same, State.setTile_setTile, State.len_setTile]

/-- A slot's instruction that writes a register and is passed changes its context alone (R126). -/
theorem State.put_slot (h : s.cur = .slot u k) (d : Reg) (v : Word) :
    s.put d v = s.setTile u ((s.tile u).passedWith k s.len d v) := by
  rw [State.put_eq_setCtx, State.setCtx_slot h, State.ctx_slot h, Tile.passedWith, Tile.onSlot, Tile.onSlot]

/-- A slot's instruction that has issued and waits (R155). -/
theorem State.issueAndWait_slot (h : s.cur = .slot u k) (w : Wait) :
    s.issueAndWait w = s.setTile u ((s.tile u).waits k s.len w s.issueTime) := by
  unfold State.issueAndWait State.waitOn
  dsimp only
  rw [State.onCtx_eq, State.setCtx_cur, h]
  dsimp only
  rw [State.setCtx_slot h, State.onSlot_eq, State.setTile_setTile, State.tile_setTile_same, State.pc, State.ctx_slot h]
  unfold Tile.waits Tile.onSlot
  rw [Tile.slot_setSlot_same, Tile.setSlot_setSlot]

theorem State.await_slot (h : s.cur = .slot u k) (i : Instr) :
    s.await i = s.setTile u ((s.tile u).waits k s.len (.issued i s.iw s.ctx.regs s.ctx.eregs) s.issueTime) :=
  State.issueAndWait_slot h _

/-- An instruction of a slot that has not issued and is tried again. -/
theorem State.retry_slot (h : s.cur = .slot u k) :
    s.retry = s.setTile u ((s.tile u).onSlot k fun y =>
      { y with state := if y.state = .ready then .waiting else y.state, ctx := { y.ctx with wait := .retry } }) := by
  unfold State.retry State.waitOn; rw [h]; rfl

/-! ## What an ending that waits leaves -/

theorem State.await_frame (h : s.cur = .slot u k) (i : Instr) :
    OneTile u ((s.tile u).waits k s.len (.issued i s.iw s.ctx.regs s.ctx.eregs) s.issueTime) s (s.await i)
      ∧ SameBut [.tiles] s (s.await i) := by
  rw [State.await_slot h]
  exact s.setTile_frame u _

/-- The context of the executing slot, after its tile has been replaced. -/
theorem State.ctx_setTile_slot (h : s.cur = .slot u k) (x : Tile) : (s.setTile u x).ctx = (x.slot k).ctx := by
  rw [State.ctx_slot (s := s.setTile u x) h, State.tile_setTile_same]

theorem State.ctx_await (h : s.cur = .slot u k) (i : Instr) :
    (s.await i).ctx.wait = .issued i s.iw s.ctx.regs s.ctx.eregs ∧ (s.await i).ctx.regs = s.ctx.regs := by
  rw [State.await_slot h, State.ctx_setTile_slot h, Tile.waits, Tile.onSlot, Tile.slot_setSlot_same, State.ctx_slot h]
  exact ⟨rfl, Ctx.advance_regs _ _⟩

theorem State.ctx_retry (h : s.cur = .slot u k) : s.retry.ctx.wait = .retry ∧ s.retry.ctx.regs = s.ctx.regs := by
  rw [State.retry_slot h, State.ctx_setTile_slot h, Tile.onSlot, Tile.slot_setSlot_same, State.ctx_slot h]
  exact ⟨rfl, rfl⟩

/-! ## Release points (R99) -/

theorem State.releasePoint_clear (h : s.cur = .slot u k) (ho : (s.tile u).outst = 0) (hf : (s.tile u).fails = 0)
    (hold act : State) : s.releasePoint hold act = act := by
  rw [State.releasePoint, State.homeTile_slot h]
  dsimp only
  rw [ho, hf]
  rfl

theorem State.releasePoint_waits (h : s.cur = .slot u k) (ho : (s.tile u).outst ≠ 0) (hold act : State) :
    s.releasePoint hold act = hold := by
  rw [State.releasePoint, State.homeTile_slot h]
  exact if_pos (bne_iff_ne.2 ho)

theorem State.releasePoint_fails (h : s.cur = .slot u k) (ho : (s.tile u).outst = 0) (hf : (s.tile u).fails ≠ 0)
    (hold act : State) : s.releasePoint hold act = s.trap .integrity (BitVec.ofNat 64 (s.tile u).fails.toNat) := by
  rw [State.releasePoint, State.homeTile_slot h, ← zext_eq_ofNat]
  dsimp only
  rw [ho, if_neg (by decide), if_pos (bne_iff_ne.2 hf)]

/-- A release point of a slot that nothing holds back lets the instruction act. -/
theorem Released.acts (h : s.cur = .slot u k) (hr : Released u s) (i : Instr) (hold act : State) :
    s.releasePoint hold (s.afterRelease i act) = act := by
  rw [State.releasePoint_clear h hr.outst hr.fails, State.afterRelease, if_pos hr.done]

theorem State.illegal_traps (h : TrapReady u k s) : Traps u k .illegal (BitVec.ofNat 64 s.iw.toNat) s s.illegal := by
  rw [← zext_eq_ofNat]
  exact State.trap_traps h _ _

theorem State.privTrap_traps (h : TrapReady u k s) : Traps u k .priv (BitVec.ofNat 64 s.iw.toNat) s s.privTrap := by
  rw [← zext_eq_ofNat]
  exact State.trap_traps h _ _

end

end Sys2Proof.Machine
end

section
/-! Where the addresses of a slot lead, and what bytes of memory read as after a write (R10, R72 to R74, R82). -/

namespace Sys2Proof.Machine

/-! ## Addresses (R72, R73) -/

theorem bit_eq_testBit {w : Nat} (x : BitVec w) (i : Nat) : bit x i = x.toNat.testBit i := rfl

/-- A tile name that denotes a tile has a clear bit 11, below the reticle's field (R7). -/
theorem bit11_of_tileExists {s : State} {v : Nat} (hv : v < 2 ^ 19) (h : s.tileExists v = true) : v / 2 ^ 11 % 2 = 0 := by
  have hb : bit (BitVec.ofNat 19 v) 11 = false := by
    unfold State.tileExists at h
    rw [Bool.and_eq_true, beq_iff_eq] at h
    exact h.2
  rw [bit_eq_testBit, BitVec.toNat_ofNat, Nat.mod_eq_of_lt hv, Nat.testBit_eq_decide_div_mod_eq, decide_eq_false_iff_not] at hb
  exact Nat.mod_two_ne_one.1 hb

section
variable {s : State} {u : TileName} {v off n : Nat} {a : Word}

/-- The fields of an address of tag 0x1 that names a tile. -/
theorem fields_of_tag1 (hv : v < 2 ^ 19) (hoff : off < 2 ^ 24) (ha : a.toNat = 2 ^ 60 + v * 2 ^ 24 + off) :
    field a 60 4 = 1 ∧ field a 24 19 = v ∧ field a 0 24 = off ∧ field a 43 17 = 0 := by
  simp only [field, Nat.reducePow] at *
  omega

theorem bit35_of_tag1 (hv : v < 2 ^ 19) (hoff : off < 2 ^ 24) (he : s.tileExists v = true)
    (ha : a.toNat = 2 ^ 60 + v * 2 ^ 24 + off) : bit a 35 = false := by
  have h11 := bit11_of_tileExists hv he
  rw [bit_eq_testBit, Nat.testBit_eq_decide_div_mod_eq, decide_eq_false_iff_not]
  simp only [Nat.reducePow] at *
  omega

/-- An address of tag 0x1 that names a tile leads to its scratch, to its state space, or nowhere (R72 to R74). -/
theorem State.locate_tag1 (own : Option TileName) (hv : v < 2 ^ 19) (hoff : off < 2 ^ 24) (he : s.tileExists v = true)
    (ha : a.toNat = 2 ^ 60 + v * 2 ^ 24 + off) :
    s.locate own a n = if off + n ≤ 0x28000 then .scratch v off
      else if 0x800000 ≤ off ∧ off + n ≤ 0x1000000 then .state v off else .bad := by
  obtain ⟨htag, hname, hlow, hhigh⟩ := fields_of_tag1 hv hoff ha
  unfold State.locate
  rw [htag, hname, hlow, hhigh, bit35_of_tag1 hv hoff he ha]
  simp [he]

/-- An address below 2^60 leads to the scratch of the issuer's own tile, or nowhere (R72, R73). -/
theorem State.locate_tag0 (ha : a.toNat < 2 ^ 60) :
    s.locate (some u) a n = if a.toNat + n ≤ 0x28000 then .scratch u a.toNat else .bad := by
  have htag : field a 60 4 = 0 := by unfold field; omega
  have hoff : field a 0 60 = a.toNat := by unfold field; omega
  unfold State.locate
  rw [htag, hoff]
  simp

/-- An address of a reserved tag names nothing (R73). -/
theorem State.locate_reserved (own : Option TileName) (hlo : 4 * 2 ^ 60 ≤ a.toNat) (hhi : a.toNat < 8 * 2 ^ 60) :
    s.locate own a n = .bad := by
  have htag : field a 60 4 = 4 ∨ field a 60 4 = 5 ∨ field a 60 4 = 6 ∨ field a 60 4 = 7 := by unfold field; omega
  unfold State.locate
  rcases htag with h | h | h | h <;> rw [h] <;> rfl

theorem State.locate_own (h : OwnAt u a off s) (hin : off + n ≤ 0x28000) : s.locate (some u) a n = .scratch u off := by
  rcases h with ha | ⟨ha, hu, he⟩
  · rw [State.locate_tag0 (by omega), ha, if_pos hin]
  · rw [State.locate_tag1 _ hu (by omega) he ha, if_pos hin]

/-- The offset in own scratch and its address agree in every alignment up to 2^24. -/
theorem OwnAt.mod_eq (h : OwnAt u a off s) {m : Nat} (hm : m ∣ 2 ^ 24) : a.toNat % m = off % m := by
  rcases h with ha | ⟨ha, -, -⟩
  · rw [ha]
  · obtain ⟨c, hc⟩ := hm
    have hsum : a.toNat = off + m * ((2 ^ 36 + u) * c) := by
      rw [ha, mul_left_comm, ← hc]
      ring
    rw [hsum, Nat.add_mul_mod_self_left]

section
variable {k : BitVec 2} (hcur : s.cur = .slot u k)
include hcur

theorem State.loc_slot (a : Word) (n : Nat) : s.loc a n = s.locate (some u) a n := by
  rw [State.loc, State.homeTile_slot hcur]

theorem State.ownRange_own (h : OwnAt u a off s) (hin : off + n ≤ 0x28000) : s.ownRange a n = some (u, off) := by
  rw [State.ownRange, State.homeTile_slot hcur, State.loc_slot hcur, State.locate_own h hin]
  exact if_pos rfl

theorem State.ownRange_bad (h : s.locate (some u) a n = .bad) : s.ownRange a n = none := by
  rw [State.ownRange, State.homeTile_slot hcur, State.loc_slot hcur, h]

end

/-! ## What holds back an access of own scratch (R82, R83, R89, R191) -/

theorem ReadFree.not_busy (h : ReadFree u off n s) (a : Word) : s.ownBusy a u off n = false := by
  unfold State.ownBusy
  rw [h.noStrong, h.noAcquire, h.noVec, h.noFlight, Bool.and_false]
  rfl

theorem ReadFree.payload_free (h : n ≠ 0 → ReadFree u off n s) (a : Word) : s.payloadBusy a u off n = false := by
  unfold State.payloadBusy
  by_cases hn : n = 0
  · rw [hn]; rfl
  · rw [(h hn).not_busy a, Bool.and_false]

theorem Behind.not_behind (h : Behind u off n s) : s.writeBehind u off n = false := by
  unfold State.writeBehind
  rw [h.1, h.2]
  rfl

end

/-! ## Bytes of memory -/

/-- A byte of consecutive bytes reads as written. -/
theorem Memory.read_writeAt_zip (k : Nat) : ∀ (bs : List Byte) (o : Nat) {m : Memory} (_ : m.wf = true) {j : Nat}
    (_ : j < bs.length), Memory.read (m.writeAt k ((upFrom o bs.length).zip bs)) (k + o + j) = bs.getD j 0
  | b :: bs, o, m, hw, 0, _ => by
    show Memory.read ((m.write (k + o) b).writeAt k ((upFrom (o + 1) bs.length).zip bs)) (k + o) = b
    rw [Memory.read_writeAt_other, Memory.read_write_same _ _ hw]
    intro c hc
    have := mem_upFrom.mp (List.of_mem_zip hc).1
    omega
  | b :: bs, o, m, hw, j + 1, hj => by
    have ih := Memory.read_writeAt_zip k bs (o + 1) (Memory.wf_write (k + o) b hw) (j := j) (Nat.lt_of_succ_lt_succ hj)
    rw [show k + o + (j + 1) = k + (o + 1) + j by omega]
    exact ih

theorem Memory.read_writeN_same {m : Memory} (hw : m.wf = true) (k : Nat) (bs : List Byte) {j : Nat} (hj : j < bs.length) :
    (m.writeN k bs).read (k + j) = bs.getD j 0 :=
  Memory.read_writeAt_zip k bs 0 hw hj

theorem Memory.getD_readN (m : Memory) (k : Nat) : ∀ (n j : Nat), j < n → (m.readN k n).getD j 0 = m.read (k + j)
  | n + 1, 0, _ => rfl
  | n + 1, j + 1, hj => by
    have ih := Memory.getD_readN m (k + 1) n j (Nat.lt_of_succ_lt_succ hj)
    rw [show k + (j + 1) = k + 1 + j by omega]
    exact ih

theorem Memory.readN_congr {m m' : Memory} {k k' : Nat} : ∀ {n : Nat}, (∀ j < n, m.read (k + j) = m'.read (k' + j)) →
    m.readN k n = m'.readN k' n
  | 0, _ => rfl
  | n + 1, h => by
    have tail : m.readN (k + 1) n = m'.readN (k' + 1) n := Memory.readN_congr fun j hj => by
      have := h (j + 1) (by omega)
      rwa [show k + (j + 1) = k + 1 + j by omega, show k' + (j + 1) = k' + 1 + j by omega] at this
    show m.read k :: m.readN (k + 1) n = m'.read k' :: m'.readN (k' + 1) n
    rw [tail, show m.read k = m'.read k' from h 0 (by omega)]

/-- Bytes that are written read back. -/
theorem Memory.readN_writeN_same {m : Memory} (hw : m.wf = true) (k : Nat) (bs : List Byte) :
    (m.writeN k bs).readN k bs.length = bs := by
  refine List.ext_getElem (Memory.length_readN _ _ _) fun j hj hj' => ?_
  have hread := Memory.getD_readN (m.writeN k bs) k bs.length j hj'
  rw [Memory.read_writeN_same hw k bs hj'] at hread
  simpa [List.getD_eq_getElem?_getD, hj, hj'] using hread

end Sys2Proof.Machine
end

section
/-! Messages and drafts (R25, R36, R166 to R168). -/

namespace Sys2Proof.Machine

/-! ## Fields -/

/-- A field and the number above its first bit agree in the field's own bits. -/
theorem ofNat_field {w : Nat} (x : BitVec w) (lo : Nat) {n m : Nat} (h : m ≤ n) :
    BitVec.ofNat m (field x lo n) = BitVec.ofNat m (x.toNat / 2 ^ lo) := by
  refine BitVec.eq_of_toNat_eq ?_
  rw [BitVec.toNat_ofNat, BitVec.toNat_ofNat, field, Nat.mod_mod_of_dvd _ (Nat.pow_dvd_pow 2 h)]

theorem ofNat_field_zero {w : Nat} (x : BitVec w) {n m : Nat} (h : m ≤ n) :
    BitVec.ofNat m (field x 0 n) = BitVec.ofNat m x.toNat := by
  rw [ofNat_field x 0 h, Nat.pow_zero, Nat.div_one]

/-! ## The message of a slot's operands (R28, R166) -/

section
variable {s : State} {u : TileName} {k : BitVec 2} {off : Nat} {dest : TileName} {A B D : Word}

/-- The destination that passes check 4 of R166. -/
theorem MessageOk.messageDest (h : MessageOk u off dest A B D s) (hcur : s.cur = .slot u k) :
    s.messageDest A = some dest := by
  unfold State.messageDest
  rcases h.dest with ⟨hA, rfl⟩ | ⟨hA, hdest, he⟩
  · have htag : field A 60 4 = 0 := by unfold field; omega
    rw [htag]
    exact State.homeTile_slot hcur
  · have haddr : A.toNat = 2 ^ 60 + dest * 2 ^ 24 + A.toNat % 2 ^ 24 := by
      have hdiv := Nat.div_add_mod A.toNat (2 ^ 24)
      rw [hA] at hdiv
      simp only [Nat.reducePow] at hdiv ⊢
      omega
    have hoff : A.toNat % 2 ^ 24 < 2 ^ 24 := Nat.mod_lt _ (by decide)
    obtain ⟨htag, hname, -, hhigh⟩ := fields_of_tag1 hdest hoff haddr
    rw [htag, hname, hhigh, bit35_of_tag1 hdest hoff he haddr]
    simp [he]

/-- The payload that passes checks 2 and 3 of R166. -/
theorem MessageOk.payloadAt (h : MessageOk u off dest A B D s) (hcur : s.cur = .slot u k) :
    s.payloadAt B D.toNat = some off := by
  unfold State.payloadAt
  by_cases hD : D = 0
  · rw [h.empty hD, hD]; rfl
  · obtain ⟨-, hin, hown⟩ := h.payload hD
    rw [if_neg fun e : D.toNat = 0 => hD (BitVec.eq_of_toNat_eq e), State.ownRange_own hcur hown hin]
    rfl

/-- A message whose operands pass the checks of R166. -/
theorem MessageOk.checks (h : MessageOk u off dest A B D s) (hcur : s.cur = .slot u k) (act : TileName → Nat → State) :
    s.messageChecks A B D act = act dest off := by
  have haligned : ¬((D != 0 && B.toNat % 8 != 0) = true) := by
    rw [Bool.and_eq_true, bne_iff_ne, bne_iff_ne]
    rintro ⟨hD, hB⟩
    obtain ⟨hoff, -, hown⟩ := h.payload hD
    exact hB ((hown.mod_eq ⟨2 ^ 21, rfl⟩).trans hoff)
  unfold State.messageChecks
  rw [if_neg (Nat.not_lt.2 h.len), if_neg haligned, h.payloadAt hcur]
  dsimp only
  rw [h.messageDest hcur]

theorem State.formMessage_slot (hcur : s.cur = .slot u k) (lc : Bool) (dest : TileName) (off n : Nat) :
    s.formMessage lc dest off n = slotMessage u (s.erd 0) off n dest lc s.ticket s := by
  unfold State.formMessage slotMessage
  dsimp only
  rw [State.homeTile_slot hcur, ofNat_field _ _ le_rfl, ofNat_field_zero _ le_rfl]
  rfl

/-- A payload that nothing holds back. -/
theorem State.homeBusy_free (hcur : s.cur = .slot u k) (h : D ≠ 0 → ReadFree u off D.toNat s) (a : Word) :
    s.homeBusy a off D.toNat = false := by
  unfold State.homeBusy
  rw [State.homeTile_slot hcur]
  exact ReadFree.payload_free (fun hn => h fun e => hn (congrArg BitVec.toNat e)) a

/-! ## Injection -/

theorem State.injectMessage_slot (hcur : s.cur = .slot u k) (m : Msg) :
    s.injectMessage m
      = s.bump.inject (tileNode u) (tileNode m.dest) (if m.lc then 4 else 2) (1 + (m.len + 31) / 32)
          (s.bulk u.ret).region.toNat false (.msg { m with who := some s.ticket }) := by
  unfold State.injectMessage
  rw [State.stampNow_slot hcur, hcur]
  rfl

/-- A message that is injected is one packet more, under the number after that of the message (R277). -/
theorem State.injectMessage_packet (hcur : s.cur = .slot u k) (m : Msg) :
    OnePacket (s.serial + 1)
      (newPacket (tileNode u) (tileNode m.dest) (if m.lc then 4 else 2) (1 + (m.len + 31) / 32) (s.bulk u.ret).region.toNat
        false (.msg { m with who := some s.ticket })) s (s.injectMessage m) := by
  rw [State.injectMessage_slot hcur]
  exact s.bump.inject_packet ..

theorem State.injectMessage_rest (hcur : s.cur = .slot u k) (m : Msg) :
    SameBut [.packets, .routers, .serial] s (s.injectMessage m) := by
  rw [State.injectMessage_slot hcur]
  rfl

theorem State.injectMessage_cur (m : Msg) : (s.injectMessage m).cur = s.cur := rfl
theorem State.injectMessage_len (m : Msg) : (s.injectMessage m).len = s.len := rfl
theorem State.injectMessage_serial (m : Msg) : (s.injectMessage m).serial = s.serial + 2 := rfl

end

/-! ## The instructions -/

theorem exec_send (lc : Bool) (a b d : Reg) (s : State) :
    exec (.send lc a b d) s = .next (s.messageChecks (s.rd a) (s.rd b) (s.rd d) fun t off =>
      s.releasePoint (s.await (.send lc a b d)) (s.afterRelease (.send lc a b d)
        (if s.gatesHeld || s.homeBusy (s.rd b) off (s.rd d).toNat then s.await (.send lc a b d)
         else (s.injectMessage (s.formMessage lc t off (s.rd d).toNat)).retire))) := rfl

/-- Settles O24: the checks of R166 pass and nothing holds the slot back, so the message is injected and the slot passes. -/
theorem sendMessage : Obligations.SendMessage := by
  unfold Obligations.SendMessage
  intro s u k off lc a b d dest hcur hrel hgate hok hfree n
  have hheld : (s.gatesHeld || s.homeBusy (s.rd b) off (s.rd d).toNat) = false := by
    rw [State.gatesHeld_slot hcur, State.homeBusy_free hcur hfree, decide_eq_false hgate, Bool.or_false]
  have hexec : exec (.send lc a b d) s = .next (s.injectMessage (s.formMessage lc dest off n)).retire := by
    rw [exec_send, hok.checks hcur, hrel.acts hcur, hheld, if_neg Bool.false_ne_true]
  refine .intro hexec ?_
  rw [State.formMessage_slot hcur, State.retire_after hcur (State.injectMessage_cur _) (State.injectMessage_len _)]
  have hpacket := State.injectMessage_packet hcur (slotMessage u (s.erd 0) off n dest lc s.ticket s)
  have hrest := State.injectMessage_rest hcur (slotMessage u (s.erd 0) off n dest lc s.ticket s)
  exact ⟨hpacket, State.oneTile_setTile _ fun _ _ => rfl, hrest.cons⟩

end Sys2Proof.Machine
end

section
/-! A hypercall of a migrated activation (R184, R341): it is progress of its region, beside its entry to level H. -/

namespace Sys2Proof.Machine

/-- A module whose core 2 of bulkhead 0, which region 1 holds, runs a migrated activation at level G. -/
def awayHypercall : State :=
  { State.reset with
      islands := [(0, Island.reset.setCore 2 { PCore.reset with h := false, running := true, home := some (5, 0, 7) })],
      bulks := [(0, { Bulk.reset with region := 1 })], cur := .core 0 2, iw := 3 }

theorem exec_hvcall (imm : BitVec 12) (s : State) : exec (.hvcall imm) s = execHvcall imm s := rfl

/-- Its hypercall notes progress of region 1. -/
theorem awayHypercall_progress : ∃ t, exec (.hvcall 0) awayHypercall = .next t ∧ t.progress.length = 1 :=
  ⟨_, exec_hvcall .., by decide⟩

/-- Refutes O36: a migrated activation's `HVCALL` changes its region's record of progress too (R341), where the clause of
`HVCALL` at level G lets nothing but the island change. -/
theorem not_proctorReturn : ¬ Obligations.ProctorReturn := by
  unfold Obligations.ProctorReturn
  rintro ⟨hproctor, -⟩
  obtain ⟨-, hhvcall, -⟩ := hproctor awayHypercall 0 2 0 0 rfl
  obtain ⟨t, ht, -, hrest⟩ := hhvcall rfl
  obtain ⟨t', ht', hprogress⟩ := awayHypercall_progress
  obtain rfl : t = t' := Host.Outcome.next.inj (ht.symm.trans ht')
  have hforget : Part.islands.forget awayHypercall = Part.islands.forget t := hrest
  have hsame := congrArg State.progress hforget
  change awayHypercall.progress = t.progress at hsame
  rw [← hsame] at hprogress
  exact absurd hprogress (by decide)

end Sys2Proof.Machine
end

section
/-! Drafts of a slot: written, dropped, and sent (R36, R168). -/

namespace Sys2Proof.Machine

/-! ## The draft entries -/

/-- The first number of a range that passes a test. -/
theorem find?_upFrom {p : Nat → Bool} : ∀ {n a i : Nat}, a ≤ i → i < a + n → p i = true →
    (∀ j, a ≤ j → j < i → p j = false) → (upFrom a n).find? p = some i
  | 0, a, i, hlo, hhi, _, _ => by omega
  | n + 1, a, i, hlo, hhi, hi, hj => by
    by_cases ha : a = i
    · rw [ha]
      exact List.find?_cons_of_pos hi
    · rw [upFrom, List.find?_cons_of_neg (by rw [hj a le_rfl (by omega)]; exact Bool.false_ne_true)]
      exact find?_upFrom (by omega) (by omega) hi fun j h => hj j (by omega)

theorem Tile.freeDraft_of_first {x : Tile} {i : Nat} (hi : i < 16) (hfree : x.drafts.toList[i]? = some none)
    (hfirst : ∀ j < i, x.drafts.toList[j]? ≠ some none) : x.freeDraft = some i := by
  have free_iff (j : Nat) (hj : j < 16) : (x.drafts.toList.getD j none).isNone = true ↔ x.drafts.toList[j]? = some none := by
    have hlt : j < x.drafts.toList.length := by rw [Vector.length_toList]; exact hj
    rw [List.getD_eq_getElem?_getD, List.getElem?_eq_getElem hlt, Option.getD_some, Option.isNone_iff_eq_none,
      Option.some_inj]
  refine find?_upFrom (Nat.zero_le i) (by omega) ((free_iff i hi).2 hfree) fun j _ hj => Bool.eq_false_iff.2 fun h => ?_
  exact hfirst j hj ((free_iff j (by omega)).1 h)

theorem Tile.freeDraft_full {x : Tile} (h : x.drafts.toList.all (·.isSome) = true) : x.freeDraft = none := by
  refine List.find?_eq_none.2 fun j hj hnone => ?_
  have hlt : j < x.drafts.toList.length := by rw [Vector.length_toList]; exact (mem_upFrom.1 hj).2.trans_eq (Nat.zero_add _)
  rw [List.getD_eq_getElem?_getD, List.getElem?_eq_getElem hlt, Option.getD_some, Option.isNone_iff_eq_none] at hnone
  have hsome := List.all_eq_true.1 h _ (List.getElem_mem hlt)
  rw [hnone] at hsome
  exact Bool.false_ne_true hsome

/-- Dropping a slot's drafts keeps those of the other slots, each in its entry. -/
theorem Tile.dropDrafts_eq (x : Tile) (k : BitVec 2) :
    x.dropDrafts k = { x with drafts := x.drafts.map fun d => d.filter fun y => y.slot ≠ k } := by
  unfold Tile.dropDrafts
  congr 2
  funext d
  cases d with
  | none => rfl
  | some y => by_cases h : y.slot = k <;> simp [Option.filter, h]

/-! ## The messages of a commit -/

/-- The packet in which slot `k` of tile `u` sends its draft `y`, as the `i`-th of a commit (R168, R277). -/
def draftPacket (u : TileName) (y : Draft) (s : State) (i : Nat) : Packet :=
  newPacket (tileNode u) (tileNode y.msg.dest) (if y.msg.lc then 4 else 2) (1 + (min y.msg.len 256 + 31) / 32)
    (s.bulk u.ret).region.toNat false
    (.msg { y.msg with len := min y.msg.len 256, payload := y.msg.payload.take (min y.msg.len 256),
                       who := some { s.ticket with rid := s.serial + 2 * i } })

/-- The state after a slot's drafts are sent, in order. -/
def State.sendDrafts (s : State) (ds : List Draft) : State := ds.foldl (fun s d => s.injectMessage d.message) s

theorem draftPacket_injectMessage (s : State) (u : TileName) (y : Draft) (m : Msg) (i : Nat) : draftPacket u y (s.injectMessage m) i = draftPacket u y s (i + 1) := by
  have hrid : (s.injectMessage m).serial + 2 * i = s.serial + 2 * (i + 1) := by rw [State.injectMessage_serial]; omega
  unfold draftPacket
  rw [hrid]
  rfl

/-- What sending a slot's drafts leaves: one packet for each, and nothing else but their numbers and flits. -/
structure DraftsSent (u : TileName) (ds : List Draft) (s t : State) : Prop where
  sent : ∀ (i : Nat) (y : Draft), ds[i]? = some y → t.packets.find? (s.serial + 2 * i + 1) = some (draftPacket u y s i)
  others : ∀ m, (∀ i < ds.length, m ≠ s.serial + 2 * i + 1) → t.packets.find? m = s.packets.find? m
  serial : t.serial = s.serial + 2 * ds.length
  tiles : ∀ v, t.tile v = s.tile v
  cur : t.cur = s.cur
  len : t.len = s.len
  rest : SameBut [.packets, .routers, .serial] s t

theorem State.sendDrafts_sent {u : TileName} {k : BitVec 2} : ∀ (ds : List Draft) {s : State}, s.cur = .slot u k →
    DraftsSent u ds s (s.sendDrafts ds)
  | [], s, _ => ⟨fun i y h => by simp at h, fun _ _ => rfl, rfl, fun _ => rfl, rfl, rfl, rfl⟩
  | d :: ds, s, hcur => by
    have ih := State.sendDrafts_sent ds (s := s.injectMessage d.message) ((State.injectMessage_cur _).trans hcur)
    obtain ⟨hnew, hold⟩ := State.injectMessage_packet hcur d.message
    refine ⟨?_, ?_, ?_, ih.tiles, ih.cur, ih.len, (State.injectMessage_rest hcur _).trans ih.rest⟩
    · intro i y hy
      cases i with
      | zero =>
        obtain rfl : d = y := Option.some.inj hy
        have hkept := ih.others (s.serial + 1) fun i _ => by rw [State.injectMessage_serial]; omega
        exact hkept.trans hnew
      | succ i =>
        have hsent := ih.sent i y hy
        rw [draftPacket_injectMessage, State.injectMessage_serial] at hsent
        rw [← hsent, show s.serial + 2 * (i + 1) + 1 = s.serial + 2 + 2 * i + 1 by omega]
        rfl
    · intro m hm
      have hkept := ih.others m fun i hi => by
        rw [State.injectMessage_serial]
        have := hm (i + 1) (by simpa using hi)
        omega
      exact hkept.trans (hold m (by simpa using hm 0 (Nat.succ_pos _)))
    · rw [State.sendDrafts, List.foldl_cons, List.length_cons]
      have hserial := ih.serial
      rw [State.injectMessage_serial] at hserial
      rw [State.sendDrafts] at hserial
      omega

/-! ## The instructions -/

theorem exec_sends (lc : Bool) (a b d : Reg) (s : State) : exec (.sends lc a b d) s = execSends lc a b d s := rfl
theorem exec_commit (s : State) : exec .commit s = execCommit s := rfl
theorem exec_abort (s : State) : exec .abort s = execAbort s := rfl

section
variable {s : State} {u : TileName} {k : BitVec 2} {off : Nat} {dest : TileName} {lc : Bool} {a b d : Reg}

/-- `SENDS` whose operands pass the checks writes the first free entry, or waits for one (R168). -/
theorem execSends_slot (hcur : s.cur = .slot u k) (hrel : Released u s)
    (hok : MessageOk u off dest (s.rd a) (s.rd b) (s.rd d) s) (hfree : s.rd d ≠ 0 → ReadFree u off (s.rd d).toNat s) :
    exec (.sends lc a b d) s = .next (match (s.tile u).freeDraft with
      | none => s.await (.sends lc a b d)
      | some i =>
        let y : Draft := { msg := slotMessage u (s.erd 0) off (s.rd d).toNat dest lc s.ticket s, dest := s.rd a, slot := k,
                           order := ((s.tile u).draftsOf k).length }
        (s.setTile u { s.tile u with drafts := (s.tile u).drafts.setIfInBounds i (some y) }).retire) := by
  rw [exec_sends, execSends]
  dsimp only
  rw [State.onTileOnly_slot hcur, hok.checks hcur, hrel.acts hcur, State.homeBusy_free hcur hfree,
    if_neg Bool.false_ne_true, State.formMessage_slot hcur]
  rfl

end

/-- Settles O25: a draft is written into the first free entry, an abort filters the entries, and a commit sends the slot's
drafts one after the other. -/
theorem drafts : Obligations.Drafts := by
  unfold Obligations.Drafts
  refine ⟨fun s u k hcur => ?_, fun s u k hcur hout hfails => ?_⟩
  · dsimp only
    refine ⟨fun lc a b d off dest hrel hok hfree => ⟨fun i hi hnone hfirst => ?_, fun hfull => ?_⟩, ?_⟩
    · refine .intro (execSends_slot hcur hrel hok hfree) ?_
      rw [Tile.freeDraft_of_first hi hnone hfirst]
      dsimp only
      rw [State.retire_setTile hcur]
      exact s.setTile_frame u _
    · refine .intro (execSends_slot hcur hrel hok hfree) ?_
      rw [Tile.freeDraft_full hfull]
      exact State.await_frame hcur _
    · refine .intro (t := (s.setTile u ((s.tile u).dropDrafts k)).retire) ?_ ?_
      · rw [exec_abort, execAbort, hcur]
        rfl
      · rw [Tile.dropDrafts_eq, State.retire_setTile hcur]
        exact s.setTile_frame u _
  · have hexec (act : State) : s.releasePoint (s.await .commit) act = act := State.releasePoint_clear hcur hout hfails _ _
    refine ⟨fun hnone => ?_, fun hsome hgate => ?_⟩
    · refine .intro (t := s.retire) ?_ s.retire_passes
      rw [exec_commit, execCommit, hexec, hcur]
      dsimp only
      rw [if_pos (List.isEmpty_iff.2 hnone)]
    · have hsent := State.sendDrafts_sent ((s.tile u).draftsOf k) hcur
      refine .intro (t := ((s.sendDrafts ((s.tile u).draftsOf k)).onTile u (·.dropDrafts k)).retire) ?_ ?_
      · rw [exec_commit, execCommit, hexec, hcur]
        dsimp only
        rw [if_neg (by rwa [List.isEmpty_iff]), State.gatesHeld_slot hcur, decide_eq_false hgate, if_neg Bool.false_ne_true]
        rfl
      · rw [State.onTile, State.retire_setTile (hsent.cur.trans hcur), hsent.tiles, hsent.len]
        exact ⟨hsent.sent, hsent.others, hsent.serial, State.oneTile_setTile _ fun v _ => hsent.tiles v, hsent.rest.cons⟩

end Sys2Proof.Machine
end

section
/-! The forwarding lanes (R37, R169, R170, R279). -/

namespace Sys2Proof.Machine

/-! ## Instructions that have changed the tile before they end -/

section
variable {s r : State} {u : TileName} {k : BitVec 2}

theorem State.issueTime_slot (h : s.cur = .slot u k) : s.issueTime = s.ctx.issuedAt.getD (s.bulk u.ret).timer := by
  rw [State.issueTime, h]
  rfl

/-- An instruction that has sent something, and waits. -/
theorem State.issueAndWait_after (h : s.cur = .slot u k) (hr : r.cur = s.cur) (ht : ∀ v, r.tile v = s.tile v)
    (hl : r.len = s.len) (hb : r.bulk u.ret = s.bulk u.ret) (w : Wait) :
    r.issueAndWait w = r.setTile u ((s.tile u).waits k s.len w s.issueTime) := by
  have hrc := hr.trans h
  rw [State.issueAndWait_slot hrc, State.issueTime_slot hrc, State.issueTime_slot h, State.ctx_slot hrc, State.ctx_slot h,
    ht, hl, hb]

/-- An instruction that has changed its tile, and waits. -/
theorem State.issueAndWait_setTile (h : s.cur = .slot u k) (x : Tile) (w : Wait) :
    (s.setTile u x).issueAndWait w
      = s.setTile u (x.waits k s.len w ((x.slot k).ctx.issuedAt.getD (s.bulk u.ret).timer)) := by
  rw [State.issueAndWait_slot (s := s.setTile u x) h, State.issueTime_slot (s := s.setTile u x) h, State.ctx_setTile_slot h,
    State.tile_setTile_same, State.setTile_setTile]
  rfl

theorem State.await_setTile (h : s.cur = .slot u k) (x : Tile) (i : Instr) :
    (s.setTile u x).await i = s.setTile u (x.waits k s.len (.issued i s.iw (x.slot k).ctx.regs (x.slot k).ctx.eregs)
      ((x.slot k).ctx.issuedAt.getD (s.bulk u.ret).timer)) := by
  rw [State.await, State.issueAndWait_setTile h, State.ctx_setTile_slot h]
  rfl

/-- An instruction that has changed its tile, and more, and is passed. -/
theorem OneTile.retire {x : Tile} (ho : OneTile u x s r) (h : s.cur = .slot u k) (hr : r.cur = s.cur) (hl : r.len = s.len) :
    OneTile u (x.passed k s.len) s r.retire ∧ SameBut [.tiles] r r.retire := by
  obtain ⟨hx, hothers⟩ := ho
  rw [State.retire_after h hr hl, hx]
  exact ⟨State.oneTile_setTile _ hothers, rfl⟩

theorem State.put_setTile (h : s.cur = .slot u k) (x : Tile) (d : Reg) (v : Word) :
    (s.setTile u x).put d v = s.setTile u (x.passedWith k s.len d v) := by
  rw [State.put_slot (s := s.setTile u x) h, State.tile_setTile_same, State.setTile_setTile, State.len_setTile]

end

/-! ## Mailboxes and lanes -/

theorem Tile.box_setBox_same (x : Tile) (dir : BitVec 2) (l : List Word) : (x.setBox dir l).box dir = l := by
  unfold Tile.box Tile.setBox
  exact Vector.getElem_set_self _

theorem Tile.box_popBox (x : Tile) (dir : BitVec 2) : (x.popBox dir).box dir = (x.box dir).drop 1 :=
  x.box_setBox_same dir _

theorem State.neighbourTile_eq {s : State} {u n : TileName} {dir : BitVec 2} (h : neighbour u dir = some n) :
    s.neighbourTile u dir = if s.tileExists n then .ok n else .error (tileId n, s) := by
  unfold State.neighbourTile
  rw [h]

/-- The credits that a mailbox has given out: its entries, and the values on their way to it (R169). -/
theorem State.credits_eq (s : State) (n : TileName) (dir : BitVec 2) :
    s.credits n (opposite dir)
      = ((s.tile n).box (dir + 2)).length + s.lanes.countP fun l => l.2.dst = n && l.2.dir + 2 = dir + 2 := by
  unfold State.credits
  rw [List.countP_eq_length_filter]
  rfl

theorem exec_fwd (dir : BitVec 2) (a : Reg) (s : State) : exec (.fwd dir a) s = execFwd dir a s := rfl
theorem exec_fwdw (dir : BitVec 2) (d : Reg) (s : State) : exec (.fwdw dir d) s = execFwdw dir d s := rfl

section
variable {s : State} {u n : TileName} {k : BitVec 2} {dir : BitVec 2}

theorem exec_fwd_slot (hcur : s.cur = .slot u k) (hn : neighbour u dir = some n) (he : s.tileExists n = true) (a : Reg) :
    exec (.fwd dir a) s = .next (s.releasePoint (s.await (.fwd dir a))
      (if s.gatesHeld || 4 ≤ s.credits n (opposite dir) then s.await (.fwd dir a)
       else (s.startLane u n dir (s.rd a) s.ticket).retire)) := by
  rw [exec_fwd, execFwd, State.onTileOnly_slot hcur, State.neighbourTile_eq hn, he]
  rfl

theorem exec_fwdw_slot (hcur : s.cur = .slot u k) (hn : neighbour u dir = some n) (he : s.tileExists n = true) (d : Reg) :
    exec (.fwdw dir d) s = .next (match (s.tile u).box dir with
      | [] => s.awaitPop (.fwdw dir d)
      | v :: _ =>
        if (s.tile u).scanPops dir s.popNo || (s.tile u).waitPops dir s.popNo then s.awaitPop (.fwdw dir d)
        else (s.onTile u (·.popBox dir)).put d v) := by
  rw [exec_fwdw, execFwdw, State.onTileOnly_slot hcur, State.neighbourTile_eq hn, he]
  rfl

/-- A `FWDW` that waits keeps its number in the issue order (R19). -/
theorem State.awaitPop_frame (hcur : s.cur = .slot u k) (i : Instr) :
    OneTile u (((s.tile u).numbered k s.popNo).waits k s.len (.issued i s.iw s.ctx.regs s.ctx.eregs) s.issueTime) s (s.awaitPop i)
      ∧ SameBut [.tiles, .serial] s (s.awaitPop i) := by
  have numbered (r : State) (hr : r.cur = s.cur) (ht : ∀ v, r.tile v = s.tile v) (hl : r.len = s.len) (hi : r.iw = s.iw)
      (hb : r.bulk u.ret = s.bulk u.ret) :
      (r.onCtx fun c => { c with popNo := s.popNo }).await i = r.setTile u (((s.tile u).numbered k s.popNo).waits k s.len
        (.issued i s.iw s.ctx.regs s.ctx.eregs) s.issueTime) := by
    have hrc : r.cur = .slot u k := hr.trans hcur
    have hnum : (r.onCtx fun c => { c with popNo := s.popNo }) = r.setTile u ((s.tile u).numbered k s.popNo) := by
      rw [State.onCtx_eq, State.setCtx_slot hrc, State.ctx_slot hrc, ht]
      rfl
    rw [hnum, State.await_setTile hrc, hl, hi, hb, State.issueTime_slot hcur, State.ctx_slot hcur]
    unfold Tile.numbered Tile.onSlot
    rw [Tile.slot_setSlot_same]
  unfold State.awaitPop
  cases s.ctx.issuedAt.isSome
  · rw [if_neg Bool.false_ne_true, numbered s.bump rfl (fun _ => rfl) rfl rfl rfl]
    exact ⟨State.oneTile_setTile _ fun _ _ => rfl, rfl⟩
  · rw [if_pos rfl, numbered s rfl (fun _ => rfl) rfl rfl rfl]
    exact ⟨State.oneTile_setTile _ fun _ _ => rfl, rfl⟩

end

/-- Settles O26: the neighbour's name decides between the trap and the lane, the facing mailbox's credits let the value go,
and a pop takes the mailbox's first entry. -/
theorem forwardingLanes : Obligations.ForwardingLanes := by
  unfold Obligations.ForwardingLanes
  intro s u n k dir hcur hn
  refine ⟨fun a he hout hfails hgate hroom => ?_, fun a he hready => ?_, fun d he => ⟨fun v rest hbox hscan hwait => ?_,
    fun hwaits => ?_⟩⟩
  · refine .intro (t := (s.startLane u n dir (s.rd a) s.ticket).retire) ?_ ?_
    · rw [exec_fwd_slot hcur hn he, State.releasePoint_clear hcur hout hfails, State.gatesHeld_slot hcur,
        decide_eq_false hgate, State.credits_eq, decide_eq_false (Nat.not_le.2 hroom), Bool.or_false, if_neg Bool.false_ne_true]
    · rw [State.retire_slot (s := s.startLane u n dir (s.rd a) s.ticket) hcur]
      have hlane : SameBut [.lanes, .serial] s (s.startLane u n dir (s.rd a) s.ticket) := rfl
      exact ⟨Sparse.find?_put_same .., fun m hm => Sparse.find?_put_other _ hm _, State.oneTile_setTile _ fun _ _ => rfl,
        hlane.cons⟩
  · refine .intro (t := s.trap .noname (tileId n)) ?_ (State.trap_traps hready _ _)
    rw [exec_fwd, execFwd, State.onTileOnly_slot hcur, State.neighbourTile_eq hn, he]
    rfl
  · refine .intro (t := (s.onTile u (·.popBox dir)).put d v) ?_ ?_
    · rw [exec_fwdw_slot hcur hn he, hbox]
      dsimp only
      rw [hscan, hwait, Bool.or_false, if_neg Bool.false_ne_true]
    · rw [State.onTile, State.put_setTile hcur, State.tile_setTile_same]
      refine ⟨?_, s.setTile_frame u _⟩
      show ((s.tile u).popBox dir).box dir = rest
      rw [Tile.box_popBox, hbox]
      rfl
  · refine .intro (t := s.awaitPop (.fwdw dir d)) ?_ (State.awaitPop_frame hcur _)
    rw [exec_fwdw_slot hcur hn he]
    cases hbox : (s.tile u).box dir with
    | nil => rfl
    | cons v rest =>
      have hbehind : ((s.tile u).scanPops dir s.popNo || (s.tile u).waitPops dir s.popNo) = true := by
        rw [Bool.or_eq_true]
        exact hwaits.resolve_left (by rw [hbox]; exact List.cons_ne_nil _ _)
      dsimp only
      rw [hbehind, if_pos rfl]

end Sys2Proof.Machine
end

section
/-! The work list (R171, R270). -/

namespace Sys2Proof.Machine

theorem exec_llput (a : Reg) (s : State) : exec (.llput a) s = execLlput a s := rfl
theorem exec_llget (d : Reg) (s : State) : exec (.llget d) s = execLlget d s := rfl

section
variable {s : State} {u : TileName} {k : BitVec 2}

/-- An entry that is appended changes its tile's depth and memory. -/
theorem State.appendEntry_frame (s : State) (u : TileName) (bs : List Byte) :
    OneTile u { s.tile u with lvl := { (s.tile u).lvl with depth := (s.tile u).lvl.depth + 1 } } s (s.appendEntry u bs)
      ∧ SameBut [.mem, .tiles] s (s.appendEntry u bs) :=
  ⟨State.oneTile_setTile _ fun _ _ => rfl, rfl⟩

theorem State.cur_appendEntry (s : State) (u : TileName) (bs : List Byte) : (s.appendEntry u bs).cur = s.cur := rfl
theorem State.len_appendEntry (s : State) (u : TileName) (bs : List Byte) : (s.appendEntry u bs).len = s.len := rfl

/-- The bytes of an entry stand at the list's old tail, and no other byte has changed. -/
theorem State.appendEntry_bytes (u : TileName) {bs : List Byte} (hw : MemCanonical s) :
    (∀ j < bs.length, (s.appendEntry u bs).mem.read (scratchKey u (s.tile u).lvl.tailOff + j) = bs.getD j 0)
      ∧ SameBytes (scratchKey u (s.tile u).lvl.tailOff) bs.length s (s.appendEntry u bs) :=
  ⟨fun _ hj => Memory.read_writeN_same hw _ _ hj, fun m hm => Memory.read_writeN_other _ _ m _ hm⟩

/-- `LLPUT` from own scratch onto a list that takes the entry. -/
theorem execLlput_slot (hcur : s.cur = .slot u k) {a : Reg} {off : Nat} (hown : OwnAt u (s.rd a) off s) (halign : off % 32 = 0)
    (hin : off + 32 ≤ 0x28000) (hfree : ReadFree u off 32 s) (hsize : (s.tile u).lvl.size ≠ 0)
    (hbehind : Behind u (s.tile u).lvl.tailOff 32 s) (hfull : (s.tile u).listFull = false) :
    exec (.llput a) s = .next (s.appendEntry u (s.mem.readN (scratchKey u off) 32)).retire := by
  have haligned : ¬(((s.rd a).toNat % 32 != 0) = true) := by
    rw [bne_iff_ne, not_not]
    exact (hown.mod_eq ⟨2 ^ 19, rfl⟩).trans halign
  rw [exec_llput, execLlput, State.onTileOnly_slot hcur, if_neg haligned, State.ownRange_own hcur hown hin]
  dsimp only
  rw [if_neg hsize, hfull, ReadFree.payload_free (fun _ => hfree), hbehind.not_behind, Bool.or_false, Bool.or_false,
    if_neg Bool.false_ne_true]

end

/-- Settles O27: the entry's bytes are copied to the tail, and an entry is taken from the head. -/
theorem workList : Obligations.WorkList := by
  unfold Obligations.WorkList
  intro s u k hcur
  dsimp only
  refine ⟨fun a off hown halign hin hfree hsize hbehind hfull hw => ?_, fun d hsize hdepth => ?_, fun d hempty => ?_⟩
  · obtain ⟨hread, hsame⟩ := State.appendEntry_bytes u (bs := s.mem.readN (scratchKey u off) 32) hw
    rw [Memory.length_readN] at hread hsame
    refine .intro (execLlput_slot hcur hown halign hin hfree hsize hbehind hfull) ?_
    obtain ⟨htile, hrest⟩ := s.appendEntry_frame u (s.mem.readN (scratchKey u off) 32)
    obtain ⟨hpassed, hctx⟩ := htile.retire hcur (s.cur_appendEntry ..) (s.len_appendEntry ..)
    unfold SameBytes at hsame ⊢
    rw [State.mem_retire]
    exact ⟨fun j hj => (hread j hj).trans (Memory.getD_readN _ _ 32 j hj), hsame, hpassed, hrest.trans hctx.cons⟩
  · refine .intro (t := (s.setTile u { (s.tile u).onSlot k fun y => { y with taken := some (s.tile u).lvl.head } with
        lvl := { (s.tile u).lvl with head := ((s.tile u).lvl.head + 1) % (s.tile u).lvl.size,
                                     depth := (s.tile u).lvl.depth - 1 } }).put d
      (BitVec.ofNat 64 ((s.tile u).lvl.base + 32 * (s.tile u).lvl.head))) ?_ ?_
    · rw [exec_llget, execLlget, State.onTileOnly_slot hcur]
      dsimp only
      rw [decide_eq_false hsize, decide_eq_false hdepth, Bool.or_false, if_neg Bool.false_ne_true]
      rfl
    · rw [State.put_setTile hcur]
      exact s.setTile_frame u _
  · refine .intro (t := (s.onSlot u k fun x => { x with taken := none }).put d 0) ?_ ?_
    · rw [exec_llget, execLlget, State.onTileOnly_slot hcur]
      dsimp only
      rw [if_pos (by simpa using hempty)]
    · rw [State.onSlot_eq, State.put_setTile hcur]
      exact s.setTile_frame u _

end Sys2Proof.Machine
end

section
/-! Software traps of a slot, alone and under PARKALL (R45, R46, R180, R322). -/

namespace Sys2Proof.Machine

/-! ## The slots of a tile under PARKALL -/

/-- A slot that parks keeps its trap registers, its registers and its program counter (R45, R155). -/
theorem Slot.park_keeps (x : Slot) : x.park.cause = x.cause ∧ x.park.epc = x.epc ∧ x.park.eval = x.eval
    ∧ x.park.ctx.regs = x.ctx.regs ∧ x.park.ctx.pc = x.ctx.pc := by
  unfold Slot.park
  split <;> exact ⟨rfl, rfl, rfl, rfl, rfl⟩

theorem Slot.park_holding {x : Slot} (h : x.state = .ready ∨ x.state = .waiting) : x.park.state = .parked := by
  unfold Slot.park
  rcases h with h | h <;> rw [h]

theorem Slot.park_other {x : Slot} (hr : x.state ≠ .ready) (hw : x.state ≠ .waiting) : x.park = x := by
  unfold Slot.park
  split
  · exact absurd ‹_› hr
  · exact absurd ‹_› hw
  · rfl

theorem Slot.trapPark_ready {x : Slot} (h : x.state = .ready) (cause : BitVec 8) (epc eval : Word) :
    x.trapPark cause epc eval = { x with state := .parked, cause := cause, epc := epc, eval := eval } := by
  unfold Slot.trapPark Slot.park
  rw [h]

/-- A slot that parks keeps its wait, unless it was to try again. -/
theorem Slot.park_ctx {x : Slot} (h : x.ctx.wait ≠ .retry) : x.park.ctx = x.ctx := by
  unfold Slot.park
  split
  · rfl
  · rw [if_neg h]
  · rfl

/-- The slots of a tile once every slot of a list but one has parked. -/
theorem Tile.slot_foldl_park (k : BitVec 2) : ∀ (l : List (BitVec 2)) (x : Tile), l.Nodup → ∀ j,
    (l.foldl (fun y i => if i = k then y else y.onSlot i Slot.park) x).slot j
      = if j ∈ l ∧ j ≠ k then (x.slot j).park else x.slot j
  | [], x, _, j => by simp
  | i :: l, x, hl, j => by
    obtain ⟨hi, hl⟩ := List.nodup_cons.1 hl
    rw [List.foldl_cons, Tile.slot_foldl_park k l _ hl j]
    by_cases hik : i = k
    · have hmem : (j ∈ i :: l ∧ j ≠ k) ↔ (j ∈ l ∧ j ≠ k) := by
        rw [List.mem_cons, hik]
        tauto
      rw [if_pos hik]
      simp only [hmem]
    · rw [if_neg hik, Tile.onSlot]
      by_cases hji : j = i
      · rw [hji, Tile.slot_setSlot_same, if_neg (fun h => hi h.1), if_pos ⟨List.mem_cons_self, hik⟩]
      · rw [Tile.slot_setSlot_other _ _ hji]
        simp only [List.mem_cons, hji, false_or]

theorem Tile.slot_trapSlots_parkAll {x : Tile} (hp : bit x.trapctl 0 = true) (k : BitVec 2) (cause : BitVec 8) (epc eval : Word) :
    (x.trapSlots k cause epc eval).slot k = (x.slot k).trapPark cause epc eval
      ∧ ∀ j, j ≠ k → (x.trapSlots k cause epc eval).slot j = (x.slot j).park := by
  have hall (j : BitVec 2) : j ∈ allSlots := by revert j; decide
  have hslots (j : BitVec 2) : (x.trapSlots k cause epc eval).slot j
      = ((allSlots.foldl (fun y i => if i = k then y else y.onSlot i Slot.park) x).onSlot k
          (·.trapPark cause epc eval)).slot j := by
    unfold Tile.trapSlots
    rw [if_pos hp]
    dsimp only
    split <;> rfl
  have hfold := Tile.slot_foldl_park k allSlots x (by decide)
  refine ⟨?_, fun j hj => ?_⟩
  · rw [hslots, Tile.onSlot, Tile.slot_setSlot_same, hfold, if_neg (fun h => h.2 rfl)]
  · rw [hslots, Tile.onSlot, Tile.slot_setSlot_other _ _ hj, hfold, if_pos ⟨hall j, hj⟩]

/-! ## Traps of a slot -/

section
variable {s : State} {u : TileName} {k : BitVec 2}

theorem State.slotTrap_parks (h : (s.slot u k).state = .ready) (r : TrapRec) :
    s.slotTrap u k r = (s.setTile u ((s.tile u).trapSlots k r.cause r.epc r.eval)).sendRecord (tileNode u) r := by
  unfold State.slotTrap State.onTile
  rw [if_neg (by rw [h]; decide)]

theorem State.sendRecord_packet (s : State) {r : TrapRec} (h : r.island = u.ret) :
    OnePacket s.serial (newPacket (tileNode u) (s.islandNode u.ret (tileNode u)) 5 2 (s.stampOf (tileNode u / 4096) false) false
      (.trapRec r)) s (s.sendRecord (tileNode u) r) := by
  rw [← h]
  exact s.inject_packet ..

/-- A trap of a READY slot under PARKALL parks every slot of the tile. -/
theorem State.slotTrap_parkAll (h : (s.slot u k).state = .ready) (hp : bit (s.tile u).trapctl 0 = true) (r : TrapRec) :
    (s.slotTrap u k r).slot u k = { s.slot u k with state := .parked, cause := r.cause, epc := r.epc, eval := r.eval }
      ∧ (∀ j, j ≠ k → (s.slotTrap u k r).slot u j = (s.slot u j).park)
      ∧ (∀ v, v ≠ u → (s.slotTrap u k r).tile v = s.tile v)
      ∧ SameBut [.tiles, .packets, .routers, .serial] s (s.slotTrap u k r) := by
  obtain ⟨hsame, hother⟩ := Tile.slot_trapSlots_parkAll hp k r.cause r.epc r.eval
  have hslot (j : BitVec 2) : (s.slotTrap u k r).slot u j = ((s.tile u).trapSlots k r.cause r.epc r.eval).slot j := by
    rw [State.slotTrap_parks h, State.slot, State.tile_sendRecord, State.tile_setTile_same]
  refine ⟨?_, fun j hj => (hslot j).trans (hother j hj), fun v hv => ?_, ?_⟩
  · exact (hslot k).trans (hsame.trans (Slot.trapPark_ready h _ _ _))
  · rw [State.slotTrap_parks h]
    exact State.tile_setTile_other s _ hv
  · rw [State.slotTrap_parks h]
    rfl

/-- A trap of a slot that is READY on the tile as the instruction has left it, where PARKALL is 0 and no debug step runs,
parks the slot and sends its record. -/
theorem State.slotTrap_setTile {x : Tile} (h : (x.slot k).state = .ready) (hp : bit x.trapctl 0 = false)
    (hs : x.dbgActive = false) {r : TrapRec} (hr : r.island = u.ret) :
    OneTile u (x.onSlot k fun y => { y with state := .parked, cause := r.cause, epc := r.epc, eval := r.eval }) s
        ((s.setTile u x).slotTrap u k r)
      ∧ OnePacket s.serial (newPacket (tileNode u) (s.islandNode u.ret (tileNode u)) 5 2 (s.stampOf (tileNode u / 4096) false) false
          (.trapRec r)) s ((s.setTile u x).slotTrap u k r)
      ∧ SameBut [.tiles, .packets, .routers, .serial] s ((s.setTile u x).slotTrap u k r) := by
  have hready : ((s.setTile u x).slot u k).state = .ready := by
    rw [State.slot, State.tile_setTile_same]
    exact h
  rw [State.slotTrap_parks hready, State.tile_setTile_same, State.setTile_setTile, Tile.trapSlots_alone _ _ _ _ _ hp hs h]
  exact ⟨State.oneTile_setTile (r := s) _ fun _ _ => rfl, State.sendRecord_packet _ hr, rfl⟩

end

theorem exec_trap (imm : BitVec 12) (s : State) : exec (.trap imm) s = execTrap imm s := rfl
theorem exec_brk (imm : BitVec 12) (s : State) : exec (.brk imm) s = .next (s.trap .brk s.pc) := rfl

theorem exec_trap_slot {s : State} {u : TileName} {k : BitVec 2} (hcur : s.cur = .slot u k) (imm : BitVec 12) :
    exec (.trap imm) s = .next ((s.setTile u ((s.tile u).onSlot k fun x =>
      { x with ctx := { x.ctx with pc := s.pc + 4, noEnd := false } })).slotTrap u k
        (slotRecord u k Cause.trapInsn.code s.pc (zext imm) true)) := by
  rw [exec_trap, execTrap, State.onCtx_eq, State.setCtx_slot hcur, hcur]
  dsimp only
  rw [State.pc, State.ctx_slot hcur]
  rfl

/-- Settles O31: `TRAP` has left its program counter behind itself when its slot parks; `BRK` traps where it stands, and
under PARKALL every other slot parks with it. -/
theorem softwareTraps : Obligations.SoftwareTraps := by
  unfold Obligations.SoftwareTraps
  refine ⟨fun s u k imm hready => ⟨?_, ?_⟩, fun s u k imm hcur hready hp => ?_⟩
  · refine .intro (exec_trap_slot hready.cur imm) ?_
    have hcode : Cause.trapInsn.code = 0x0C := rfl
    have hmoved : (((s.tile u).onSlot k fun x => { x with ctx := { x.ctx with pc := s.pc + 4, noEnd := false } }).slot k)
        = { s.slot u k with ctx := { (s.slot u k).ctx with pc := s.pc + 4, noEnd := false } } := Tile.slot_setSlot_same ..
    obtain ⟨⟨hu, hothers⟩, hrecord, hrest⟩ := State.slotTrap_setTile (s := s) (u := u) (k := k)
      (x := (s.tile u).onSlot k fun x => { x with ctx := { x.ctx with pc := s.pc + 4, noEnd := false } })
      (r := slotRecord u k Cause.trapInsn.code s.pc (zext imm) true) (by rw [hmoved]; exact hready.ready) hready.noParkAll
      hready.noStep rfl
    refine ⟨⟨hu.trans ?_, hothers⟩, ?_, hrest⟩
    · unfold Tile.onSlot
      rw [Tile.slot_setSlot_same, Tile.setSlot_setSlot, ← zext_eq_ofNat]
      rfl
    · rw [← zext_eq_ofNat]
      exact hrecord
  · exact .intro (exec_brk imm s) (State.trap_traps hready _ _)
  · have htrap : s.trap .brk s.pc = s.slotTrap u k (slotRecord u k Cause.brk.code s.pc s.pc true) := by
      rw [State.trap, hcur]
    refine .intro (exec_brk imm s) ?_
    rw [htrap]
    obtain ⟨hk, hothers, htiles, hrest⟩ := State.slotTrap_parkAll hready hp (slotRecord u k Cause.brk.code s.pc s.pc true)
    refine ⟨congrArg Slot.state hk, congrArg Slot.cause hk, congrArg Slot.epc hk, congrArg Slot.eval hk, by rw [hk],
      fun j hj => ?_, htiles, hrest⟩
    obtain ⟨hcause, hepc, heval, hregs, hpc⟩ := Slot.park_keeps (s.slot u j)
    dsimp only
    rw [hothers j hj]
    exact ⟨Slot.park_holding, Slot.park_other, hcause, hepc, heval, hregs, hpc, Slot.park_ctx⟩

end Sys2Proof.Machine
end

section
/-! `SYSCALL` and `MIGRATE` (R40, R181, R182). -/

namespace Sys2Proof.Machine

theorem exec_syscall (c : Reg) (s : State) : exec (.syscall c) s = execSyscall c s := rfl
theorem exec_migrate (s : State) : exec .migrate s = execMigrate s := rfl

section
variable {s : State} {u : TileName} {k : BitVec 2}

/-! ## `SYSCALL` -/

/-- The state after a system call of slot `k` has left with its block (R181). -/
def State.syscallSent (s : State) (u : TileName) (off : Nat) : State :=
  (s.setTile u { s.tile u with sysOut := (s.tile u).sysOut + 1 }).inject (tileNode u) (s.islandNode u.ret (tileNode u)) 6 3
    (s.bulk u.ret).region.toNat false
    (.syscall u (s.mem.readN (scratchKey u off) 64) (BitVec.ofNat 16 (s.erd 0).toNat) (s.erd 1))

theorem State.cur_syscallSent (s : State) (u : TileName) (off : Nat) : (s.syscallSent u off).cur = s.cur := rfl
theorem State.len_syscallSent (s : State) (u : TileName) (off : Nat) : (s.syscallSent u off).len = s.len := rfl

theorem State.syscallSent_frame (s : State) (u : TileName) (off : Nat) :
    OneTile u { s.tile u with sysOut := (s.tile u).sysOut + 1 } s (s.syscallSent u off)
      ∧ SameBut [.tiles, .packets, .routers, .serial] s (s.syscallSent u off) :=
  ⟨State.oneTile_setTile (r := s) _ fun _ _ => rfl, rfl⟩

theorem exec_syscall_slot (hcur : s.cur = .slot u k) (c : Reg) :
    exec (.syscall c) s = .next (s.syscallChecks (s.rd c) (s.erd 1) fun t off => s.releasePoint (s.await (.syscall c))
      (if 8 ≤ (s.tile t).sysOut || s.gatesHeld || s.payloadBusy (s.rd c) t off 64 then s.await (.syscall c)
       else ((s.onTile t fun x => { x with sysOut := x.sysOut + 1 }).inject (tileNode u) (s.islandNode u.ret (tileNode u)) 6 3
          (s.bulk u.ret).region.toNat false
          (.syscall t (s.mem.readN (scratchKey t off) 64) (BitVec.ofNat 16 (field (s.erd 0) 0 16)) (s.erd 1))).retire)) := by
  rw [exec_syscall, execSyscall, State.stampNow_slot hcur, hcur]
  rfl

/-- The first two checks of R181 pass a block in own scratch. -/
theorem State.syscallChecks_own (hcur : s.cur = .slot u k) {C E : Word} {off : Nat} (hown : OwnAt u C off s) (halign : off % 64 = 0)
    (hin : off + 64 ≤ 0x28000) (act : TileName → Nat → State) :
    s.syscallChecks C E act = if E.toNat % 16 != 0 then s.trap .misalign E
      else if s.loc E 16 = .bad then s.trap .noname E else act u off := by
  have haligned : ¬((C.toNat % 64 != 0) = true) := by
    rw [bne_iff_ne, not_not]
    exact (hown.mod_eq ⟨2 ^ 18, rfl⟩).trans halign
  unfold State.syscallChecks
  rw [if_neg haligned, State.ownRange_own hcur hown hin]

theorem State.syscallChecks_ok (hcur : s.cur = .slot u k) {C E : Word} {off : Nat} (hown : OwnAt u C off s) (halign : off % 64 = 0)
    (hin : off + 64 ≤ 0x28000) (hE : E.toNat % 16 = 0) (hloc : s.loc E 16 ≠ .bad) (act : TileName → Nat → State) :
    s.syscallChecks C E act = act u off := by
  rw [State.syscallChecks_own hcur hown halign hin, if_neg (by rw [hE]; decide), if_neg hloc]

/-! ## `MIGRATE` -/

theorem exec_migrate_slot (hcur : s.cur = .slot u k) :
    exec .migrate s = .next (if !((s.tile u).draftsOf k).isEmpty then s.trap .queueErr 0
      else s.releasePoint (s.await .migrate) (if !s.settled || s.gatesHeld then s.await .migrate
        else (s.retire.onSlot u k fun x => { x with state := .migrated, ctx := { x.ctx with wait := .none, pend := [] } }).inject
          (tileNode u) (s.retire.islandNode u.ret (tileNode u)) 6 12 s.retire.stampNow false
          (.migrate (s.retire.ctx.image u k s.retire.actNow)))) := by
  rw [exec_migrate, execMigrate, hcur]

/-- The context that `MIGRATE` sends: that of its slot, past the instruction (R40, R182). -/
def State.migrant (s : State) (u : TileName) (k : BitVec 2) : MigImage :=
  let c := s.ctx.advance s.len
  { tile := u, slot := k, act := (s.slot u k).act, regs := s.ctx.regs, eregs := s.ctx.eregs, pc := c.pc, loop0 := c.loop0,
    loop1 := c.loop1, noEnd := c.noEnd, pend := c.pend }

theorem State.image_retire (hcur : s.cur = .slot u k) : s.retire.ctx.image u k s.retire.actNow = s.migrant u k := by
  have hact : s.retire.actNow = (s.slot u k).act := by
    rw [State.retire_slot hcur, State.actNow_slot (s := s.setTile u _) hcur, State.slot, State.tile_setTile_same, Tile.passed,
      Tile.onSlot, Tile.slot_setSlot_same]
    rfl
  rw [hact, State.retire, State.onCtx_eq, State.ctx_setCtx, Ctx.image, Ctx.advance_regs, Ctx.advance_eregs]
  rfl

/-- The state after the activation of slot `k` has left for the island (R182). -/
def State.migrated (s : State) (u : TileName) (k : BitVec 2) : State :=
  (s.setTile u ((s.tile u).onSlot k fun x =>
    { x with state := .migrated, ctx := { x.ctx.advance s.len with wait := .none, pend := [] } })).inject
    (tileNode u) (s.islandNode u.ret (tileNode u)) 6 12 (s.bulk u.ret).region.toNat false (.migrate (s.migrant u k))

/-- `MIGRATE` with no draft, once the accesses of its activation let it go on. -/
theorem exec_migrate_settled (hcur : s.cur = .slot u k) (hdrafts : (s.tile u).draftsOf k = []) (hout : (s.tile u).outst = 0)
    (hfails : (s.tile u).fails = 0) (hset : s.settled = true) (hgate : (s.bulk u.ret).gate ≠ 2) :
    exec .migrate s = .next (s.migrated u k) := by
  have hslot : (s.retire.onSlot u k fun x => { x with state := .migrated, ctx := { x.ctx with wait := .none, pend := [] } })
      = s.setTile u ((s.tile u).onSlot k fun x =>
        { x with state := .migrated, ctx := { x.ctx.advance s.len with wait := .none, pend := [] } }) := by
    rw [State.retire_slot hcur, State.onSlot_eq, State.tile_setTile_same, State.setTile_setTile]
    unfold Tile.passed Tile.onSlot
    rw [Tile.slot_setSlot_same, Tile.setSlot_setSlot]
  rw [exec_migrate_slot hcur, hdrafts, State.releasePoint_clear hcur hout hfails, hset, State.gatesHeld_slot hcur,
    decide_eq_false hgate, State.image_retire hcur, hslot, State.retire_slot hcur, State.stampNow_slot (s := s.setTile u _) hcur]
  rfl

theorem State.migrated_frame (s : State) (u : TileName) (k : BitVec 2) :
    OneTile u ((s.tile u).onSlot k fun x =>
        { x with state := .migrated, ctx := { x.ctx.advance s.len with wait := .none, pend := [] } }) s (s.migrated u k)
      ∧ SameBut [.tiles, .packets, .routers, .serial] s (s.migrated u k) :=
  ⟨State.oneTile_setTile (r := s) _ fun _ _ => rfl, rfl⟩

end

/-- Settles O32: the checks of R181 in their order, the block's packet, and the packet of the context that leaves. -/
theorem syscallAndMigrate : Obligations.SyscallAndMigrate := by
  unfold Obligations.SyscallAndMigrate
  refine ⟨fun s u k hcur hout hfails hgate => ⟨fun c off hown halign hin hfree hE hloc hroom => ?_, fun hdrafts hset => ?_⟩,
    fun s u k hready => ⟨fun hdrafts => ?_, fun c => ?_⟩⟩
  · have hheld : (decide (8 ≤ (s.tile u).sysOut) || s.gatesHeld || s.payloadBusy (s.rd c) u off 64) = false := by
      rw [decide_eq_false (Nat.not_le.2 hroom), State.gatesHeld_slot hcur, decide_eq_false hgate,
        ReadFree.payload_free (fun _ => hfree)]
      rfl
    have hexec : exec (.syscall c) s = .next (s.syscallSent u off).retire := by
      rw [exec_syscall_slot hcur, State.syscallChecks_ok hcur hown halign hin hE hloc, State.releasePoint_clear hcur hout hfails,
        hheld, if_neg Bool.false_ne_true, ofNat_field_zero _ le_rfl]
      rfl
    obtain ⟨htile, hrest⟩ := s.syscallSent_frame u off
    obtain ⟨hpassed, hctx⟩ := htile.retire hcur (s.cur_syscallSent ..) (s.len_syscallSent ..)
    have hpacket := (s.setTile u { s.tile u with sysOut := (s.tile u).sysOut + 1 }).inject_packet (tileNode u)
      (s.islandNode u.ret (tileNode u)) 6 3 (s.bulk u.ret).region.toNat false
      (.syscall u (s.mem.readN (scratchKey u off) 64) (BitVec.ofNat 16 (s.erd 0).toNat) (s.erd 1))
    refine .intro hexec ⟨⟨?_, ?_⟩, hpassed⟩
    · rw [State.retire_after hcur (s.cur_syscallSent ..) (s.len_syscallSent ..)]
      exact hpacket
    · rw [State.retire_after hcur (s.cur_syscallSent ..) (s.len_syscallSent ..)]
      exact hrest
  · obtain ⟨htile, hrest⟩ := s.migrated_frame u k
    have hpacket := (s.setTile u ((s.tile u).onSlot k fun x =>
      { x with state := .migrated, ctx := { x.ctx.advance s.len with wait := .none, pend := [] } })).inject_packet (tileNode u)
      (s.islandNode u.ret (tileNode u)) 6 12 (s.bulk u.ret).region.toNat false (.migrate (s.migrant u k))
    exact .intro (exec_migrate_settled hcur hdrafts hout hfails hset hgate) ⟨⟨hpacket, hrest⟩, htile⟩
  · refine .intro (t := s.trap .queueErr 0) ?_ (State.trap_traps hready _ _)
    rw [exec_migrate_slot hready.cur, if_pos (by simpa using hdrafts)]
  · have hexec := exec_syscall_slot hready.cur c
    have own (hin : (s.rd c).toNat + 64 ≤ 0x28000) (halign : (s.rd c).toNat % 64 = 0) :=
      State.syscallChecks_own hready.cur (C := s.rd c) (E := s.erd 1) (.inl rfl) halign hin
    refine ⟨fun halign => ?_, fun halign htag hout => ?_, fun halign hin hE => ?_, fun halign hin hE hlo hhi => ?_⟩
    · refine .intro (t := s.trap .misalign (s.rd c)) ?_ (State.trap_traps hready _ _)
      rw [hexec, State.syscallChecks, if_pos (bne_iff_ne.2 halign)]
    · refine .intro (t := s.trap .noname (s.rd c)) ?_ (State.trap_traps hready _ _)
      rw [hexec, State.syscallChecks, if_neg (by rw [halign]; decide),
        State.ownRange_bad hready.cur ((State.locate_tag0 htag).trans (if_neg (by omega)))]
    · refine .intro (t := s.trap .misalign (s.erd 1)) ?_ (State.trap_traps hready _ _)
      rw [hexec, own hin halign, if_pos (bne_iff_ne.2 hE)]
    · refine .intro (t := s.trap .noname (s.erd 1)) ?_ (State.trap_traps hready _ _)
      rw [hexec, own hin halign, if_neg (by rw [hE]; decide), if_pos]
      rw [State.loc_slot hready.cur, State.locate_reserved _ hlo hhi]

end Sys2Proof.Machine
end

section
/-! The instructions that read a queue (R24, R143, R175 to R177). -/

namespace Sys2Proof.Machine

/-! ## Queues of the executing slot's tile -/

section
variable {s : State} {u : TileName} {k : BitVec 2} {qn : QNum}

theorem State.withQueue_slot (hcur : s.cur = .slot u k) (act : TileName → BitVec 2 → Queue → State) :
    s.withQueue qn act = if ((s.tile u).queue qn).valid then act u k ((s.tile u).queue qn) else s.queueErr qn := by
  unfold State.withQueue
  rw [hcur]

/-- A queue that is described (R24). -/
theorem State.withQueue_valid (hcur : s.cur = .slot u k) (hv : ((s.tile u).queue qn).valid = true)
    (act : TileName → BitVec 2 → Queue → State) : s.withQueue qn act = act u k ((s.tile u).queue qn) := by
  rw [State.withQueue_slot hcur, if_pos hv]

/-- A queue that is not (R46). -/
theorem State.withQueue_undescribed (hcur : s.cur = .slot u k) (hv : ((s.tile u).queue qn).valid = false)
    (act : TileName → BitVec 2 → Queue → State) : s.withQueue qn act = s.queueErr qn := by
  rw [State.withQueue_slot hcur, hv, if_neg Bool.false_ne_true]

theorem State.queueErr_traps (h : TrapReady u k s) (qn : QNum) :
    Traps u k .queueErr (BitVec.ofNat 64 qn.toNat) s (s.queueErr qn) := by
  rw [← zext_eq_ofNat]
  exact State.trap_traps h _ _

theorem State.onQueue_eq (s : State) (u : TileName) (qn : QNum) (f : Queue → Queue) :
    s.onQueue u qn f = s.setTile u ((s.tile u).setQueue qn (f ((s.tile u).queue qn))) := rfl

end

/-- An offset below 2^11 is not negative (R143). -/
theorem sext_of_small {off : BitVec 12} (h : off.toNat < 2 ^ 11) : (sext off).toNat = off.toNat ∧ bit off 11 = false := by
  have hbit : bit off 11 = false := by
    rw [bit_eq_testBit, Nat.testBit_eq_decide_div_mod_eq, decide_eq_false_iff_not]
    omega
  refine ⟨?_, hbit⟩
  have hmsb : off.msb = false := by rw [BitVec.msb_eq_getLsbD_last]; exact hbit
  rw [sext, BitVec.signExtend_eq_setWidth_of_msb_false hmsb, BitVec.toNat_setWidth, Nat.mod_eq_of_lt (by omega)]

theorem exec_ldq (d : Reg) (qn : QNum) (off : BitVec 12) (s : State) : exec (.ldq d qn off) s = execLdq d qn off s := rfl
theorem exec_qwait (d : Reg) (qn : QNum) (s : State) : exec (.qwait d qn) s = execQwait d qn s := rfl
theorem exec_qadv (qn : QNum) (s : State) : exec (.qadv qn) s = .next (s.qadv (.qadv qn) qn) := rfl
theorem exec_cQadv (qn : QNum) (s : State) : exec (.cQadv qn) s = .next (s.qadv (.cQadv qn) qn) := rfl
theorem exec_qfree (qn : QNum) (a : Reg) (s : State) : exec (.qfree qn a) s = execQfree qn a s := rfl
theorem exec_qpush (qn : QNum) (a b : Reg) (s : State) : exec (.qpush qn a b) s = execQpush qn a b s := rfl
theorem exec_qstat (d : Reg) (qn : QNum) (s : State) : exec (.qstat d qn) s = execQstat d qn s := rfl
theorem exec_arm (qn : QNum) (a b : Reg) (s : State) : exec (.arm qn a b) s = execArm qn a b s := rfl
theorem exec_disarm (qn : QNum) (a : Reg) (s : State) : exec (.disarm qn a) s = execDisarm qn a s := rfl

/-! ## A readable entry -/

section
variable {s : State} {u : TileName} {k : BitVec 2} {qn : QNum} {q : Queue} {i : Nat}

/-- `QADV` passes the read entry; who has taken it does not matter (R175, R177). -/
theorem State.qadv_passes (hcur : s.cur = .slot u k) (hq : (s.tile u).queue qn = q) (hv : q.valid = true)
    (hi : q.readEntry = some i) (j : Instr) :
    s.qadv j qn = s.setTile u (((s.tile u).setQueue qn (q.pass i)).passed k s.len) := by
  subst hq
  rw [State.qadv, State.withQueue_valid hcur hv, hi]
  dsimp only
  rw [State.onQueue_eq, State.retire_setTile hcur]

theorem exec_qwait_ready (h : QueueReady u k qn q i s) (d : Reg) :
    exec (.qwait d qn) s = .next ((s.setTile u ((s.tile u).setQueue qn
      (q.setEntry i { (q.entry i).take k with passed := true }))).put d (qwaitWord (q.offset i) (q.entry i))) := by
  obtain ⟨hcur, rfl, hv, hi, hmine⟩ := h
  rw [exec_qwait, execQwait, State.withQueue_valid hcur hv, hi]
  dsimp only
  rw [hmine, if_neg Bool.false_ne_true, State.onQueue_eq]

theorem exec_ldq_ready (h : QueueReady u k qn q i s) (d : Reg) {off : BitVec 12} (halign : off.toNat % 8 = 0)
    (hsmall : off.toNat < 2 ^ 11) (hin : off.toNat + 8 ≤ q.bytes) (hfree : OwnFree u (q.offset i + off.toNat) 8 s)
    (hloads : s.loadsFull = false) :
    exec (.ldq d qn off) s = .next ((s.setTile u ((s.tile u).setQueue qn (q.setEntry i ((q.entry i).take k)))).put d
      (s.mem.word (scratchKey u (q.offset i + off.toNat)))) := by
  obtain ⟨hcur, rfl, hv, hi, hmine⟩ := h
  obtain ⟨hsext, hbit⟩ := sext_of_small hsmall
  rw [exec_ldq, execLdq, State.withQueue_valid hcur hv]
  rw [if_neg (by rw [hsext, halign]; decide), hbit, decide_eq_false (Nat.not_lt.2 hin), Bool.or_false,
    if_neg Bool.false_ne_true, hi]
  dsimp only
  rw [hmine, hloads, hfree.toReadFree.not_busy, Bool.or_false, Bool.or_false, if_neg Bool.false_ne_true, hfree.noEcc,
    if_neg Bool.false_ne_true, State.onQueue_eq]

/-- An instruction that reads a described queue with nothing to read waits (R143, R176, R177). -/
theorem exec_waits_for_entry (hcur : s.cur = .slot u k) (hv : ((s.tile u).queue qn).valid = true)
    (hnone : ((s.tile u).queue qn).readEntry = none) {j : Instr}
    (hj : (∃ d, j = .ldq d qn 0) ∨ (∃ d, j = .qwait d qn) ∨ j = .qadv qn ∨ j = .cQadv qn) :
    exec j s = .next (s.await j) := by
  have qadv_waits (j : Instr) : s.qadv j qn = s.await j := by rw [State.qadv, State.withQueue_valid hcur hv, hnone]
  rcases hj with ⟨d, rfl⟩ | ⟨d, rfl⟩ | rfl | rfl
  · have hin : ¬(((s.tile u).queue qn).bytes < 0 + 8) := by unfold Queue.bytes; have := Nat.one_le_two_pow (n := ((s.tile u).queue qn).esize.toNat); omega
    rw [exec_ldq, execLdq, State.withQueue_valid hcur hv, if_neg (by decide), if_neg (by simpa [bit] using hin), hnone]
  · rw [exec_qwait, execQwait, State.withQueue_valid hcur hv, hnone]
  · rw [exec_qadv, qadv_waits]
  · rw [exec_cQadv, qadv_waits]

/-- Every instruction of a queue stops where the queue is not described (R24, R46). -/
theorem exec_undescribed (hcur : s.cur = .slot u k) (hv : ((s.tile u).queue qn).valid = false) {j : Instr}
    (hj : (∃ d off, j = .ldq d qn off) ∨ (∃ d, j = .qwait d qn) ∨ j = .qadv qn ∨ j = .cQadv qn
      ∨ (∃ a, j = .qfree qn a) ∨ (∃ a b, j = .qpush qn a b) ∨ (∃ d, j = .qstat d qn) ∨ (∃ a b, j = .arm qn a b)
      ∨ ∃ a, j = .disarm qn a) : exec j s = .next (s.queueErr qn) := by
  rcases hj with ⟨d, off, rfl⟩ | ⟨d, rfl⟩ | rfl | rfl | ⟨a, rfl⟩ | ⟨a, b, rfl⟩ | ⟨d, rfl⟩ | ⟨a, b, rfl⟩ | ⟨a, rfl⟩
  · rw [exec_ldq, execLdq, State.withQueue_undescribed hcur hv]
  · rw [exec_qwait, execQwait, State.withQueue_undescribed hcur hv]
  · rw [exec_qadv, State.qadv, State.withQueue_undescribed hcur hv]
  · rw [exec_cQadv, State.qadv, State.withQueue_undescribed hcur hv]
  · rw [exec_qfree, execQfree, State.withQueue_undescribed hcur hv]
  · rw [exec_qpush, execQpush, State.withQueue_undescribed hcur hv]
  · rw [exec_qstat, execQstat, State.withQueue_undescribed hcur hv]
  · rw [exec_arm, execArm, State.withQueue_undescribed hcur hv]
  · rw [exec_disarm, execDisarm, State.withQueue_undescribed hcur hv]

end

/-- Settles O29: the read entry is taken, taken and passed, or passed; a queue without one is waited for, and one that is
not described stops the instruction. -/
theorem queueReads : Obligations.QueueReads := by
  unfold Obligations.QueueReads
  refine ⟨fun s u k qn q i h => ?_, fun s u k qn => ⟨fun hready hv j hj => ?_, fun hcur hv hnone j hj => ?_⟩⟩
  · have hcur := h.cur
    refine ⟨fun d off halign hsmall hin hfree hloads => ?_, fun d => ?_, fun j hj => ?_⟩
    · refine .intro (exec_ldq_ready h d halign hsmall hin hfree hloads) ?_
      rw [State.put_setTile hcur]
      exact s.setTile_frame u _
    · refine .intro (exec_qwait_ready h d) ?_
      rw [State.put_setTile hcur]
      exact s.setTile_frame u _
    · refine .intro (t := s.setTile u (((s.tile u).setQueue qn (q.pass i)).passed k s.len)) ?_ (s.setTile_frame u _)
      rw [← State.qadv_passes hcur h.here h.valid h.entry j]
      rcases hj with rfl | rfl
      · exact exec_qadv qn s
      · exact exec_cQadv qn s
  · exact .intro (exec_undescribed hready.cur hv hj) (State.queueErr_traps hready qn)
  · exact .intro (exec_waits_for_entry hcur hv hnone hj) (State.await_frame hcur j)

end Sys2Proof.Machine
end

section
/-! The instructions that write a queue or a binding (R26, R156, R172, R175, R177 to R179). -/

namespace Sys2Proof.Machine

/-! ## The queue after a message is written -/

theorem Tile.setQueue_setQueue (x : Tile) (qn : QNum) (q r : Queue) : (x.setQueue qn q).setQueue qn r = x.setQueue qn r := by
  simp [Tile.setQueue]

@[simp] theorem Queue.offset_assign (q : Queue) (tag : BitVec 16) (len : Nat) (sender : Word) (ext : Bool) (i : Nat) :
    (q.assign tag len sender ext).offset i = q.offset i := rfl

@[simp] theorem Queue.bytes_assign (q : Queue) (tag : BitVec 16) (len : Nat) (sender : Word) (ext : Bool) :
    (q.assign tag len sender ext).bytes = q.bytes := rfl

/-- The queue in which a message has been assigned the next entry and has arrived at TIMER `now` (R156). -/
def Queue.pushed (q : Queue) (tag : BitVec 16) (len : Nat) (sender : Word) (now : Nat) : Queue :=
  let q' := q.assign tag len sender false
  q'.setEntry q.write.toNat { q'.entry q.write.toNat with here := true, order := now }

theorem Queue.entry_assign_write (q : Queue) (tag : BitVec 16) (len : Nat) (sender : Word) :
    (q.assign tag len sender false).entry q.write.toNat
      = { Entry.empty with tag := tag, len := BitVec.ofNat 9 len, full := true, seq := q.nextSeq, sender := senderField sender } :=
  Queue.entry_setEntry_same q _ _

theorem Queue.entry_pushed_write (q : Queue) (tag : BitVec 16) (len : Nat) (sender : Word) (now : Nat) :
    (q.pushed tag len sender now).entry q.write.toNat
      = { Entry.empty with tag := tag, len := BitVec.ofNat 9 len, full := true, seq := q.nextSeq, sender := senderField sender,
                           here := true, order := now } := by
  unfold Queue.pushed
  rw [Queue.entry_setEntry_same, Queue.entry_assign_write]

theorem Queue.entry_pushed_other (q : Queue) (tag : BitVec 16) (len : Nat) (sender : Word) (now : Nat) {j : Nat}
    (h : j ≠ q.write.toNat) : (q.pushed tag len sender now).entry j = q.entry j :=
  (Queue.entry_setEntry_other _ _ h).trans (Queue.entry_setEntry_other q _ h)

/-! ## Padded bytes -/

theorem Memory.readN_zero (m : Memory) (k : Nat) : m.readN k 0 = [] := rfl

theorem length_padTo : ∀ (n : Nat) (bs : List Byte), (padTo n bs).length = n
  | 0, _ => rfl
  | n + 1, [] => congrArg (· + 1) (length_padTo n [])
  | n + 1, _ :: bs => congrArg (· + 1) (length_padTo n bs)

/-- A byte past the end of what is padded is 0. -/
theorem getD_padTo : ∀ {n j : Nat} (bs : List Byte), j < n → (padTo n bs).getD j 0 = bs.getD j 0
  | _ + 1, 0, [], _ => rfl
  | _ + 1, 0, _ :: _, _ => rfl
  | _ + 1, j + 1, [], h => getD_padTo (j := j) [] (Nat.lt_of_succ_lt_succ h)
  | _ + 1, _ + 1, _ :: bs, h => getD_padTo bs (Nat.lt_of_succ_lt_succ h)

/-- Bytes of memory that are padded with zeros. -/
theorem getD_padTo_readN (m : Memory) (key : Nat) {n bytes j : Nat} (h : j < bytes) :
    (padTo bytes (m.readN key n)).getD j 0 = if j < n then m.read (key + j) else 0 := by
  rw [getD_padTo _ h]
  by_cases hj : j < n
  · rw [if_pos hj, Memory.getD_readN _ _ _ _ hj]
  · rw [if_neg hj, List.getD_eq_default _ _ (by rw [Memory.length_readN]; omega)]

/-! ## The instructions -/

section
variable {s : State} {u : TileName} {k : BitVec 2} {qn : QNum}

/-- The state after a message has been written into the next entry of a queue (R178). -/
def State.pushed (s : State) (u : TileName) (qn : QNum) (tag : BitVec 16) (payload : List Byte) (n : Nat) : State :=
  let q := (s.tile u).queue qn
  { s with mem := s.mem.writeN (scratchKey u (q.offset q.write.toNat)) (padTo q.bytes payload) }.setTile u
    ((s.tile u).setQueue qn (q.pushed tag n (tileId u) (s.bulk u.ret).timer.toNat))

theorem State.cur_pushed (s : State) (u : TileName) (qn : QNum) (tag : BitVec 16) (payload : List Byte) (n : Nat) :
    (s.pushed u qn tag payload n).cur = s.cur := rfl
theorem State.len_pushed (s : State) (u : TileName) (qn : QNum) (tag : BitVec 16) (payload : List Byte) (n : Nat) :
    (s.pushed u qn tag payload n).len = s.len := rfl

theorem State.pushed_frame (s : State) (u : TileName) (qn : QNum) (tag : BitVec 16) (payload : List Byte) (n : Nat) :
    OneTile u ((s.tile u).setQueue qn (((s.tile u).queue qn).pushed tag n (tileId u) (s.bulk u.ret).timer.toNat)) s
        (s.pushed u qn tag payload n)
      ∧ SameBut [.mem, .tiles] s (s.pushed u qn tag payload n) :=
  ⟨State.oneTile_setTile _ fun _ _ => rfl, rfl⟩

/-- A message arrives whole in an entry of the tile's queue (R156). -/
theorem State.arriveEntry_setTile (s : State) (u : TileName) (x : Tile) (qn : QNum) (i : Nat) (payload : List Byte) :
    (s.setTile u x).arriveEntry u qn i 0 payload
      = { s with mem := s.mem.writeN (scratchKey u ((x.queue qn).offset i)) (padTo (x.queue qn).bytes payload) }.setTile u
          (x.setQueue qn ((x.queue qn).setEntry i
            { (x.queue qn).entry i with here := true, order := (s.bulk u.ret).timer.toNat })) := by
  unfold State.arriveEntry State.onTile
  rw [State.tile_setTile_same]
  dsimp only
  show ({ s with mem := s.mem.writeN (scratchKey u ((x.queue qn).offset i)) (padTo (x.queue qn).bytes payload) }.setTile u
    x).setTile u (({ s with mem := s.mem.writeN (scratchKey u ((x.queue qn).offset i))
                                     (padTo (x.queue qn).bytes payload) }.setTile u x).tile u |>.setQueue qn _) = _
  rw [State.tile_setTile_same, State.setTile_setTile]
  rfl

/-- Assigning the next entry to a message and its arrival there are one write of the queue. -/
theorem State.arrive_assigned (s : State) (u : TileName) (qn : QNum) (tag : BitVec 16) (payload : List Byte) (n : Nat) :
    (s.onQueue u qn fun q => q.assign tag n (tileId u) false).arriveEntry u qn ((s.tile u).queue qn).write.toNat 0 payload
      = s.pushed u qn tag payload n := by
  rw [State.onQueue_eq, State.arriveEntry_setTile, Tile.queue_setQueue_same, Tile.setQueue_setQueue]
  rfl

/-- The bytes of a message that is written stand in the next entry, padded with zeros; every other byte is as before. -/
theorem State.pushed_bytes (hw : MemCanonical s) (u : TileName) (qn : QNum) (tag : BitVec 16) (off n : Nat) :
    let q := (s.tile u).queue qn
    let key := scratchKey u (q.offset q.write.toNat)
    let t := s.pushed u qn tag (s.mem.readN (scratchKey u off) n) n
    (∀ j < q.bytes, t.mem.read (key + j) = if j < n then s.mem.read (scratchKey u off + j) else 0)
      ∧ SameBytes key q.bytes s t := by
  have hlen := length_padTo ((s.tile u).queue qn).bytes (s.mem.readN (scratchKey u off) n)
  refine ⟨fun j hj => ?_, fun m hm => Memory.read_writeN_other _ _ m _ (by rw [hlen]; exact hm)⟩
  rw [← getD_padTo_readN _ _ hj]
  exact Memory.read_writeN_same hw _ _ (by rw [hlen]; exact hj)

/-- `QPUSH` that passes its checks and that nothing holds back (R178). -/
theorem exec_qpush_free (hcur : s.cur = .slot u k) {a b : Reg} {off : Nat} (hv : ((s.tile u).queue qn).valid = true)
    (hfree : ((s.tile u).queue qn).free ≠ 0) (hrel : s.released = true)
    (hbehind : Behind u (((s.tile u).queue qn).offset ((s.tile u).queue qn).write.toNat) ((s.tile u).queue qn).bytes s)
    (hlen : (s.rd b).toNat % 2 ^ 9 ≤ 256) (hfits : (s.rd b).toNat % 2 ^ 9 ≤ ((s.tile u).queue qn).bytes)
    (hpayload : (s.rd b).toNat % 2 ^ 9 ≠ 0 → off % 8 = 0 ∧ off + (s.rd b).toNat % 2 ^ 9 ≤ 0x28000 ∧ OwnAt u (s.rd a) off s
      ∧ ReadFree u off ((s.rd b).toNat % 2 ^ 9) s) :
    exec (.qpush qn a b) s = .next (s.pushed u qn (BitVec.ofNat 16 ((s.rd b).toNat / 2 ^ 16))
      (s.mem.readN (scratchKey u off) ((s.rd b).toNat % 2 ^ 9)) ((s.rd b).toNat % 2 ^ 9)).retire := by
  have hn : field (s.rd b) 0 9 = (s.rd b).toNat % 2 ^ 9 := by rw [field, Nat.pow_zero, Nat.div_one]
  rw [exec_qpush, execQpush, State.withQueue_valid hcur hv, hn, ofNat_field _ _ le_rfl]
  have hfit : ¬((decide (256 < (s.rd b).toNat % 2 ^ 9) || decide (((s.tile u).queue qn).bytes < (s.rd b).toNat % 2 ^ 9)) = true) := by
    rw [decide_eq_false (Nat.not_lt.2 hlen), decide_eq_false (Nat.not_lt.2 hfits)]
    exact Bool.false_ne_true
  rw [if_neg hfit]
  generalize (s.rd b).toNat % 2 ^ 9 = n at *
  have hnotBusy (at' : Nat) (hread : n ≠ 0 → ReadFree u at' n s) : (decide (((s.tile u).queue qn).free = 0) || !s.released
      || s.payloadBusy (s.rd a) u at' n
      || s.writeBehind u (((s.tile u).queue qn).offset ((s.tile u).queue qn).write.toNat) ((s.tile u).queue qn).bytes) = false := by
    rw [decide_eq_false hfree, hrel, ReadFree.payload_free hread, hbehind.not_behind]
    rfl
  by_cases h0 : n = 0
  · subst h0
    rw [if_neg (by rw [bne_self_eq_false, Bool.false_and]; exact Bool.false_ne_true), if_pos rfl]
    dsimp only
    rw [hnotBusy 0 (fun h => absurd rfl h), if_neg Bool.false_ne_true, State.arrive_assigned, Memory.readN_zero, Memory.readN_zero]
  · obtain ⟨halign, hin, hown, hread⟩ := hpayload h0
    have haligned : ¬((n != 0 && (s.rd a).toNat % 8 != 0) = true) := by
      rw [Bool.and_eq_true, bne_iff_ne, bne_iff_ne, not_and_not_right]
      exact fun _ => (hown.mod_eq ⟨2 ^ 21, rfl⟩).trans halign
    rw [if_neg haligned, if_neg h0, State.ownRange_own hcur hown hin]
    dsimp only
    rw [hnotBusy off fun _ => hread, if_neg Bool.false_ne_true, State.arrive_assigned]

/-- `QFREE` frees the first entry in use at its offset that its slot holds (R177). -/
theorem exec_qfree_held (hcur : s.cur = .slot u k) {a : Reg} {i : Nat} {pre post : List Nat}
    (hv : ((s.tile u).queue qn).valid = true) (huse : ((s.tile u).queue qn).inUse = pre ++ i :: post)
    (hpre : ∀ j ∈ pre, ((s.tile u).queue qn).offset j ≠ (s.rd a).toNat % 2 ^ 18)
    (hat : ((s.tile u).queue qn).offset i = (s.rd a).toNat % 2 ^ 18)
    (hheld : (((s.tile u).queue qn).entry i).held = true) (hmine : (((s.tile u).queue qn).entry i).holder = k) :
    exec (.qfree qn a) s
      = .next (s.setTile u ((s.tile u).setQueue qn (((s.tile u).queue qn).freeEntry i))).retire := by
  have hfield : field (s.rd a) 0 18 = (s.rd a).toNat % 2 ^ 18 := by rw [field, Nat.pow_zero, Nat.div_one]
  have hfirst : ((s.tile u).queue qn).inUse.find? (fun j => ((s.tile u).queue qn).offset j = (s.rd a).toNat % 2 ^ 18
      && (((s.tile u).queue qn).entry j).held && (((s.tile u).queue qn).entry j).holder = k) = some i := by
    refine List.find?_eq_some_iff_append.2 ⟨?_, pre, post, huse, fun j hj => ?_⟩
    · rw [decide_eq_true hat, hheld, decide_eq_true hmine]
      rfl
    · rw [decide_eq_false (hpre j hj)]
      rfl
  rw [exec_qfree, execQfree, State.withQueue_valid hcur hv, hfield, hfirst]
  dsimp only
  rw [State.onQueue_eq]

theorem exec_qstat_valid (hcur : s.cur = .slot u k) (d : Reg) (hv : ((s.tile u).queue qn).valid = true) :
    let q := (s.tile u).queue qn
    exec (.qstat d qn) s = .next (s.put d (BitVec.ofNat 64
      (q.inUse.countP (fun i => (q.entry i).full && (q.entry i).here && !(q.entry i).fired && !(q.entry i).passed)
        + q.inUse.countP (fun i => (q.entry i).held) * 2 ^ 9 + (2 ^ q.logn.toNat - q.used) * 2 ^ 18
        + (if s.blocked u qn then 2 ^ 27 else 0)))) := by
  have counted (l : List Nat) (q : Queue) (p : Entry → Bool) : ((l.map q.entry).filter p).length = l.countP fun i => p (q.entry i) := by
    rw [← List.countP_eq_length_filter, List.countP_map]
    rfl
  have hpending (e : Entry) : (e.waiting && e.here) = (e.full && e.here && !e.fired && !e.passed) := by
    unfold Entry.waiting
    cases e.full <;> cases e.here <;> simp
  have hblocked (b : Bool) : num b * 2 ^ 27 = if b then 2 ^ 27 else 0 := by cases b <;> rfl
  dsimp only
  rw [exec_qstat, execQstat, State.withQueue_valid hcur hv]
  dsimp only
  rw [counted, counted, hblocked]
  simp only [hpending]
  rfl

/-- `ARM` whose operands pass the checks of R172 sets the pair's binding, or a free one. -/
theorem exec_arm_bound (hcur : s.cur = .slot u k) {a b : Reg} {i : Nat} (hv : ((s.tile u).queue qn).valid = true)
    (heven : (s.rd a).toNat % 2 = 0) (hin : (s.rd a).toNat < 0x28000) (halign : (s.rd b).toNat % 16 = 0)
    (hloc : s.loc (s.rd b) 16 ≠ .bad)
    (hi : (s.tile u).bindingOf qn (BitVec.ofNat 16 (s.erd 0).toNat) = some i
      ∨ ((s.tile u).bindingOf qn (BitVec.ofNat 16 (s.erd 0).toNat) = none ∧ (s.tile u).freeBinding = some i)) :
    exec (.arm qn a b) s = .next (s.setTile u ((s.tile u).setBinding i
      { valid := true, queue := qn, tag := BitVec.ofNat 16 (s.erd 0).toNat, entry := s.rd a, counter := s.rd b,
        share := BitVec.ofNat 32 ((s.erd 0).toNat / 2 ^ 32) })).retire := by
  have hbit : ¬(bit (s.rd a) 0 = true) := by
    rw [bit_eq_testBit, Nat.testBit_eq_decide_div_mod_eq, decide_eq_true_eq]
    omega
  rw [exec_arm, execArm, State.withQueue_valid hcur hv, if_neg hbit, if_neg (by omega), if_neg (by rw [halign]; decide),
    if_neg hloc, ofNat_field_zero _ le_rfl, ofNat_field _ _ le_rfl]
  dsimp only
  rcases hi with hi | ⟨hnone, hi⟩
  · rw [hi]
    rfl
  · rw [hnone, hi]
    rfl

end

/-- Settles O30: each write of the queue or of a binding is the model's own, with its checks passed. -/
theorem queueWrites : Obligations.QueueWrites := by
  unfold Obligations.QueueWrites
  intro s u k qn hcur
  refine ⟨fun a i hv => ?_, fun a b off hv hfree hrel hbehind hlen hfits hpayload hw => ?_, fun d hv => ?_,
    fun a b i hv heven hin halign hloc hi => ?_, fun a hv => ⟨fun hnone => ?_, fun i hi => ?_⟩⟩
  · rintro ⟨pre, post, huse, hpre⟩ hat hheld hmine
    refine .intro (exec_qfree_held hcur hv huse hpre hat hheld hmine) ?_
    rw [State.retire_setTile hcur]
    exact s.setTile_frame u _
  · refine .intro (exec_qpush_free hcur hv hfree hrel hbehind hlen hfits hpayload) ?_
    obtain ⟨hread, hsame⟩ := State.pushed_bytes hw u qn (BitVec.ofNat 16 ((s.rd b).toNat / 2 ^ 16)) off ((s.rd b).toNat % 2 ^ 9)
    obtain ⟨htile, hrest⟩ := s.pushed_frame u qn (BitVec.ofNat 16 ((s.rd b).toNat / 2 ^ 16))
      (s.mem.readN (scratchKey u off) ((s.rd b).toNat % 2 ^ 9)) ((s.rd b).toNat % 2 ^ 9)
    obtain ⟨hpassed, hctx⟩ := htile.retire hcur (s.cur_pushed ..) (s.len_pushed ..)
    have hqueue := congrArg (Tile.queue · qn) hpassed.1
    simp only [Tile.passed, Tile.onSlot, Tile.queue_setSlot, Tile.queue_setQueue_same] at hqueue
    unfold SameBytes at hsame ⊢
    dsimp only
    rw [State.mem_retire, hqueue, Queue.entry_pushed_write]
    refine ⟨hread, hsame, rfl, rfl, rfl, rfl, rfl, rfl, rfl, ?_, rfl, rfl, rfl, rfl,
      fun j hj => Queue.entry_pushed_other _ _ _ _ _ hj, hpassed, hrest.trans hctx.cons⟩
    rw [BitVec.toNat_ofNat]
    exact Nat.mod_eq_of_lt (Nat.mod_lt _ (by decide))
  · exact .intro (exec_qstat_valid hcur d hv) (State.put_writes s d _)
  · refine .intro (exec_arm_bound hcur hv heven hin halign hloc hi) ?_
    rw [State.retire_setTile hcur]
    exact s.setTile_frame u _
  · refine .intro (t := s.retire) ?_ s.retire_passes
    rw [exec_disarm, execDisarm, State.withQueue_valid hcur hv, ofNat_field_zero _ le_rfl, hnone]
  · refine .intro (t := (s.setTile u ((s.tile u).setBinding i Binding.none)).retire) ?_ ?_
    · rw [exec_disarm, execDisarm, State.withQueue_valid hcur hv, ofNat_field_zero _ le_rfl, hi]
      rfl
    · rw [State.retire_setTile hcur]
      exact s.setTile_frame u _

end Sys2Proof.Machine
end

section
/-! The end of an activation, its share, and groups (R29, R31, R34, R74, R173, R174). -/

namespace Sys2Proof.Machine

/-! ## What the end of an activation makes of its tile -/

/-- Frees the entries of queue `n` that slot `k` holds (R175). -/
def Tile.freeHeldIn (k : BitVec 2) (x : Tile) (n : Nat) : Tile :=
  let q := x.queue (BitVec.ofNat 3 n)
  x.setQueue (BitVec.ofNat 3 n) ((q.inUse.filter fun i => (q.entry i).held && (q.entry i).holder = k).foldl Queue.freeEntry q)

/-- Freeing held entries changes the queues alone, and looks at them alone. -/
theorem Tile.foldl_freeHeldIn (k : BitVec 2) : ∀ (l : List Nat) (x y : Tile), x.queues = y.queues →
    l.foldl (Tile.freeHeldIn k) x = { x with queues := (l.foldl (Tile.freeHeldIn k) y).queues }
  | [], x, y, h => by rw [List.foldl_nil, List.foldl_nil, ← h]
  | n :: l, x, y, h => by
    have hstep : (Tile.freeHeldIn k x n).queues = (Tile.freeHeldIn k y n).queues := by
      unfold Tile.freeHeldIn Tile.setQueue Tile.queue
      rw [h]
    rw [List.foldl_cons, List.foldl_cons, Tile.foldl_freeHeldIn k l _ _ hstep]
    rfl

theorem Tile.freeHeld_dropDrafts (x : Tile) (k : BitVec 2) :
    (x.dropDrafts k).freeHeld k = { x with drafts := (x.dropDrafts k).drafts, queues := (x.freeHeld k).queues } :=
  Tile.foldl_freeHeldIn k (upFrom 0 8) (x.dropDrafts k) x rfl

theorem Tile.slot_congr {x y : Tile} (h : x.slots = y.slots) (j : BitVec 2) : x.slot j = y.slot j := by
  unfold Tile.slot
  simp only [h]

/-- The end of an activation: its slot, drafts, queue entries and share, and a debug step that ends with it (R29, R173). -/
theorem Tile.endSlot_eq (x : Tile) (k : BitVec 2) (status epc : Word) (no : Nat) (after : List Nat) :
    ∃ count active first owed, x.endSlot k status epc no after =
      { x.setSlot k (x.slot k).release with
          drafts := (x.dropDrafts k).drafts, queues := (x.freeHeld k).queues,
          shareAdds := x.shareAdds ++ (if (x.slot k).shared then [] else
            [{ counter := (x.slot k).counter, share := (x.slot k).share, status := status, after := after, no := no, epc := epc }]),
          dbgCount := count, dbgActive := active, dbgFirst := first, dbgOwed := owed } := by
  unfold Tile.endSlot
  dsimp only
  rw [Tile.freeHeld_dropDrafts]
  cases (x.slot k).shared
  · rw [if_neg Bool.false_ne_true]
    split
    · exact ⟨_, _, _, _, rfl⟩
    · exact ⟨_, _, _, _, rfl⟩
  · simp only [↓reduceIte, List.append_nil]
    split
    · exact ⟨_, _, _, _, rfl⟩
    · exact ⟨_, _, _, _, rfl⟩

theorem Tile.slot_endSlot (x : Tile) (k : BitVec 2) (status epc : Word) (no : Nat) (after : List Nat) (j : BitVec 2) :
    (x.endSlot k status epc no after).slot j = (x.setSlot k (x.slot k).release).slot j := by
  obtain ⟨count, active, first, owed, hend⟩ := x.endSlot_eq k status epc no after
  rw [hend]
  exact Tile.slot_congr rfl j

/-! ## The instructions -/

theorem exec_trig (s : State) : exec .trig s = execTrig s := rfl
theorem exec_join (a : Reg) (s : State) : exec (.join a) s = execJoin a s := rfl
theorem exec_leave (a : Reg) (s : State) : exec (.leave a) s = execLeave a s := rfl

theorem exec_end {i : Instr} (hi : i = .endI ∨ i = .cEnd) (s : State) : exec i s = .next (s.finishActivation i) := by
  rcases hi with rfl | rfl <;> rfl

section
variable {s : State} {u : TileName} {k : BitVec 2}

theorem State.finishActivation_slot (hcur : s.cur = .slot u k) (i : Instr) :
    s.finishActivation i = if s.shareClosed u k then s.privTrap else s.releasePoint (s.await i)
      (s.setTile u ((s.tile u).endSlot k 0 s.pc s.serial s.outIds)) := by
  unfold State.finishActivation State.endActivation
  rw [State.onHome_slot hcur, hcur]
  rfl

/-- A share that names a counter in a tile state space (R74). -/
theorem State.shareClosed_of_state {v : TileName} {off : Nat} (hshared : (s.slot u k).shared = false) (hv : v < 2 ^ 19)
    (he : s.tileExists v = true) (hlo : 0x800000 ≤ off) (hhi : off + 16 ≤ 0x1000000)
    (hcounter : (s.slot u k).counter.toNat = 2 ^ 60 + v * 2 ^ 24 + off) : s.shareClosed u k = true := by
  unfold State.shareClosed
  dsimp only
  rw [hshared, State.locate_tag1 _ hv (by omega) he hcounter, if_neg (by omega), if_pos ⟨hlo, hhi⟩]
  rfl

/-- The state after a request to the group directory of the region has left (R174). -/
def State.groupAsked (s : State) (u : TileName) (k : BitVec 2) (g : BitVec 8) (join : Bool) : State :=
  s.inject (tileNode u) (s.islandNode (s.anchor (s.bulk u.ret).region.toNat) (tileNode u)) 0 1 (s.bulk u.ret).region.toNat false
    (.group u g join (.slot u k) (s.slot u k).act)

theorem State.groupAsked_cur (g : BitVec 8) (join : Bool) : (s.groupAsked u k g join).cur = s.cur := rfl
theorem State.groupAsked_tile (g : BitVec 8) (join : Bool) (v : TileName) : (s.groupAsked u k g join).tile v = s.tile v := rfl
theorem State.groupAsked_len (g : BitVec 8) (join : Bool) : (s.groupAsked u k g join).len = s.len := rfl
theorem State.groupAsked_bulk (g : BitVec 8) (join : Bool) (b : BulkId) : (s.groupAsked u k g join).bulk b = s.bulk b := rfl
theorem State.groupAsked_packet (g : BitVec 8) (join : Bool) :
    OnePacket s.serial (newPacket (tileNode u) (s.islandNode (s.anchor (s.bulk u.ret).region.toNat) (tileNode u)) 0 1
      (s.bulk u.ret).region.toNat false (.group u g join (.slot u k) (s.slot u k).act)) s (s.groupAsked u k g join) :=
  s.inject_packet ..
theorem State.groupAsked_rest (g : BitVec 8) (join : Bool) :
    SameBut [.packets, .routers, .serial] s (s.groupAsked u k g join) := rfl

/-- The directory is asked, and the answer waited for (R174). -/
theorem State.groupRequest_slot (hcur : s.cur = .slot u k) (hgate : (s.bulk u.ret).gate ≠ 2) (i : Instr) (g : BitVec 8) (join : Bool) :
    OnePacket s.serial
        (newPacket (tileNode u) (s.islandNode (s.anchor (s.bulk u.ret).region.toNat) (tileNode u)) 0 1
          (s.bulk u.ret).region.toNat false (.group u g join (.slot u k) (s.slot u k).act)) s (s.groupRequest i u g join)
      ∧ OneTile u ((s.tile u).waits k s.len .group s.issueTime) s (s.groupRequest i u g join)
      ∧ SameBut [.tiles, .packets, .routers, .serial] s (s.groupRequest i u g join) := by
  have hreq : s.groupRequest i u g join = (s.groupAsked u k g join).issueAndWait .group := by
    unfold State.groupRequest
    rw [State.gatesHeld_slot hcur, decide_eq_false hgate, if_neg Bool.false_ne_true, State.stampNow_slot hcur,
      State.actNow_slot hcur, hcur]
    rfl
  rw [hreq, State.issueAndWait_after hcur (State.groupAsked_cur g join) (State.groupAsked_tile g join)
    (State.groupAsked_len g join) (State.groupAsked_bulk g join _)]
  have hpacket := State.groupAsked_packet (s := s) (u := u) (k := k) g join
  have hrest := State.groupAsked_rest (s := s) (u := u) (k := k) g join
  exact ⟨hpacket, State.oneTile_setTile _ fun v _ => State.groupAsked_tile g join v, hrest.cons⟩

theorem exec_join_slot (hcur : s.cur = .slot u k) (a : Reg) :
    let g : BitVec 8 := BitVec.ofNat 8 (s.rd a).toNat
    let gs := (s.tile u).groups ++ s.joining u
    exec (.join a) s = .next (if !gs.contains g && 16 ≤ gs.length then s.trap .queueErr (zext g)
      else s.groupRequest (.join a) u g true) := by
  dsimp only
  rw [exec_join, execJoin, State.onHome_slot hcur, ofNat_field_zero _ le_rfl]

end

/-- Settles O28: what an activation's end makes of its tile, the share that is closed to it, and the requests to the
group directory. -/
theorem activationEnds : Obligations.ActivationEnds := by
  unfold Obligations.ActivationEnds
  refine ⟨fun i s u k hi hcur hout hfails hopen => ?_, fun i s u v k off hi hready hshared hv he hlo hhi hcounter => ?_,
    fun s u k hcur => ⟨fun hshared hout hfails => ?_, fun a hgate => ⟨fun hroom => ?_, ?_⟩, fun a hready hnew hfull => ?_⟩⟩
  · refine .intro (t := s.setTile u ((s.tile u).endSlot k 0 s.pc s.serial s.outIds)) ?_ ?_
    · rw [exec_end hi, State.finishActivation_slot hcur, hopen, if_neg Bool.false_ne_true,
        State.releasePoint_clear hcur hout hfails]
    · obtain ⟨count, active, first, owed, hend⟩ := (s.tile u).endSlot_eq k 0 s.pc s.serial s.outIds
      have hslot := (s.tile u).slot_endSlot k 0 s.pc s.serial s.outIds
      unfold State.slot
      rw [State.tile_setTile_same]
      refine ⟨(hslot k).trans (Tile.slot_setSlot_same ..), fun j hj => (hslot j).trans (Tile.slot_setSlot_other _ _ hj), ?_, ?_, ?_, ?_,
        fun v hv => State.tile_setTile_other s _ hv, rfl⟩
      · rw [hend, Tile.dropDrafts_eq]
      · rw [hend]
      · rw [hend]
      · rw [hend]
        rfl
  · refine .intro (t := s.privTrap) ?_ (State.privTrap_traps hready)
    rw [exec_end hi, State.finishActivation_slot hready.cur, State.shareClosed_of_state hshared hv he hlo hhi hcounter, if_pos rfl]
  · refine .intro (t := s.retire) ?_ s.retire_passes
    rw [exec_trig, execTrig, State.onHome_slot hcur]
    dsimp only
    rw [hshared, if_pos rfl, State.releasePoint_clear hcur hout hfails]
  · refine .intro ((exec_join_slot hcur a).trans ?_) (State.groupRequest_slot hcur hgate (.join a) _ true)
    rw [if_neg]
    rw [Bool.and_eq_true, Bool.not_eq_true', decide_eq_true_eq]
    rintro ⟨hnew, hfull⟩
    rcases hroom with hknown | hroom
    · rw [hknown] at hnew
      exact Bool.noConfusion hnew
    · exact absurd hfull (Nat.not_le.2 hroom)
  · refine .intro ?_ (State.groupRequest_slot hcur hgate (.leave a) _ false)
    rw [exec_leave, execLeave, State.onHome_slot hcur, ofNat_field_zero _ le_rfl]
  · refine .intro ((exec_join_slot hcur a).trans ?_) ?_ (t := s.trap .queueErr (zext (BitVec.ofNat 8 (s.rd a).toNat)))
    · rw [hnew, decide_eq_true hfull]
      rfl
    · rw [← zext_eq_ofNat]
      exact State.trap_traps hready _ _

end Sys2Proof.Machine
end

section
/-! The state registers of a tile, read and written by its slots (R41 to R45, R100, R183, R192, R240, R245, R270). -/

namespace Sys2Proof.Machine

theorem num_mul (b : Bool) (n : Nat) : num b * n = if b then n else 0 := by
  cases b
  · exact Nat.zero_mul n
  · exact Nat.one_mul n

theorem num_decide_mul (p : Prop) [Decidable p] (n : Nat) : num (decide p) * n = if p then n else 0 := by
  simp only [num_mul, decide_eq_true_eq]

theorem num_not_isEmpty {α : Type} (l : List α) [Decidable (l = [])] (n : Nat) :
    num (!l.isEmpty) * n = if l = [] then 0 else n := by
  cases l with
  | nil => exact (Nat.zero_mul n).trans (if_pos rfl).symm
  | cons a l => exact (Nat.one_mul n).trans (if_neg (List.cons_ne_nil a l)).symm

/-! ## Roll-call wires (R164, R165) -/

theorem State.latchWire_wires (s : State) (b : BulkId) (col : Bool) (i : Nat) :
    ∃ w, s.latchWire b col i = { s with wires := w } ∧ ∀ j, j ≠ wireKey b col i → w.find? j = s.wires.find? j := by
  unfold State.latchWire
  dsimp only
  split
  · exact ⟨s.wires, rfl, fun _ _ => rfl⟩
  · exact ⟨_, rfl, fun j hj => Sparse.find?_put_other _ hj _⟩

/-- Looking at the wires of a tile changes no other wire, and nothing else. -/
theorem State.latchWires_wires (s : State) (u : TileName) :
    ∃ w, s.latchWires u = { s with wires := w } ∧
      ∀ j, j ≠ wireKey u.ret false (tileY u) → j ≠ wireKey u.ret true (tileX u) → w.find? j = s.wires.find? j := by
  obtain ⟨w, hw, hrow⟩ := s.latchWire_wires u.ret false (tileY u)
  obtain ⟨w', hw', hcol⟩ := (s.latchWire u.ret false (tileY u)).latchWire_wires u.ret true (tileX u)
  refine ⟨w', hw'.trans (by rw [hw]), fun j hr hc => (hcol j hc).trans ?_⟩
  rw [hw]
  exact hrow j hr

/-! ## Indices -/

/-- The indices that R41 lists, in the order of its table, and those of them that a slot may write or may not name. -/
def listedRegs : List (BitVec 12) := [0x000#12, 0x001, 0x002, 0x003, 0x004, 0x005, 0x010, 0x011, 0x012, 0x013, 0x014, 0x020,
  0x021, 0x022, 0x030, 0x031, 0x040, 0x041, 0x050, 0x100, 0x101, 0x102, 0x110]
def writableRegs : List (BitVec 12) := [0x014#12, 0x020, 0x030, 0x031, 0x040]
def privilegedRegs : List (BitVec 12) := [0x100#12, 0x101, 0x102, 0x110]

theorem toNat_notMem {i : BitVec 12} {l : List (BitVec 12)} (h : i ∉ l) : i.toNat ∉ l.map BitVec.toNat := by
  rw [List.mem_map]
  rintro ⟨j, hj, he⟩
  exact h (BitVec.eq_of_toNat_eq he ▸ hj)

theorem privReg_iff (i : BitVec 12) : privReg i.toNat = true ↔ i ∈ privilegedRegs := by
  simp [privReg, privilegedRegs, ← BitVec.toNat_inj, or_assoc]

theorem writable_listed : ∀ i ∈ writableRegs, i ∈ listedRegs := by simp [writableRegs, listedRegs]

theorem unlisted_notPriv {i : BitVec 12} (h : i ∉ listedRegs) : privReg i.toNat = false := by
  have hlisted : ∀ j ∈ privilegedRegs, j ∈ listedRegs := by simp [privilegedRegs, listedRegs]
  exact Bool.eq_false_iff.2 fun hp => h (hlisted i ((privReg_iff i).1 hp))

section
variable {s : State} {u : TileName} {k : BitVec 2}

theorem State.tileReg_unlisted {n : Nat} (h : n ∉ listedRegs.map BitVec.toNat) : s.tileReg u k n = none := by
  unfold State.tileReg
  dsimp only
  split
  on_goal 24 => rfl
  all_goals simp [listedRegs] at h

theorem State.setTileReg_rcMask (v : Word) : s.setTileReg u 0x020 v = if s.barwWaits u then .wait
    else .ok ((s.setTile u { s.tile u with rcMask := BitVec.ofNat 2 (field v 0 2) }).latchWires u) := rfl

theorem State.setTileReg_ddaCtl (v : Word) : s.setTileReg u 0x030 v = if (s.tile u).fab.state != 0 then .illegal
    else .ok ((s.enrol u (BitVec.ofNat 4 (field v 0 4)) (BitVec.ofNat 6 (field v 4 6)) (bit v 10)).onFabric u fun f =>
      { f with steps := BitVec.ofNat 32 (field v 32 32) }) := rfl

theorem State.setTileReg_readOnly {n : Nat} (h : n ∉ writableRegs.map BitVec.toNat) (v : Word) :
    s.setTileReg u n v = .illegal := by
  unfold State.setTileReg
  dsimp only
  split
  on_goal 6 => rfl
  all_goals simp [writableRegs] at h

/-! ## The instructions -/

theorem exec_mfs (c : Reg) (i : BitVec 12) (s : State) : exec (.mfs c i) s = execMfs c i s := rfl
theorem exec_mts (c : Reg) (i : BitVec 12) (s : State) : exec (.mts c i) s = execMts c i s := rfl

theorem exec_mfs_slot (hcur : s.cur = .slot u k) (c : Reg) (i : BitVec 12) :
    exec (.mfs c i) s = .next (if privReg i.toNat then s.privTrap
      else match s.tileReg u k i.toNat with
        | none => s.illegal
        | some v => s.put c v) := by
  rw [exec_mfs, execMfs, State.homeSlot_slot hcur, State.onCoreNow, hcur]
  rfl

theorem exec_mts_slot (hcur : s.cur = .slot u k) (c : Reg) (i : BitVec 12) :
    exec (.mts c i) s = .next (if privReg i.toNat then s.privTrap
      else if (s.tileReg u k i.toNat).isNone then s.illegal
      else match s.setTileReg u i.toNat (s.rd c) with
        | .ok t => t.retire
        | .illegal => s.illegal
        | .wait => s.await (.mts c i)) := by
  rw [exec_mts, execMts, State.homeSlot_slot hcur, State.onCoreNow, hcur]
  rfl

/-- A register that a slot reads (R183). -/
theorem mfs_reads (hcur : s.cur = .slot u k) (c : Reg) {i : BitVec 12} {w : Word} {v : Nat} (hpriv : privReg i.toNat = false)
    (hreg : s.tileReg u k i.toNat = some w) (hw : w = BitVec.ofNat 64 v) :
    Completes (.mfs c i) s (Writes c (BitVec.ofNat 64 v) s) := by
  subst hw
  refine .intro ?_ (State.put_writes s c _)
  rw [exec_mfs_slot hcur, hpriv, if_neg Bool.false_ne_true, hreg]

/-- A register that a slot writes (R183). -/
theorem exec_mts_ok (hcur : s.cur = .slot u k) (c : Reg) {i : BitVec 12} {w : Word} {t : State} (hpriv : privReg i.toNat = false)
    (hreg : s.tileReg u k i.toNat = some w) (hset : s.setTileReg u i.toNat (s.rd c) = .ok t) :
    exec (.mts c i) s = .next t.retire := by
  rw [exec_mts_slot hcur, hpriv, if_neg Bool.false_ne_true, hreg, hset]
  rfl

theorem mts_illegal (h : TrapReady u k s) (c : Reg) {i : BitVec 12} (hpriv : privReg i.toNat = false)
    (hset : s.setTileReg u i.toNat (s.rd c) = .illegal) :
    Completes (.mts c i) s (Traps u k .illegal (BitVec.ofNat 64 s.iw.toNat) s) := by
  refine .intro ?_ (State.illegal_traps h)
  rw [exec_mts_slot h.cur, hpriv, if_neg Bool.false_ne_true, hset, ite_self]

/-- A slot's write of a register that changes its tile alone. -/
theorem mts_becomes (hcur : s.cur = .slot u k) (c : Reg) {i : BitVec 12} {w : Word} {x : Tile} (hpriv : privReg i.toNat = false)
    (hreg : s.tileReg u k i.toNat = some w) (hset : s.setTileReg u i.toNat (s.rd c) = .ok (s.setTile u x)) :
    Completes (.mts c i) s fun t => OneTile u (x.passed k s.len) s t ∧ SameBut [.tiles] s t := by
  refine .intro (exec_mts_ok hcur c hpriv hreg hset) ?_
  rw [State.retire_setTile hcur]
  exact s.setTile_frame u _

/-! ## RC_MASK, DDA_CTL, LL_CTL -/

/-- RC_MASK is written, and the wires of the tile are looked at with the new mask (R45, R164). -/
theorem mts_rcMask (hcur : s.cur = .slot u k) (c : Reg) (hwaits : s.barwWaits u = false) :
    Completes (.mts c 0x020) s fun t =>
      OneTile u (Tile.passed { s.tile u with rcMask := BitVec.ofNat 2 (s.rd c).toNat } k s.len) s t
        ∧ (∀ w, w ≠ wireKey u.ret false (tileY u) → w ≠ wireKey u.ret true (tileX u) → t.wires.find? w = s.wires.find? w)
        ∧ SameBut [.tiles, .wires] s t := by
  obtain ⟨w, hw, hother⟩ :=
    (s.setTile u { s.tile u with rcMask := BitVec.ofNat 2 (s.rd c).toNat }).latchWires_wires u
  have hset : s.setTileReg u 0x020 (s.rd c) = .ok ({ s with wires := w }.setTile u
      { s.tile u with rcMask := BitVec.ofNat 2 (s.rd c).toNat }) := by
    rw [State.setTileReg_rcMask, hwaits, if_neg Bool.false_ne_true, ofNat_field_zero _ le_rfl, hw]
    rfl
  refine .intro (exec_mts_ok hcur c rfl rfl hset) ?_
  rw [State.retire_setTile (s := { s with wires := w }) hcur]
  exact ⟨State.oneTile_setTile _ fun _ _ => rfl, hother, rfl⟩

/-- The state with a step domain as given. -/
def State.withDomain (s : State) (key : Nat) (x : Domain) : State := { s with domains := s.domains.put key x }

/-- A HALTED tile in a domain of its own enrols in one that does not run (R241, R242). -/
theorem State.enrol_eq (div : BitVec 4) (d : BitVec 6) (policy : Bool)
    (hold : (s.tile u).fab.domain = 0 ∨ (s.tile u).fab.domain = d) (hrun : (s.domain (domainKey u d)).run = none) :
    s.enrol u div d policy =
      (s.withDomain (domainKey u d) { s.domain (domainKey u d) with div := div, policy := policy }).setTile u
        { s.tile u with fab := { (s.tile u).fab with domain := d } } := by
  have hleft (r : State) (hne : (s.tile u).fab.domain ≠ d) : r.takeStartLeft u (s.tile u).fab.domain = r := by
    rw [hold.resolve_right hne]
    unfold State.takeStartLeft
    split
    · exact if_pos rfl
    · rfl
  have hleft' (r : State) : (if (s.tile u).fab.domain = d then r else r.takeStartLeft u (s.tile u).fab.domain) = r := by
    split
    · rfl
    · exact hleft r ‹_›
  unfold State.enrol
  dsimp only
  rw [hleft']
  have hdomain : (s.onFabric u fun f => { f with domain := d }).domain (domainKey u d) = s.domain (domainKey u d) := rfl
  unfold State.onDomain
  rw [hdomain]
  dsimp only
  rw [if_neg (by rw [hrun]; exact Bool.false_ne_true)]
  rfl

theorem mts_ddaCtl (hcur : s.cur = .slot u k) (c : Reg) {d : BitVec 6} (hd : BitVec.ofNat 6 ((s.rd c).toNat / 2 ^ 4) = d)
    (hhalted : (s.tile u).fab.state = 0) (hold : (s.tile u).fab.domain = 0 ∨ (s.tile u).fab.domain = d)
    (hrun : (s.domain (domainKey u d)).run = none) :
    Completes (.mts c 0x030) s fun t =>
      t.domain (domainKey u d) = { s.domain (domainKey u d) with div := BitVec.ofNat 4 (s.rd c).toNat, policy := bit (s.rd c) 10 }
        ∧ (∀ j, j ≠ domainKey u d → t.domain j = s.domain j)
        ∧ OneTile u (Tile.passed { s.tile u with fab := { (s.tile u).fab with
            domain := d, steps := BitVec.ofNat 32 ((s.rd c).toNat / 2 ^ 32) } } k s.len) s t
        ∧ SameBut [.tiles, .domains] s t := by
  have hset : s.setTileReg u 0x030 (s.rd c) = .ok ((s.withDomain (domainKey u d)
      { s.domain (domainKey u d) with div := BitVec.ofNat 4 (s.rd c).toNat, policy := bit (s.rd c) 10 }).setTile u
        { s.tile u with fab := { (s.tile u).fab with domain := d, steps := BitVec.ofNat 32 ((s.rd c).toNat / 2 ^ 32) } }) := by
    rw [State.setTileReg_ddaCtl, hhalted, if_neg (by decide), ofNat_field_zero _ le_rfl, ofNat_field _ _ le_rfl, ofNat_field _ _ le_rfl, hd,
      State.enrol_eq _ d _ hold hrun, State.onFabric, State.onTile, State.tile_setTile_same, State.setTile_setTile]
  refine .intro (exec_mts_ok hcur c rfl rfl hset) ?_
  rw [State.retire_setTile (s := s.withDomain _ _) hcur]
  exact ⟨Sparse.get_put_same .., fun j hj => Sparse.get_put_other _ _ hj _, State.oneTile_setTile _ fun _ _ => rfl, rfl⟩

/-- LL_CTL takes a write where R270 allows it. -/
theorem Tile.badLevel_iff (x : Tile) (v : Word) :
    x.badLevel v = true ↔ field v 32 4 = 1 ∨ field v 32 4 = 2 ∨ 12 < field v 32 4
      ∨ ((field v 32 4 ≠ field x.lvl.ctl 32 4 ∨ field v 16 13 ≠ field x.lvl.ctl 16 13)
          ∧ (x.lvl.depth ≠ 0 ∨ ∃ j, (x.slot j).taken ≠ none))
      ∨ (field v 32 4 ≠ 0 ∧ 0x28000 < 32 * field v 16 13 + 32 * 2 ^ field v 32 4) := by
  have hall (j : BitVec 2) : j ∈ allSlots := by revert j; decide
  have htaken : (allSlots.any fun k => (x.slot k).taken.isSome) = true ↔ ∃ j, (x.slot j).taken ≠ none := by
    simp only [List.any_eq_true, Option.isSome_iff_ne_none]
    exact ⟨fun ⟨j, _, hj⟩ => ⟨j, hj⟩, fun ⟨j, hj⟩ => ⟨j, hall j, hj⟩⟩
  unfold Tile.badLevel
  simp only [Bool.or_eq_true, Bool.and_eq_true, decide_eq_true_eq, bne_iff_ne, htaken, or_assoc]

/-- What a write of LL_CTL gives: `ILLEGAL`, or the fields it holds, with the head at the ring's first entry where the ring
has moved (R270). -/
theorem State.setTileReg_llCtl (v : Word) :
    s.setTileReg u 0x040 v =
      if (s.tile u).badLevel v = true ∨ (s.levelMoving u = true
          ∧ (field v 32 4 ≠ field (s.tile u).lvl.ctl 32 4 ∨ field v 16 13 ≠ field (s.tile u).lvl.ctl 16 13)) then .illegal
      else .ok (s.setTile u { s.tile u with lvl := { (s.tile u).lvl with
        ctl := llMask v,
        head := if field v 32 4 ≠ field (s.tile u).lvl.ctl 32 4 ∨ field v 16 13 ≠ field (s.tile u).lvl.ctl 16 13 then 0
          else (s.tile u).lvl.head } }) := by
  unfold State.setTileReg
  simp only [Bool.or_eq_true, Bool.and_eq_true, bne_iff_ne]

/-- A write of LL_CTL that R270 refuses, in the words of the rule. -/
def badLlCtl (u : TileName) (v : Word) (s : State) : Prop :=
  let l := (s.tile u).lvl
  let size := v.toNat / 2 ^ 32 % 2 ^ 4
  let base := v.toNat / 2 ^ 16 % 2 ^ 13
  size = 1 ∨ size = 2 ∨ 12 < size
    ∨ ((size ≠ field l.ctl 32 4 ∨ base ≠ field l.ctl 16 13)
        ∧ (l.depth ≠ 0 ∨ (∃ j, ((s.tile u).slot j).taken ≠ none) ∨ s.levelMoving u = true))
    ∨ (size ≠ 0 ∧ 0x28000 < 32 * base + 32 * 2 ^ size)

theorem State.llCtl_refused_iff (v : Word) :
    ((s.tile u).badLevel v = true ∨ (s.levelMoving u = true
      ∧ (field v 32 4 ≠ field (s.tile u).lvl.ctl 32 4 ∨ field v 16 13 ≠ field (s.tile u).lvl.ctl 16 13))) ↔ badLlCtl u v s := by
  rw [Tile.badLevel_iff]
  unfold badLlCtl
  dsimp only
  rw [← show field v 32 4 = v.toNat / 2 ^ 32 % 2 ^ 4 from rfl, ← show field v 16 13 = v.toNat / 2 ^ 16 % 2 ^ 13 from rfl]
  tauto

end

/-- Settles O33: what each listed register reads as, what the writable ones take, and the traps of the others. -/
theorem tileRegisters : Obligations.TileRegisters := by
  unfold Obligations.TileRegisters
  intro s u k c hcur
  have self (w : Word) : w = BitVec.ofNat 64 w.toNat := by rw [BitVec.ofNat_toNat, BitVec.setWidth_eq]
  refine ⟨mfs_reads hcur c rfl rfl rfl, mfs_reads hcur c rfl rfl (zext_eq_ofNat _), ?owner, mfs_reads hcur c rfl rfl (zext_eq_ofNat _),
    mfs_reads hcur c rfl rfl (zext_eq_ofNat _), mfs_reads hcur c rfl rfl (self _), ?slot, mfs_reads hcur c rfl rfl (zext_eq_ofNat _),
    mfs_reads hcur c rfl rfl (self _), mfs_reads hcur c rfl rfl (self _), mfs_reads hcur c rfl rfl (zext_eq_ofNat _),
    mfs_reads hcur c rfl rfl (zext_eq_ofNat _), mfs_reads hcur c rfl rfl (self _), mfs_reads hcur c rfl rfl (self _), ?vstat, ?ddaCtl,
    ?ddaStat, mfs_reads hcur c rfl rfl rfl, mfs_reads hcur c rfl rfl rfl, ?trapctl, mts_rcMask hcur c, ?clears,
    mts_ddaCtl hcur c rfl, ?llCtl, ?running, ?indices⟩
  case owner =>
    refine mfs_reads hcur c rfl rfl ?_
    rw [Bulk.owner, num_mul, num_mul]
  case slot =>
    refine mfs_reads hcur c rfl rfl ?_
    rw [Slot.reg, num_mul, num_decide_mul]
    rfl
  case vstat =>
    refine mfs_reads hcur c rfl rfl ?_
    rw [State.vstat, ← Nat.mul_one (num (!_)), num_not_isEmpty, num_mul, List.countP_eq_length_filter]
  case ddaCtl =>
    refine mfs_reads hcur c rfl rfl ?_
    rw [State.ddaCtl, num_mul]
  case ddaStat =>
    refine mfs_reads hcur c rfl rfl ?_
    rw [Fabric.stat, num_not_isEmpty]
    simp only [num_mul]
  case trapctl =>
    refine mts_becomes hcur c rfl rfl ?_
    rw [← ofNat_field_zero (s.rd c) (le_refl 2)]
    rfl
  case clears => exact mts_becomes hcur c rfl rfl rfl
  case llCtl =>
    refine ⟨fun hok hmoved => ?_, fun hok hstays => ?_, fun hbad hready => ?_⟩
    · refine mts_becomes hcur c rfl rfl ((State.setTileReg_llCtl _).trans ?_)
      have hfields : field (s.rd c) 32 4 ≠ field (s.tile u).lvl.ctl 32 4 ∨ field (s.rd c) 16 13 ≠ field (s.tile u).lvl.ctl 16 13 :=
        hmoved
      rw [if_neg ((State.llCtl_refused_iff _).not.2 hok), if_pos hfields]
      rfl
    · refine mts_becomes hcur c rfl rfl ((State.setTileReg_llCtl _).trans ?_)
      have hfields : ¬(field (s.rd c) 32 4 ≠ field (s.tile u).lvl.ctl 32 4
          ∨ field (s.rd c) 16 13 ≠ field (s.tile u).lvl.ctl 16 13) := hstays
      rw [if_neg ((State.llCtl_refused_iff _).not.2 hok), if_neg hfields]
      rfl
    · refine mts_illegal hready c rfl ((State.setTileReg_llCtl _).trans ?_)
      rw [if_pos ((State.llCtl_refused_iff _).2 hbad)]
  case running =>
    intro hrunning hready
    refine mts_illegal hready c rfl ((State.setTileReg_ddaCtl _).trans ?_)
    rw [if_pos (bne_iff_ne.2 hrunning)]
  case indices =>
    intro hready i
    refine ⟨fun hi => ⟨?_, ?_⟩, fun hi => ?_, fun hi => ⟨?_, ?_⟩⟩
    · refine .intro ?_ (State.privTrap_traps hready)
      rw [exec_mfs_slot hcur, (privReg_iff i).2 hi, if_pos rfl]
    · refine .intro ?_ (State.privTrap_traps hready)
      rw [exec_mts_slot hcur, (privReg_iff i).2 hi, if_pos rfl]
    · have hreadOnly : ∀ j ∈ [0x000#12, 0x001, 0x002, 0x003, 0x004, 0x005, 0x010, 0x011, 0x012, 0x013, 0x021, 0x022, 0x041, 0x050],
          privReg j.toNat = false ∧ j ∉ writableRegs := by simp [privReg, writableRegs]
      obtain ⟨hpriv, hwritable⟩ := hreadOnly i hi
      exact mts_illegal hready c hpriv (State.setTileReg_readOnly (toNat_notMem hwritable) _)
    · refine .intro ?_ (State.illegal_traps hready)
      rw [exec_mfs_slot hcur, unlisted_notPriv hi, if_neg Bool.false_ne_true, State.tileReg_unlisted (toNat_notMem hi)]
    · refine mts_illegal hready c (unlisted_notPriv hi) (State.setTileReg_readOnly (toNat_notMem fun hw => hi ?_) _)
      exact writable_listed _ hw

end Sys2Proof.Machine
end

section
/-! Release points: every instruction that is one asks for the check results before it acts (R99). -/

namespace Sys2Proof.Machine

section
variable {s : State} {u : TileName} {k : BitVec 2} {i : Instr}

/-! ## Addresses off the tile -/

theorem OffTile.ne_own {a : Word} {n : Nat} (h : OffTile u a n s) {v : TileName} {off : Nat} (hl : s.loc a n = .scratch v off) :
    u ≠ v := by
  rintro rfl
  exact h.notOwn off hl

theorem OffTile.not_ownScratch (hcur : s.cur = .slot u k) {a : Word} {n : Nat} (h : OffTile u a n s) :
    s.ownScratch (s.loc a n) = false := by
  unfold State.ownScratch
  rw [hcur]
  cases hl : s.loc a n with
  | scratch v off => exact decide_eq_false (h.ne_own hl)
  | _ => rfl

theorem OffTile.not_onOwnTile (hcur : s.cur = .slot u k) {a : Word} {n : Nat} (h : OffTile u a n s) :
    s.onOwnTile (s.loc a n) = false := by
  unfold State.onOwnTile
  rw [State.homeTile_slot hcur]
  cases hl : s.loc a n with
  | scratch v off => exact decide_eq_false (h.ne_own hl)
  | _ => rfl

theorem OffTile.not_ownCode (hcur : s.cur = .slot u k) {a : Word} {n : Nat} (h : OffTile u a n s) :
    s.ownCode (s.loc a n) n = false := by
  unfold State.ownCode
  rw [State.homeTile_slot hcur]
  cases hl : s.loc a n with
  | scratch v off =>
    dsimp only
    rw [decide_eq_false (h.ne_own hl), Bool.false_and]
  | _ => rfl

/-- An address off the tile has not tag 0x0, which names the tile's own scratch (R73). -/
theorem OffTile.not_isOwn (hcur : s.cur = .slot u k) {a : Word} {n : Nat} (h : OffTile u a n s) : s.isOwn a = false := by
  unfold State.isOwn
  rw [hcur]
  refine decide_eq_false fun htag => ?_
  have hsmall : a.toNat < 2 ^ 60 := by
    have := a.isLt
    simp only [field, Nat.reducePow] at *
    omega
  have hloc := State.locate_tag0 (s := s) (u := u) (n := n) hsmall
  rw [← State.loc_slot hcur] at hloc
  split at hloc
  · exact h.notOwn _ hloc
  · exact h.named hloc

/-! ## The checks that stand before a release point -/

theorem CounterNamed.passes {a : Word} (h : CounterNamed a s) (act : Loc → State) :
    s.counterAddr a act = act (s.loc a 16) := by
  unfold State.counterAddr
  rw [if_neg (by rw [h.aligned]; decide)]
  cases hl : s.loc a 16 with
  | bad => exact absurd hl h.named
  | state v off => exact absurd hl (h.noState v off)
  | _ => rfl

/-- A store off the tile is a release point, once its address has passed (R99, R137). -/
theorem storeAt_release (hcur : s.cur = .slot u k) {bs : List Byte} {ea : Word} (halign : ea.toNat % bs.length = 0)
    (hoff : OffTile u ea bs.length s) : ∃ act, s.storeAt bs ea = s.releasePoint s.retry act := by
  unfold State.storeAt
  dsimp only
  rw [if_neg (by rw [halign]; decide), hoff.not_ownCode hcur, hoff.not_onOwnTile hcur, hoff.not_isOwn hcur]
  cases hl : s.loc ea bs.length with
  | bad => exact absurd hl hoff.named
  | state v off => exact absurd hl (hoff.noState v off)
  | scratch v off => exact ⟨_, by rw [hcur]; rfl⟩
  | translated =>
    have hfar : s.farLine ea .w = none := by rw [State.farLine, hcur]
    exact ⟨_, by rw [hfar]⟩
  | _ => exact ⟨_, rfl⟩

theorem length_toBytes : ∀ (n v : Nat), (toBytes n v).length = n
  | 0, _ => rfl
  | n + 1, v => congrArg (· + 1) (length_toBytes n (v / 256))

theorem zext_shift (off : BitVec 3) (j : Nat) : zext off <<< j = BitVec.ofNat 64 (2 ^ j * off.toNat) := by
  refine BitVec.eq_of_toNat_eq ?_
  rw [BitVec.toNat_shiftLeft, zext_eq_ofNat, BitVec.toNat_ofNat, BitVec.toNat_ofNat, Nat.shiftLeft_eq, mul_comm (2 ^ j)]
  rw [Nat.mod_mul_mod]

/-- The store instructions are stores of as many bytes as R136 says, at the address that it says. -/
theorem exec_store {n : Nat} {v ea : Word} (h : storeRule s.rd i = some (n, v, ea)) :
    exec i s = .next (s.storeAt (toBytes n v.toNat) ea) := by
  unfold storeRule at h
  split at h
  case h_7 => cases h
  case h_5 c a off =>
    cases h
    rw [show 8 * off.toNat = 2 ^ 3 * off.toNat from rfl, ← zext_shift off 3]
    rfl
  case h_6 c a off =>
    cases h
    rw [show 4 * off.toNat = 2 ^ 2 * off.toNat from rfl, ← zext_shift off 2]
    rfl
  all_goals
    cases h
    rfl

theorem exec_reduction {op : RedOp} {mod : BitVec 2} {a b : Reg} (h : reductionForm i = some (op, mod, a, b)) :
    exec i s = .next (s.reduction i op mod (s.rd a) (s.rd b)) := by
  unfold reductionForm at h
  split at h
  case h_8 => cases h
  all_goals
    cases h
    rfl

/-! ## Reductions -/

theorem redWidth_eq (op : RedOp) (mod : BitVec 2) : redWidth op mod = if op = .addf ∨ mod ≠ 0 then 4 else 8 := by
  unfold redWidth
  simp only [Bool.or_eq_true, decide_eq_true_eq, bne_iff_ne]

/-- A reduction off the tile is a release point, once its address has passed (R99, R162). -/
theorem reduction_release (hcur : s.cur = .slot u k) {op : RedOp} {mod : BitVec 2} {A B : Word}
    (halign : A.toNat % redWidth op mod = 0) (hoff : OffTile u A (redWidth op mod) s) :
    ∃ act, s.reduction i op mod A B = s.releasePoint (s.await i) act := by
  unfold State.reduction
  dsimp only
  have hown := hoff.not_ownScratch hcur
  have htile := hoff.not_onOwnTile hcur
  rw [if_neg (by rw [halign]; decide)]
  cases hl : s.loc A (redWidth op mod) with
  | bad => exact absurd hl hoff.named
  | state v off => exact absurd hl (hoff.noState v off)
  | _ =>
    rw [hl] at hown htile
    dsimp only
    rw [State.atOperand, hown, if_neg Bool.false_ne_true, htile, if_neg Bool.false_ne_true]
    exact ⟨_, rfl⟩

/-! ## Transfers -/

theorem exec_stream {acq : Bool} {d a b : Reg} (h : streamForm i = some (acq, d, a, b)) :
    exec i s = .next (s.streamIssue i acq (s.rd d) (s.rd a) (s.rd b)) := by
  unfold streamForm at h
  split at h
  case h_7 => cases h
  all_goals
    cases h
    rfl

/-- The command that a transfer forms, with copies of the records that its handles name (R261, R262). -/
theorem formCmd_withRecords (hcur : s.cur = .slot u k) {acq : Bool} {d a b : Reg} {src dst : Option TRec}
    (h : TransferOk u k i acq d a b src dst s) :
    (s.formCmd k i acq (s.rd d) (s.rd a) (s.rd b)).withRecords (s.tile u) = namedCommand u k i acq d a b src dst 0 s
      ∧ (s.formCmd k i acq (s.rd d) (s.rd a) (s.rd b)).handles.find? (fun n => ((s.tile u).handle n).isNone) = none := by
  have hform : s.formCmd k i acq (s.rd d) (s.rd a) (s.rd b) = namedCommand u k i acq d a b none none 0 s := by
    unfold State.formCmd namedCommand
    rw [State.actNow_slot hcur]
  have hmode : (namedCommand u k i acq d a b none none 0 s).mode = (s.erd 1).toNat % 4 := by
    rw [SCmd.mode, field, Nat.pow_zero, Nat.div_one]
    rfl
  have hfirst : field (s.erd 0) 0 32 = (s.erd 0).toNat % 2 ^ 32 := by rw [field, Nat.pow_zero, Nat.div_one]
  have hrecords := h.records
  dsimp only at hrecords
  have hhandles : (namedCommand u k i acq d a b none none 0 s).handles =
      if isListed i then [] else match (s.erd 1).toNat % 4 with
        | 0 => []
        | 3 => [(s.erd 0).toNat % 2 ^ 32, (s.erd 0).toNat / 2 ^ 32 % 2 ^ 32]
        | _ => [(s.erd 0).toNat % 2 ^ 32] := by
    unfold SCmd.handles
    rw [hmode, ← hfirst]
    rfl
  have hinstr : isListed (namedCommand u k i acq d a b none none 0 s).instr = isListed i := rfl
  rw [hform]
  unfold SCmd.withRecords
  rw [hhandles, hmode, hinstr]
  generalize hm : (s.erd 1).toNat % 4 = m at hrecords ⊢
  have hlt : m < 4 := hm ▸ Nat.mod_lt _ (by decide)
  generalize (s.erd 0).toNat % 2 ^ 32 = h0 at hrecords ⊢
  generalize (s.erd 0).toNat / 2 ^ 32 % 2 ^ 32 = h1 at hrecords ⊢
  cases hlisted : isListed i with
  | true =>
    rw [if_pos (.inl hlisted)] at hrecords
    obtain ⟨rfl, rfl⟩ := hrecords
    exact ⟨rfl, rfl⟩
  | false =>
    rw [hlisted] at hrecords
    match m, hlt with
    | 0, _ =>
      obtain ⟨rfl, rfl⟩ := hrecords
      exact ⟨rfl, rfl⟩
    | 1, _ =>
      obtain ⟨⟨r, hr, rfl⟩, rfl⟩ := hrecords
      exact ⟨congrArg (fun x => { namedCommand u k i acq d a b none none 0 s with recSrc := x }) hr, by simp [hr]⟩
    | 2, _ =>
      obtain ⟨rfl, ⟨r, hr, rfl⟩⟩ := hrecords
      exact ⟨congrArg (fun x => { namedCommand u k i acq d a b none none 0 s with recDst := x }) hr, by simp [hr]⟩
    | 3, _ =>
      obtain ⟨⟨r, hr, rfl⟩, ⟨r', hr', rfl⟩⟩ := hrecords
      exact ⟨congrArg₂ (fun x y => { namedCommand u k i acq d a b none none 0 s with recSrc := x, recDst := y }) hr hr',
        by simp [hr, hr']⟩

/-- A transfer command is a release point, once its checks have passed (R99, R264). -/
theorem stream_release (hcur : s.cur = .slot u k) {acq : Bool} {d a b : Reg} {src dst : Option TRec}
    (h : TransferOk u k i acq d a b src dst s) :
    ∃ act, s.streamIssue i acq (s.rd d) (s.rd a) (s.rd b) = s.releasePoint s.retry act := by
  obtain ⟨hrecords, hhandles⟩ := formCmd_withRecords hcur h
  have hcounter (act : State) : s.streamCounter u i (s.rd b) act = act := by
    unfold State.streamCounter
    split
    · rename_i hm
      rw [if_neg (by rw [h.counter.aligned]; decide), if_neg (Nat.not_lt.2 (h.mcast hm))]
      cases hl : s.locate (some u) (s.rd b) 16 with
      | bad => exact absurd ((State.loc_slot hcur _ _).trans hl) h.counter.named
      | _ => rfl
    · rw [h.counter.passes]
  have hsides (act : State) : s.streamSides u (transfer u k i acq d a b src dst s) act = act := by
    have haligned : (transfer u k i acq d a b src dst s).aligned.find? (fun y => y.toNat % 8 != 0) = none :=
      List.find?_eq_none.2 fun y hy => by rw [h.aligned y hy]; decide
    have hbad : (transfer u k i acq d a b src dst s).direct.find? (fun y => s.sideBad u y) = none :=
      List.find?_eq_none.2 fun y hy => by rw [(h.sides y hy).1]; exact Bool.false_ne_true
    have hpriv : (transfer u k i acq d a b src dst s).direct.any (fun y => s.sidePriv u y) = false :=
      List.any_eq_false.2 fun y hy => by rw [(h.sides y hy).2]; exact Bool.false_ne_true
    have hsize : (!isListed (transfer u k i acq d a b src dst s).instr && decide ((transfer u k i acq d a b src dst s).mode = 0)
        && (transfer u k i acq d a b src dst s).size % 8 != 0) = false := by
      rw [Bool.eq_false_iff, ne_eq, Bool.and_eq_true, Bool.and_eq_true, Bool.not_eq_true', decide_eq_true_eq, bne_iff_ne]
      rintro ⟨⟨hlisted, hmode⟩, hsize⟩
      refine hsize (h.size hlisted ?_)
      rwa [SCmd.mode, field, Nat.pow_zero, Nat.div_one] at hmode
    unfold State.streamSides
    rw [haligned]
    dsimp only
    rw [hsize, if_neg Bool.false_ne_true, hbad]
    dsimp only
    rw [hpriv, if_neg Bool.false_ne_true]
  unfold State.streamIssue
  rw [State.onTileOnly_slot hcur]
  dsimp only
  rw [hcounter, hhandles, hrecords]
  dsimp only
  have hc : { namedCommand u k i acq d a b src dst 0 s with total := (namedCommand u k i acq d a b src dst 0 s).size }
      = transfer u k i acq d a b src dst s := rfl
  rw [hc, h.mode, if_neg Bool.false_ne_true, hsides]
  exact ⟨_, rfl⟩

end

end Sys2Proof.Machine
end

section
/-! Fences, roll-call wires and release points (R99, R163 to R165). -/

namespace Sys2Proof

/-! ## What stands in a sparse map after a write -/

theorem Sparse.mem_put_self {α : Type} (k : Nat) (v : α) : ∀ m : Sparse α, (k, v) ∈ m.put k v
  | [] => by simp [Sparse.put]
  | (k', v') :: rest => by
    have ih := Sparse.mem_put_self k v rest
    unfold Sparse.put
    split
    · exact List.mem_cons_self
    · split
      · exact List.mem_cons_self
      · exact List.mem_cons_of_mem _ ih

theorem Sparse.mem_of_mem_put {α : Type} {k : Nat} {v : α} {e : Nat × α} : ∀ {m : Sparse α}, e ∈ m.put k v → e.1 ≠ k → e ∈ m
  | [], h, hne => by simp [Sparse.put] at h; simp [h] at hne
  | (k', v') :: rest, h, hne => by
    have ih := Sparse.mem_of_mem_put (k := k) (v := v) (e := e) (m := rest)
    unfold Sparse.put at h
    split at h
    · rcases List.mem_cons.1 h with rfl | h
      · exact absurd rfl hne
      · exact h
    · split at h
      · rcases List.mem_cons.1 h with rfl | h
        · exact absurd rfl hne
        · exact List.mem_cons_of_mem _ h
      · rcases List.mem_cons.1 h with rfl | h
        · exact List.mem_cons_self
        · exact List.mem_cons_of_mem _ (ih h hne)

end Sys2Proof

namespace Sys2Proof.Machine

theorem exec_fence (kind : BitVec 2) (scope : BitVec 3) (s : State) : exec (.fence kind scope) s = execFence kind scope s := rfl
theorem exec_barw (wire : BitVec 2) (s : State) : exec (.barw wire) s = execBarw wire s := rfl
theorem exec_cadd (a b : Reg) (s : State) : exec (.cadd a b) s = execCadd a b s := rfl
theorem exec_caddf (d a b : Reg) (s : State) : exec (.caddf d a b) s = execCaddf d a b s := rfl

/-! ## Every release point (R99) -/

/-- What an instruction does that is a release point: it holds until no check result is outstanding, tried again or as an
issued instruction. -/
def ReleasePoint (i : Instr) (s : State) : Prop :=
  ∃ hold act, exec i s = .next (s.releasePoint hold act) ∧ (hold = s.retry ∨ hold = s.await i)

theorem IsRelease.point {s : State} {u : TileName} {k : BitVec 2} {i : Instr} (h : IsRelease u k s i) (hcur : s.cur = .slot u k) :
    ReleasePoint i s := by
  cases h with
  | fence kind scope hkind =>
    rw [ReleasePoint, exec_fence, execFence, if_neg hkind]
    exact ⟨_, _, rfl, .inr rfl⟩
  | commit => exact ⟨_, _, rfl, .inr rfl⟩
  | theEnd _ hi hopen =>
    rw [ReleasePoint, exec_end hi, State.finishActivation_slot hcur, hopen, if_neg Bool.false_ne_true]
    exact ⟨_, _, rfl, .inr rfl⟩
  | trig hshare =>
    rw [ReleasePoint, exec_trig, execTrig, State.onHome_slot hcur]
    dsimp only
    cases hs : (s.slot u k).shared with
    | true => exact ⟨_, _, rfl, .inr rfl⟩
    | false =>
      have hcounter := hshare.resolve_left (by rw [hs]; exact Bool.false_ne_true)
      rw [if_neg Bool.false_ne_true, hcounter.passes]
      exact ⟨_, _, rfl, .inr rfl⟩
  | add _ a hi hcounter =>
    rcases hi with ⟨b, rfl⟩ | ⟨d, b, rfl⟩
    · rw [ReleasePoint, exec_cadd, execCadd]
      rw [hcounter.passes]
      exact ⟨_, _, rfl, .inr rfl⟩
    · rw [ReleasePoint, exec_caddf, execCaddf]
      rw [hcounter.passes]
      exact ⟨_, _, rfl, .inr rfl⟩
  | send _ lc a b d off dest hi hok =>
    rcases hi with rfl | rfl
    · rw [ReleasePoint, exec_send, hok.checks hcur]
      exact ⟨_, _, rfl, .inr rfl⟩
    · rw [ReleasePoint, exec_sends, execSends]
      dsimp only
      rw [State.onTileOnly_slot hcur, hok.checks hcur]
      exact ⟨_, _, rfl, .inr rfl⟩
  | fwd dir a n hn he => exact ⟨_, _, exec_fwd_slot hcur hn he a, .inr rfl⟩
  | syscall c off hown halign hin hE hloc =>
    rw [ReleasePoint, exec_syscall_slot hcur, State.syscallChecks_ok hcur hown halign hin hE hloc]
    exact ⟨_, _, rfl, .inr rfl⟩
  | migrate hdrafts =>
    rw [ReleasePoint, exec_migrate_slot hcur, hdrafts]
    exact ⟨_, _, rfl, .inr rfl⟩
  | store _ n v ea hstore halign hoff =>
    rw [← length_toBytes n v.toNat] at halign hoff
    obtain ⟨act, hact⟩ := storeAt_release hcur halign hoff
    exact ⟨_, act, (exec_store hstore).trans (congrArg _ hact), .inl rfl⟩
  | reduction _ op mod a b n hred hn halign hoff =>
    rw [hn, ← redWidth_eq] at halign hoff
    obtain ⟨act, hact⟩ := reduction_release (i := i) (B := s.rd b) hcur halign hoff
    exact ⟨_, act, (exec_reduction hred).trans (congrArg _ hact), .inr rfl⟩
  | transfer _ acq d a b src dst hok =>
    obtain ⟨act, hact⟩ := stream_release hcur hok
    exact ⟨_, act, (exec_stream hok.form).trans (congrArg _ hact), .inl rfl⟩

/-! ## Roll-call wires (R164, R165) -/

theorem State.mem_wireMembers {s : State} {b : BulkId} {col : Bool} {i : Nat} {v : TileName} :
    v ∈ s.wireMembers b col i ↔ ∃ x, (v, x) ∈ s.tiles ∧ TileName.ret v = b
      ∧ (if col then tileX v = i && bit x.rcMask 1 else tileY v = i && bit x.rcMask 0) = true := by
  unfold State.wireMembers
  simp only [List.mem_map, List.mem_filter, Bool.and_eq_true, decide_eq_true_eq]
  constructor
  · rintro ⟨⟨w, x⟩, ⟨hmem, hret, hbit⟩, rfl⟩
    exact ⟨x, hmem, hret, hbit⟩
  · rintro ⟨x, hmem, hret, hbit⟩
    exact ⟨(v, x), ⟨hmem, hret, hbit⟩, rfl⟩

/-- A tile that is replaced is listed, and a member of its row or its column as its mask says (R164). -/
theorem State.mem_wireMembers_setTile_self (s : State) (u : TileName) (x : Tile) (col : Bool)
    (hmask : bit x.rcMask (num col) = true) :
    u ∈ (s.setTile u x).wireMembers u.ret col (if col then tileX u else tileY u) := by
  refine State.mem_wireMembers.2 ⟨x, Sparse.mem_put_self u x s.tiles, rfl, ?_⟩
  cases col
  · exact Bool.and_eq_true_iff.2 ⟨decide_eq_true rfl, hmask⟩
  · exact Bool.and_eq_true_iff.2 ⟨decide_eq_true rfl, hmask⟩

theorem State.mem_wireMembers_of_setTile {s : State} {u v : TileName} {x : Tile} {b : BulkId} {col : Bool} {i : Nat}
    (h : v ∈ (s.setTile u x).wireMembers b col i) (hv : v ≠ u) : v ∈ s.wireMembers b col i := by
  obtain ⟨y, hmem, hrest⟩ := State.mem_wireMembers.1 h
  exact State.mem_wireMembers.2 ⟨y, Sparse.mem_of_mem_put hmem hv, hrest⟩

/-- A wire whose members have all arrived is to release. -/
theorem State.latchWire_full {s : State} {b : BulkId} {col : Bool} {i : Nat} {u : TileName} (hu : u ∈ s.wireMembers b col i)
    (hall : ∀ v ∈ s.wireMembers b col i, bit (s.tile v).arrived (num col) = true) :
    ((s.latchWire b col i).wires.find? (wireKey b col i)).isSome = true := by
  have hne : (s.wireMembers b col i).isEmpty = false := by
    cases hms : s.wireMembers b col i with
    | nil => rw [hms] at hu; cases hu
    | cons v vs => rfl
  have hevery : ((s.wireMembers b col i).all fun t => bit (s.tile t).arrived (num col)) = true := List.all_eq_true.2 hall
  unfold State.latchWire
  dsimp only
  rw [hne, hevery, Bool.not_true, Bool.or_false, Bool.or_false]
  split
  · assumption
  · rw [Sparse.find?_put_same]
    rfl

/-- A wire that is to release stays so when another is looked at. -/
theorem State.latchWire_keeps {s : State} (b : BulkId) (col : Bool) (i : Nat) {j : Nat} (h : (s.wires.find? j).isSome = true) :
    ((s.latchWire b col i).wires.find? j).isSome = true := by
  by_cases hj : j = wireKey b col i
  · unfold State.latchWire
    dsimp only
    rw [← hj, h, Bool.true_or, Bool.true_or, if_pos rfl, h]
  · obtain ⟨w, hw, hother⟩ := s.latchWire_wires b col i
    rw [hw, hother j hj, h]

theorem State.tile_latchWire (s : State) (b : BulkId) (col : Bool) (i : Nat) (v : TileName) :
    (s.latchWire b col i).tile v = s.tile v := by
  obtain ⟨w, hw, -⟩ := s.latchWire_wires b col i
  rw [hw]
  rfl

theorem State.wireMembers_latchWire (s : State) (b : BulkId) (col : Bool) (i : Nat) (c : BulkId) (col' : Bool) (j : Nat) :
    (s.latchWire b col i).wireMembers c col' j = s.wireMembers c col' j := by
  obtain ⟨w, hw, -⟩ := s.latchWire_wires b col i
  rw [hw]
  rfl

/-- A tile arrives at one of its wires, and every other member of it has arrived: the wire is to release (R165). -/
theorem State.latchWires_full {s : State} {u : TileName} {x : Tile} (col : Bool) (hmask : bit x.rcMask (num col) = true)
    (harrived : bit x.arrived (num col) = true)
    (hothers : ∀ v ∈ s.wireMembers u.ret col (if col then tileX u else tileY u), v ≠ u →
      bit (s.tile v).arrived (num col) = true) :
    (((s.setTile u x).latchWires u).wires.find? (wireKey u.ret col (if col then tileX u else tileY u))).isSome = true := by
  have hself := s.mem_wireMembers_setTile_self u x col hmask
  have hall : ∀ v ∈ (s.setTile u x).wireMembers u.ret col (if col then tileX u else tileY u),
      bit ((s.setTile u x).tile v).arrived (num col) = true := by
    intro v hv
    by_cases hvu : v = u
    · rw [hvu, State.tile_setTile_same]
      exact harrived
    · rw [State.tile_setTile_other s x hvu]
      exact hothers v (State.mem_wireMembers_of_setTile hv hvu) hvu
  unfold State.latchWires
  cases col
  · exact State.latchWire_keeps _ _ _ (State.latchWire_full hself hall)
  · refine State.latchWire_full ((State.wireMembers_latchWire ..).symm ▸ hself) fun v hv => ?_
    rw [State.wireMembers_latchWire] at hv
    rw [State.tile_latchWire]
    exact hall v hv

/-! ## `BARW` -/

/-- The wires that a `BARW` names and its tile belongs to (R164). -/
theorem wiresOf_eq (mask wire : BitVec 2) :
    wiresOf mask wire = (bit mask 0 && decide (wire ≠ 1), bit mask 1 && decide (wire ≠ 0)) := by
  have hne (y : BitVec 2) : (wire != y) = decide (wire ≠ y) := by rw [Bool.eq_iff_iff, bne_iff_ne, decide_eq_true_eq]
  rw [wiresOf, hne, hne]

/-- A tile that has arrived at its row wire, its column wire, or both (R165). -/
def Tile.arrives (x : Tile) (row col : Bool) : Tile :=
  { x with arrived := x.arrived ||| BitVec.ofNat 2 (num row + 2 * num col) }

theorem Tile.arrives_row (x : Tile) (col : Bool) : bit (x.arrives true col).arrived 0 = true := by
  show (x.arrived ||| BitVec.ofNat 2 (num true + 2 * num col)).getLsbD 0 = true
  rw [BitVec.getLsbD_or]
  cases col <;> simp [num]

theorem Tile.arrives_col (x : Tile) (row : Bool) : bit (x.arrives row true).arrived 1 = true := by
  show (x.arrived ||| BitVec.ofNat 2 (num row + 2 * num true)).getLsbD 1 = true
  rw [BitVec.getLsbD_or]
  cases row <;> simp [num]

section
variable {s : State} {u : TileName} {k : BitVec 2}

theorem exec_barw_slot (hcur : s.cur = .slot u k) (hrel : s.released = true) {wire : BitVec 2} {row col : Bool}
    (hrow : (bit (s.tile u).rcMask 0 && decide (wire ≠ 1)) = row) (hcol : (bit (s.tile u).rcMask 1 && decide (wire ≠ 0)) = col) :
    exec (.barw wire) s = .next (if !row && !col then s.retire
      else ((s.setTile u ((s.tile u).arrives row col)).latchWires u).issueAndWait (.wire row col)) := by
  rw [exec_barw, execBarw, State.afterRelease, if_pos hrel, State.homeTile_slot hcur]
  dsimp only
  rw [wiresOf_eq, hrow, hcol]
  rfl

/-- A `BARW` that has arrived waits, and the wires of its tile have been looked at. -/
theorem State.barw_waits (hcur : s.cur = .slot u k) (row col : Bool) (w : Wait) :
    ((s.setTile u ((s.tile u).arrives row col)).latchWires u).issueAndWait w
      = { s with wires := ((s.setTile u ((s.tile u).arrives row col)).latchWires u).wires }.setTile u
          (((s.tile u).arrives row col).waits k s.len w s.issueTime) := by
  obtain ⟨wires, hw, -⟩ := (s.setTile u ((s.tile u).arrives row col)).latchWires_wires u
  have hslot : ((s.tile u).arrives row col).slot k = (s.tile u).slot k := rfl
  have hset : ({ s.setTile u ((s.tile u).arrives row col) with wires := wires } : State)
      = { s with wires := wires }.setTile u ((s.tile u).arrives row col) := rfl
  rw [hw, hset, State.issueAndWait_setTile (s := { s with wires := wires }) hcur, hslot, State.issueTime_slot hcur,
    State.ctx_slot hcur]
  rfl

/-- `BARW` on a wire that its tile belongs to (R165). -/
theorem barw_arrives (hcur : s.cur = .slot u k) (hrel : s.released = true) {wire : BitVec 2} {row col : Bool}
    (hrow : (bit (s.tile u).rcMask 0 && decide (wire ≠ 1)) = row) (hcol : (bit (s.tile u).rcMask 1 && decide (wire ≠ 0)) = col)
    (hmember : row = true ∨ col = true) : Completes (.barw wire) s fun t =>
      OneTile u (((s.tile u).arrives row col).waits k s.len (.wire row col) s.issueTime) s t
        ∧ (row = true → (∀ v ∈ s.wireMembers u.ret false (tileY u), v ≠ u → bit (s.tile v).arrived 0 = true) →
            (t.wires.find? (wireKey u.ret false (tileY u))).isSome = true)
        ∧ (col = true → (∀ v ∈ s.wireMembers u.ret true (tileX u), v ≠ u → bit (s.tile v).arrived 1 = true) →
            (t.wires.find? (wireKey u.ret true (tileX u))).isSome = true)
        ∧ (∀ w, w ≠ wireKey u.ret false (tileY u) → w ≠ wireKey u.ret true (tileX u) → t.wires.find? w = s.wires.find? w)
        ∧ SameBut [.tiles, .wires] s t := by
  have hsome : ¬((!row && !col) = true) := by
    rw [Bool.and_eq_true, Bool.not_eq_true', Bool.not_eq_true']
    rintro ⟨rfl, rfl⟩
    exact hmember.elim Bool.noConfusion Bool.noConfusion
  obtain ⟨w, hw, hother⟩ := (s.setTile u ((s.tile u).arrives row col)).latchWires_wires u
  refine .intro ((exec_barw_slot hcur hrel hrow hcol).trans ((congrArg _ (if_neg hsome)).trans
    (congrArg _ (State.barw_waits hcur row col _)))) ?_
  refine ⟨State.oneTile_setTile (r := { s with wires := _ }) _ fun _ _ => rfl, fun hr hall => ?_, fun hc hall => ?_,
    fun j hj hj' => ?_, rfl⟩
  · subst hr
    exact State.latchWires_full false (Bool.and_eq_true_iff.1 hrow).1 (Tile.arrives_row ..) hall
  · subst hc
    exact State.latchWires_full true (Bool.and_eq_true_iff.1 hcol).1 (Tile.arrives_col ..) hall
  · rw [hw]
    exact hother j hj hj'

end

/-- Settles O23: the fences by what is outstanding, `BARW` by its arrival and the wires that it completes, and every release
point by the check that stands before its action. -/
theorem fencesAndWires : Obligations.FencesAndWires := by
  unfold Obligations.FencesAndWires
  refine ⟨fun s u k hcur => ?_, fun s u k i hready hpoint => ⟨fun hout hfails => ?_, fun hout => ?_⟩⟩
  · refine ⟨fun scope => ⟨fun hacq => ?_, fun hacq => ?_⟩, fun kind scope hkind hout hfails => ⟨fun hrel => ?_, fun hrel => ?_⟩,
      fun wire hrel => ⟨fun hrow hcol => ?_, barw_arrives hcur hrel rfl rfl⟩⟩
    · refine .intro (t := s.retire) ?_ s.retire_passes
      rw [exec_fence, execFence, if_pos rfl, hacq, if_pos rfl]
    · refine .intro (t := s.await (.fence 0 scope)) ?_ (State.await_frame hcur _)
      rw [exec_fence, execFence, if_pos rfl, hacq, if_neg Bool.false_ne_true]
    · refine .intro (t := s.retire) ?_ s.retire_passes
      rw [exec_fence, execFence, if_neg hkind, State.releasePoint_clear hcur hout hfails, State.afterRelease, if_pos hrel]
    · refine .intro (t := s.await (.fence kind scope)) ?_ (State.await_frame hcur _)
      rw [exec_fence, execFence, if_neg hkind, State.releasePoint_clear hcur hout hfails, State.afterRelease, hrel,
        if_neg Bool.false_ne_true]
    · exact .intro (exec_barw_slot hcur hrel hrow hcol) s.retire_passes
  · obtain ⟨hold, act, hexec, -⟩ := hpoint.point hready.cur
    refine .intro (hexec.trans (congrArg _ (State.releasePoint_fails hready.cur hout hfails hold act))) ?_
    exact State.trap_traps hready _ _
  · obtain ⟨hold, act, hexec, hwaits⟩ := hpoint.point hready.cur
    refine .intro (hexec.trans (congrArg _ (State.releasePoint_waits hready.cur hout hold act))) ?_
    rcases hwaits with rfl | rfl
    · obtain ⟨hwait, hregs⟩ := State.ctx_retry hready.cur
      refine ⟨.inl hwait, hregs, ?_⟩
      rw [State.retry_slot hready.cur]
      exact ⟨fun v hv => s.tile_setTile_other _ hv, rfl⟩
    · obtain ⟨hwait, hregs⟩ := State.ctx_await hready.cur i
      obtain ⟨⟨-, hothers⟩, hrest⟩ := State.await_frame hready.cur i
      exact ⟨.inr hwait, hregs, hothers, hrest⟩

end Sys2Proof.Machine
end

section
/-! The translation and cache instructions of a proctor core (R87, R184, R302, R303, R312). -/

namespace Sys2Proof

/-- An entry that a filter by key keeps is found as before. -/
theorem Sparse.find?_filter {α : Type} {p : Nat → Bool} {k : Nat} (hk : p k = true) : ∀ m : Sparse α,
    Sparse.find? (m.filter fun e => p e.1) k = m.find? k
  | [] => rfl
  | (j, v) :: m => by
    have ih := Sparse.find?_filter hk m
    by_cases hj : p j = true
    · rw [List.filter_cons, if_pos hj, Sparse.find?, Sparse.find?, ih]
    · have hne : j ≠ k := by
        rintro rfl
        exact hj hk
      rw [List.filter_cons, if_neg hj, ih, Sparse.find?, if_neg hne]

end Sys2Proof

namespace Sys2Proof.Machine

/-! ## The executing core -/

section
variable {s : State} {b : BulkId} {n : BitVec 3}

theorem State.ctx_core (h : s.cur = .core b n) : s.ctx = (s.core b n).ctx := by
  unfold State.ctx
  rw [h]
  rfl

theorem State.setCtx_core (h : s.cur = .core b n) (c : Ctx) :
    s.setCtx c = s.setIsland b ((s.island b).setCore n { s.core b n with ctx := c }) := by
  unfold State.setCtx
  rw [h]
  rfl

theorem State.oneIsland_setIsland {r : State} (x : Island) (h : ∀ c, c ≠ b → r.island c = s.island c) :
    OneIsland b x s (r.setIsland b x) :=
  ⟨r.island_setIsland_same b x, fun c hc => (r.island_setIsland_other x hc).trans (h c hc)⟩

/-- A core's instruction that has changed its island, and is passed. -/
theorem State.retire_setIsland (h : s.cur = .core b n) (x : Island) :
    (s.setIsland b x).retire = s.setIsland b (x.setCore n { x.core n with ctx := (x.core n).ctx.advance s.len }) := by
  rw [State.retire, State.onCtx_eq, State.setCtx_core (s := s.setIsland b x) h, State.ctx_core (s := s.setIsland b x) h, State.core,
    State.island_setIsland_same, State.setIsland_setIsland]
  rfl

theorem State.onProctor_core (h : s.cur = .core b n) (act : BulkId → BitVec 3 → State) : s.onProctor act = act b n := by
  unfold State.onProctor
  rw [h]

theorem State.atH_core (h : s.cur = .core b n) : s.atH = (s.core b n).h := by
  unfold State.atH
  rw [h]

theorem State.onLevelH_core (h : s.cur = .core b n) (hH : (s.core b n).h = true) (act : BulkId → BitVec 3 → State) :
    s.onLevelH act = act b n := by
  rw [State.onLevelH, State.onProctor_core h, State.atH_core h, hH]
  exact if_pos rfl

/-- An instruction of a core that has not issued and is tried again. -/
theorem State.retry_core (h : s.cur = .core b n) :
    s.retry = s.setIsland b ((s.island b).setCore n { s.core b n with ctx := { (s.core b n).ctx with wait := .retry } }) := by
  unfold State.retry State.waitOn
  rw [h]
  rfl

/-! ## The line that an address names (R303, R312, R314) -/

theorem field_63 (a : Word) : (field a 63 1 != 1) = !a.getLsbD 63 := by
  have hbit : a.getLsbD 63 = decide (field a 63 1 = 1) := Nat.testBit_eq_decide_div_mod_eq
  rw [hbit, Bool.eq_iff_iff, bne_iff_ne, Bool.not_eq_true', decide_eq_false_iff_not]

/-- An untranslated address names no line of a data cache. -/
theorem State.cacheLine_untranslated {a : Word} (ha : a.getLsbD 63 = false) (hloc : s.loc a 1 ≠ .bad) (need : Right)
    (act : Option Nat → State) : s.cacheLine a need act = act none := by
  unfold State.cacheLine
  rw [field_63, ha, Bool.not_false, if_pos rfl, if_neg hloc]

theorem State.cacheLine_translated {a : Word} (ha : a.getLsbD 63 = true) (need : Right) (act : Option Nat → State) :
    s.cacheLine a need act = match s.ownXlat a need with
      | some x => act (some x.pa)
      | none => (s.askXlat a need).retry := by
  unfold State.cacheLine
  rw [field_63, ha]
  rfl

/-- The request by which a core asks its station for a translation. -/
def State.probe (s : State) (a : Word) (need : Right) : State :=
  s.bump.inject (agentNode s.cur) (s.reqNode .translated (agentNode s.cur)) 0 1 s.stampNow false
    (.req (s.mkReq (.probe need) a none false))

theorem State.cur_probe (a : Word) (need : Right) : (s.probe a need).cur = s.cur := rfl
theorem State.probe_rest (a : Word) (need : Right) : SameBut [.packets, .routers, .serial] s (s.probe a need) := rfl
theorem State.probe_packet (a : Word) (need : Right) :
    OnePacket (s.serial + 1) (newPacket (agentNode s.cur) (s.reqNode .translated (agentNode s.cur)) 0 1 s.stampNow false
      (.req (s.mkReq (.probe need) a none false))) s (s.probe a need) :=
  s.bump.inject_packet ..

/-- A core that asks for a translation tries again, with its registers and its program counter as they were. -/
theorem State.ask_retries (hcur : s.cur = .core b n) {a : Word} {need : Right} (hasked : s.asked a need = false) :
    let t := (s.askXlat a need).retry
    t.ctx.wait = .retry ∧ t.ctx.regs = s.ctx.regs ∧ t.pc = s.pc
      ∧ OnePacket (s.serial + 1) (newPacket (agentNode s.cur) (s.reqNode .translated (agentNode s.cur)) 0 1 s.stampNow false
          (.req (s.mkReq (.probe need) a none false))) s t
      ∧ SameBut [.islands, .packets, .routers, .serial] s t := by
  have hask : s.askXlat a need = s.probe a need := by
    rw [State.askXlat, hasked, if_neg Bool.false_ne_true]
    rfl
  have hretry := State.retry_core (s := s.probe a need) ((State.cur_probe a need).trans hcur)
  have hctx : (s.probe a need).retry.ctx = { s.ctx with wait := .retry } := by
    rw [hretry, State.ctx_core (s := (s.probe a need).setIsland b _) hcur, State.core, State.island_setIsland_same,
      Island.core_setCore_same, State.ctx_core hcur]
    rfl
  have hpacket := State.probe_packet (s := s) a need
  have hrest := State.probe_rest (s := s) a need
  dsimp only
  rw [hask, State.pc, hctx]
  refine ⟨rfl, rfl, rfl, ?_, ?_⟩
  · rw [hretry]
    exact hpacket
  · rw [hretry]
    exact hrest.cons

/-! ## Caches (R87, R184, R302) -/

/-- The errors that are left in an island's cache when a line of it is written anew, or dropped. -/
def State.eccOutside (s : State) (b : BulkId) (line : Nat) : Sparse Bool :=
  s.ecc.filter fun e => 8 * e.1 < islandKey b line || islandKey b (line + 1) ≤ 8 * e.1

theorem State.find?_eccOutside (s : State) (b : BulkId) (line : Nat) {w : Nat}
    (hw : 8 * w < islandKey b line ∨ islandKey b (line + 1) ≤ 8 * w) : (s.eccOutside b line).find? w = s.ecc.find? w :=
  Sparse.find?_filter (p := fun j => 8 * j < islandKey b line || islandKey b (line + 1) ≤ 8 * j)
    (by rw [Bool.or_eq_true, decide_eq_true_eq, decide_eq_true_eq]; exact hw) s.ecc

theorem exec_atinv (c : Reg) (s : State) : exec (.atinv c) s = execAtinv c s := rfl
theorem exec_dcwb (c : Reg) (s : State) : exec (.dcwb c) s = execDcwb c s := rfl
theorem exec_dcinv (c : Reg) (s : State) : exec (.dcinv c) s = execDcinv c s := rfl
theorem exec_icinv (c : Reg) (s : State) : exec (.icinv c) s = execIcinv c s := rfl

/-- A line that the island holds, or has room for, is put into its cache without giving up another (R302). -/
theorem State.putIsland_room {line : Nat} (bs : List Byte)
    (h : ((s.island b).cache.find? line).isSome = true ∨ (s.island b).cache.length < islandLines) :
    s.putIsland b line bs = { s with ecc := s.eccOutside b line }.setIsland b
      { s.island b with cache := (s.island b).cache.put line bs } := by
  have hnone : (if ((s.island b).cache.find? line).isSome then none
      else (s.island b).cache.victim islandLines (Config.freeWord s.free).toNat) = none := by
    rcases h with h | h
    · rw [if_pos h]
    · rw [Sparse.victim, if_pos h, ite_self]
  unfold State.putIsland
  dsimp only
  rw [hnone]
  rfl

/-- The state after core `n` has written a line of its data cache back (R184). -/
def State.wroteBack (s : State) (b : BulkId) (n : BitVec 3) (line : Nat) (bs : List Byte) : State :=
  { s with mem := s.mem.writeN (2 ^ 64 + line * 64) bs, ecc := s.eccOutside b line }.setIsland b
    ({ s.island b with cache := (s.island b).cache.put line bs }.setCore n
      { s.core b n with dcache := (s.core b n).dcache.put line (bs, false) })

theorem State.writeBack_dirty {pa : Nat} {bs : List Byte} (hdirty : (s.core b n).dcache.find? (pa / 64) = some (bs, true))
    (hroom : ((s.island b).cache.find? (pa / 64)).isSome = true ∨ (s.island b).cache.length < islandLines) :
    s.writeBack b n pa = s.wroteBack b n (pa / 64) bs := by
  unfold State.writeBack
  rw [hdirty]
  dsimp only
  rw [State.putIsland_room (s := { s with mem := s.mem.writeN (physKey (pa / 64 * 64)) bs }) bs hroom, State.onCore,
    State.onIsland, State.island_setIsland_same, State.setIsland_setIsland]
  rfl

/-- The state after core `n` has dropped a line of its data cache, and of its island's (R184). -/
def State.discarded (s : State) (b : BulkId) (n : BitVec 3) (line : Nat) : State :=
  { s with ecc := s.eccOutside b line }.setIsland b
    ({ s.island b with cache := (s.island b).cache.del line }.setCore n
      { s.core b n with dcache := (s.core b n).dcache.del line })

theorem State.discardLine_eq (pa : Nat) : s.discardLine b n pa = s.discarded b n (pa / 64) := by
  unfold State.discardLine
  rw [State.onCore, State.onIsland, State.onIsland, State.island_setIsland_same, State.setIsland_setIsland]
  rfl

/-- A cache instruction on an address that the core keeps no translation of asks for one and tries again. -/
theorem State.asking_completes {i : Instr} {a : Word} {need : Right} (hcur : s.cur = .core b n)
    (hexec : exec i s = .next (s.askXlat a need).retry) (hasked : s.asked a need = false)
    (hfresh : s.packets.find? (s.serial + 1) = none) : Completes i s fun t =>
      t.ctx.wait = .retry ∧ t.ctx.regs = s.ctx.regs ∧ t.pc = s.pc
        ∧ (∃ p k r, s.packets.find? p = none ∧ t.packets.find? p = some k ∧ k.body = .req r ∧ r.addr = a
            ∧ r.acc = .probe need ∧ ∀ m, m ≠ p → t.packets.find? m = s.packets.find? m)
        ∧ SameBut [.islands, .packets, .routers, .serial] s t := by
  obtain ⟨hwait, hregs, hpc, ⟨hpacket, hothers⟩, hrest⟩ := State.ask_retries hcur hasked
  exact Completes.intro hexec ⟨hwait, hregs, hpc, ⟨s.serial + 1, _, _, hfresh, hpacket, rfl, rfl, rfl, hothers⟩, hrest⟩

/-- What `DCWB` does with the line that its address names. -/
def State.writingBack (s : State) (b : BulkId) (n : BitVec 3) : Option Nat → State
  | none => s.retire
  | some pa => (s.writeBack b n pa).retire

/-- What `DCINV` does with it. -/
def State.discarding (s : State) (b : BulkId) (n : BitVec 3) : Option Nat → State
  | none => s.retire
  | some pa => (s.discardLine b n pa).retire

theorem exec_dcwb_core (hcur : s.cur = .core b n) (c : Reg) :
    exec (.dcwb c) s = .next (s.cacheLine (s.rd c) .r (s.writingBack b n)) := by
  rw [exec_dcwb, execDcwb, State.onProctor_core hcur]
  rfl

theorem exec_dcinv_core (hcur : s.cur = .core b n) (c : Reg) :
    exec (.dcinv c) s = .next (s.cacheLine (s.rd c) (if (s.core b n).h then .r else .w) (s.discarding b n)) := by
  rw [exec_dcinv, execDcinv, State.onProctor_core hcur, State.atH_core hcur]
  rfl

theorem exec_icinv_core (hcur : s.cur = .core b n) (c : Reg) {key : Nat} (hkey : s.icacheKey b n (s.rd c) = some key) :
    exec (.icinv c) s
      = .next (s.onCore b n fun x => { x with icache := x.icache.del (key / 64) }).retire := by
  rw [exec_icinv, execIcinv, State.onProctor_core hcur, hkey]

/-- A core that executes an instruction which changes the core alone is passed with the change. -/
theorem State.onCore_retire (hcur : s.cur = .core b n) (f : PCore → PCore) :
    (s.onCore b n f).retire = s.setIsland b
      ((s.island b).setCore n { f (s.core b n) with ctx := (f (s.core b n)).ctx.advance s.len }) := by
  rw [State.onCore, State.onIsland, State.retire_setIsland hcur, Island.core_setCore_same, Island.setCore_setCore]
  rfl

theorem State.core_setIsland (y : Island) (x : PCore) : (s.setIsland b (y.setCore n x)).core b n = x := by
  rw [State.core, State.island_setIsland_same, Island.core_setCore_same]

theorem State.coreBecomes_setIsland (x : PCore) : CoreBecomes b n x s (s.setIsland b ((s.island b).setCore n x)) :=
  ⟨s.oneIsland_setIsland _ fun _ _ => rfl, rfl⟩

/-- The core that `ATINV` leaves, but for its program counter. -/
def PCore.forgets (x : PCore) (c : Reg) (va : Nat) : PCore :=
  { x with tlb := if c = 0 then [] else x.tlb.filter fun l => !(l.va ≤ va && va < l.va + 2 ^ l.log) }

theorem exec_atinv_core (hcur : s.cur = .core b n) (hH : (s.core b n).h = true) (c : Reg) :
    exec (.atinv c) s = .next (s.onCore b n fun x => x.forgets c ((s.rd c).toNat % 2 ^ 56)).retire := by
  have hva : field (s.rd c) 0 56 = (s.rd c).toNat % 2 ^ 56 := by
    rw [field, Nat.pow_zero, Nat.div_one]
  rw [exec_atinv, execAtinv, State.onLevelH_core hcur hH, hva]
  rfl

theorem State.mem_wroteBack (line : Nat) (bs : List Byte) :
    (s.wroteBack b n line bs).mem = s.mem.writeN (2 ^ 64 + line * 64) bs := rfl

theorem State.wroteBack_retire (hcur : s.cur = .core b n) (line : Nat) (bs : List Byte) :
    let t := (s.wroteBack b n line bs).retire
    OneIsland b { (s.island b).setCore n { s.core b n with dcache := (s.core b n).dcache.put line (bs, false),
                                                           ctx := (s.core b n).ctx.advance s.len } with
                  cache := (s.island b).cache.put line bs } s t
      ∧ t.ecc = s.eccOutside b line ∧ SameBut [.mem, .ecc, .islands] s t := by
  dsimp only
  rw [State.wroteBack,
    State.retire_setIsland (s := { s with mem := s.mem.writeN (2 ^ 64 + line * 64) bs, ecc := s.eccOutside b line }) hcur, Island.core_setCore_same, Island.setCore_setCore]
  exact ⟨s.oneIsland_setIsland _ fun _ _ => rfl, rfl, rfl⟩

/-- The core that `DCINV` leaves. -/
def PCore.discards (x : PCore) (line len : Nat) : PCore :=
  { x with dcache := x.dcache.del line, ctx := x.ctx.advance len }

theorem State.discarded_retire (hcur : s.cur = .core b n) (line : Nat) :
    let t := (s.discarded b n line).retire
    OneIsland b { (s.island b).setCore n ((s.core b n).discards line s.len) with
                  cache := (s.island b).cache.del line } s t
      ∧ t.ecc = s.eccOutside b line ∧ SameBut [.ecc, .islands] s t := by
  dsimp only
  rw [State.discarded, State.retire_setIsland (s := { s with ecc := s.eccOutside b line }) hcur, Island.core_setCore_same, Island.setCore_setCore]
  exact ⟨s.oneIsland_setIsland _ fun _ _ => rfl, rfl, rfl⟩

end

/-- Settles O37: the translations that are forgotten, the line that is written back or discarded, and the request for a
translation that the core does not keep. -/
theorem proctorCaches : Obligations.ProctorCaches := by
  unfold Obligations.ProctorCaches
  intro s b n c hcur
  dsimp only
  refine ⟨fun _ hfresh => ⟨fun ha hown hasked => ?_, fun ha hown hasked => ?_⟩, fun hH => ?_,
    fun z line hat hdirty hlen hw hroom => ?_, fun z hat => ?_, fun ha hloc => ⟨?_, ?_⟩, fun v k act hH hhome hin => ?_⟩
  · exact State.asking_completes hcur
      (by rw [exec_dcwb_core hcur, State.cacheLine_translated ha, hown]) hasked hfresh
  · exact State.asking_completes hcur
      (by rw [exec_dcinv_core hcur, State.cacheLine_translated ha, hown]) hasked hfresh
  · refine Completes.intro (exec_atinv_core hcur hH c) ?_
    rw [State.onCore_retire hcur]
    exact State.coreBecomes_setIsland _
  · obtain ⟨ha, hown⟩ := hat
    refine Completes.intro (t := (s.wroteBack b n (z.pa / 64) line).retire)
      (by rw [exec_dcwb_core hcur, State.cacheLine_translated ha, hown]
          dsimp only [State.writingBack]
          rw [State.writeBack_dirty hdirty hroom]) ?_
    obtain ⟨hisland, hecc, hrest⟩ := State.wroteBack_retire hcur (z.pa / 64) line
    have hmem : (s.wroteBack b n (z.pa / 64) line).retire.mem = s.mem.writeN (2 ^ 64 + z.pa / 64 * 64) line := by
      rw [State.mem_retire, State.mem_wroteBack]
    refine ⟨?_, fun k hk => ?_, hisland, fun w hout => ?_, hrest⟩
    · rw [hmem, ← hlen]
      exact Memory.readN_writeN_same hw _ line
    · rw [hmem]
      exact Memory.read_writeN_other s.mem _ k line (by rw [hlen]; exact hk)
    · rw [hecc]
      exact s.find?_eccOutside b _ hout
  · obtain ⟨ha, hown⟩ := hat
    refine Completes.intro (t := (s.discarded b n (z.pa / 64)).retire)
      (by rw [exec_dcinv_core hcur, State.cacheLine_translated ha, hown]
          dsimp only [State.discarding]
          rw [State.discardLine_eq]) ?_
    obtain ⟨hisland, hecc, hrest⟩ := State.discarded_retire hcur (z.pa / 64)
    have hcore : (s.discarded b n (z.pa / 64)).retire.core b n = (s.core b n).discards (z.pa / 64) s.len := by
      rw [State.core, hisland.1]
      exact Island.core_setCore_same _ _ _
    rw [hcore]
    refine ⟨Sparse.find?_del_same _ _, ?_, fun j hj => ⟨Sparse.find?_del_other hj _, ?_⟩, ?_, fun w hout => ?_, hrest⟩
    · rw [hisland.1]
      exact Sparse.find?_del_same _ _
    · rw [hisland.1]
      exact Sparse.find?_del_other hj _
    · rw [hisland.1]
      exact hisland
    · rw [hecc]
      exact s.find?_eccOutside b _ hout
  · exact Completes.intro (by rw [exec_dcwb_core hcur, State.cacheLine_untranslated ha hloc]; rfl) s.retire_passes
  · exact Completes.intro (by rw [exec_dcinv_core hcur, State.cacheLine_untranslated ha hloc]; rfl) s.retire_passes
  · have hkey : s.icacheKey b n (s.rd c) = some (2 ^ 60 + v * 2 ^ 24 + (s.rd c).toNat) := by
      unfold State.icacheKey
      rw [hH, if_neg Bool.false_ne_true, hhome]
      exact if_pos hin
    refine Completes.intro (exec_icinv_core hcur c hkey) ?_
    rw [State.onCore_retire hcur, State.core_setIsland]
    exact ⟨Sparse.find?_del_same _ _, fun j hj => Sparse.find?_del_other hj _, State.coreBecomes_setIsland _⟩

end Sys2Proof.Machine
end

section
/-! Group membership of a tile (R35), and events that an arrived packet brings. -/

namespace Sys2Proof

theorem Sparse.get_eq_getD {α : Type} (d : α) (k : Nat) : ∀ m : Sparse α, m.get d k = (m.find? k).getD d
  | [] => rfl
  | (j, v) :: m => by
    rw [Sparse.get, Sparse.find?, Sparse.get_eq_getD d k m]
    split <;> rfl

/-- A table of lists in which an empty list is not kept reads as if every list were. -/
theorem Sparse.get_store {α : Type} (m : Sparse (List α)) (k j : Nat) (l : List α) :
    (if l.isEmpty then m.del k else m.put k l).get [] j = if j = k then l else m.get [] j := by
  rw [Sparse.get_eq_getD, Sparse.get_eq_getD]
  cases l with
  | nil =>
    rw [List.isEmpty_nil, if_pos rfl]
    split
    case isTrue h => rw [h, Sparse.find?_del_same, Option.getD_none]
    case isFalse h => rw [Sparse.find?_del_other h]
  | cons x xs =>
    rw [List.isEmpty_cons, if_neg Bool.false_ne_true]
    split
    case isTrue h => rw [h, Sparse.find?_put_same, Option.getD_some]
    case isFalse h => rw [Sparse.find?_put_other _ h]

end Sys2Proof

namespace Sys2Proof.Machine

/-! ## The groups of a tile -/

theorem Tile.mem_groups {x : Tile} {g : BitVec 8} :
    g ∈ x.groups ↔ ∃ i, i < 16 ∧ bit x.groupMask i = true ∧ x.groupIds.toList[i]? = some g := by
  unfold Tile.groups
  rw [List.mem_filterMap]
  constructor
  · rintro ⟨i, hi, hsome⟩
    split at hsome
    case isTrue hbit => exact ⟨i, by simpa using (mem_upFrom.1 hi).2, hbit, hsome⟩
    case isFalse => contradiction
  · rintro ⟨i, hi, hbit, hid⟩
    exact ⟨i, mem_upFrom.2 ⟨Nat.zero_le _, by omega⟩, by rw [if_pos hbit, hid]⟩

theorem bit_or_two_pow (m : BitVec 16) {i j : Nat} (hi : i < 16) :
    bit (m ||| BitVec.ofNat 16 (2 ^ i)) j = (bit m j || decide (j = i)) := by
  unfold bit
  rw [BitVec.getLsbD_or, BitVec.getLsbD_ofNat, Nat.testBit_two_pow]
  by_cases h : j = i
  · subst h
    simp [hi]
  · simp [h, Ne.symm h]

theorem bit_and_not_two_pow (m : BitVec 16) {i j : Nat} (hj : j < 16) :
    bit (m &&& ~~~BitVec.ofNat 16 (2 ^ i)) j = (bit m j && decide (j ≠ i)) := by
  unfold bit
  rw [BitVec.getLsbD_and, BitVec.getLsbD_not, BitVec.getLsbD_ofNat, Nat.testBit_two_pow]
  by_cases h : j = i
  · subst h
    simp [hj]
  · simp [h, Ne.symm h, hj]

/-- A tile of fewer than 16 groups has a free place for another. -/
theorem Tile.free_group_place {x : Tile} (h : x.groups.length < 16) :
    ∃ i, (upFrom 0 16).find? (fun i => !bit x.groupMask i) = some i ∧ i < 16 ∧ bit x.groupMask i = false := by
  have hsome : ((upFrom 0 16).find? fun i => !bit x.groupMask i).isSome = true := by
    rw [List.find?_isSome]
    by_contra hall
    have hfull : ∀ i ∈ upFrom 0 16, (if bit x.groupMask i then x.groupIds.toList[i]? else none).isSome = true := by
      intro i hi
      have hbit : bit x.groupMask i = true := by
        by_contra hclear
        exact hall ⟨i, hi, by simpa using hclear⟩
      have hlt : i < 16 := by simpa using (mem_upFrom.1 hi).2
      rw [if_pos hbit, List.getElem?_eq_getElem (by simpa using hlt)]
      rfl
    have hlen : x.groups.length = (upFrom 0 16).length := List.filterMap_length_eq_length.2 hfull
    exact absurd hlen (Nat.ne_of_lt h)
  obtain ⟨i, hi⟩ := Option.isSome_iff_exists.1 hsome
  exact ⟨i, hi, by simpa using (mem_upFrom.1 (List.mem_of_find?_eq_some hi)).2, by simpa using List.find?_some hi⟩

theorem Tile.mem_groups_joinGroup {x : Tile} {g : BitVec 8} (h : x.groups.length < 16) (f : BitVec 8) :
    f ∈ (x.joinGroup g).groups ↔ f = g ∨ f ∈ x.groups := by
  unfold Tile.joinGroup
  split
  case isTrue hin =>
    have hin' : g ∈ x.groups := by simpa using hin
    exact ⟨.inr, fun hf => hf.elim (fun he => he ▸ hin') id⟩
  case isFalse =>
    obtain ⟨i, hfind, hi, hclear⟩ := Tile.free_group_place h
    rw [hfind]
    dsimp only
    have hids : ∀ j, j < 16 → (x.groupIds.setIfInBounds i g).toList[j]? = if j = i then some g else x.groupIds.toList[j]? := by
      intro j hj
      rw [Vector.getElem?_toList, Vector.getElem?_toList, Vector.getElem?_setIfInBounds]
      by_cases hji : j = i
      · rw [if_pos hji.symm, if_pos hji, if_pos (hji ▸ hj)]
      · rw [if_neg (Ne.symm hji), if_neg hji]
    rw [Tile.mem_groups, Tile.mem_groups]
    constructor
    · rintro ⟨j, hj, hbit, hid⟩
      rw [bit_or_two_pow _ hi] at hbit
      rw [hids j hj] at hid
      split at hid
      case isTrue => exact .inl (Option.some.inj hid).symm
      case isFalse hji => exact .inr ⟨j, hj, by simpa [hji] using hbit, hid⟩
    · rintro (rfl | ⟨j, hj, hbit, hid⟩)
      · exact ⟨i, hi, by rw [bit_or_two_pow _ hi, decide_eq_true rfl, Bool.or_true], by rw [hids i hi, if_pos rfl]⟩
      · have hji : j ≠ i := by
          rintro rfl
          exact Bool.noConfusion (hbit.symm.trans hclear)
        exact ⟨j, hj, by rw [bit_or_two_pow _ hi, hbit, Bool.true_or], by rw [hids j hj, if_neg hji, hid]⟩

/-- The mask bits that a tile keeps when it leaves a group, for the places of a list. -/
theorem bit_foldl_clear (ids : List (BitVec 8)) (g : BitVec 8) {j : Nat} (hj : j < 16) : ∀ (l : List Nat) (m : BitVec 16),
    bit (l.foldl (fun m i => if ids[i]? = some g then m &&& ~~~(BitVec.ofNat 16 (2 ^ i)) else m) m) j
      = (bit m j && !(decide (j ∈ l) && decide (ids[j]? = some g)))
  | [], m => by simp
  | i :: l, m => by
    rw [List.foldl_cons, bit_foldl_clear ids g hj l]
    by_cases hid : ids[i]? = some g
    · rw [if_pos hid, bit_and_not_two_pow m hj]
      by_cases hji : j = i
      · subst hji
        simp [hid]
      · simp [hji]
    · rw [if_neg hid]
      by_cases hji : j = i
      · subst hji
        simp [hid]
      · simp [hji]

theorem Tile.mem_groups_leaveGroup {x : Tile} {g : BitVec 8} (f : BitVec 8) :
    f ∈ (x.leaveGroup g).groups ↔ f ≠ g ∧ f ∈ x.groups := by
  have hbit : ∀ j, j < 16 → bit (x.leaveGroup g).groupMask j = (bit x.groupMask j && !decide (x.groupIds.toList[j]? = some g)) := by
    intro j hj
    have hmem : j ∈ upFrom 0 16 := mem_upFrom.2 ⟨Nat.zero_le _, by omega⟩
    exact (bit_foldl_clear x.groupIds.toList g hj (upFrom 0 16) x.groupMask).trans (by rw [decide_eq_true hmem, Bool.true_and])
  rw [Tile.mem_groups, Tile.mem_groups]
  constructor
  · rintro ⟨j, hj, hset, hid⟩
    rw [hbit j hj, Bool.and_eq_true, Bool.not_eq_true', decide_eq_false_iff_not] at hset
    obtain ⟨hold, hother⟩ := hset
    exact ⟨fun hfg => hother (hfg ▸ hid), j, hj, hold, hid⟩
  · rintro ⟨hfg, j, hj, hold, hid⟩
    refine ⟨j, hj, ?_, hid⟩
    rw [hbit j hj, Bool.and_eq_true, Bool.not_eq_true', decide_eq_false_iff_not]
    exact ⟨hold, fun hother => hfg (Option.some.inj (hid.symm.trans hother))⟩

end Sys2Proof.Machine
end

section
/-! Events that an arrived packet brings: the group directory, migrated activations, system calls, work entries (R34, R35,
R38, R40, R174, R181, R182, R271). -/

namespace Sys2Proof.Machine

/-! ## A packet that has arrived -/

section
variable {s : State} {p : Nat} {k : Packet}

theorem Arrived.arrived_eq (h : Arrived p k s) : s.arrived p = some k := by
  rw [State.arrived, h.here]
  dsimp only
  rw [decide_eq_true h.place, h.settled]
  rfl

theorem State.dropPacket_noPacket (s : State) (p : Nat) : NoPacket p s (s.dropPacket p) :=
  ⟨Sparse.find?_del_same p _, fun _ hm => Sparse.find?_del_other hm _⟩

theorem exec_groupDirectoryRequest (p : Nat) (s : State) : exec (.groupDirectoryRequest p) s = execGroupDirectoryRequest p s := rfl
theorem exec_groupAckArrival (p : Nat) (s : State) : exec (.groupAckArrival p) s = execGroupAckArrival p s := rfl
theorem exec_migratedActivationPlacement (p : Nat) (c : BitVec 3) (s : State) :
    exec (.migratedActivationPlacement p c) s = execMigratedActivationPlacement p c s := rfl
theorem exec_migrateReturnArrival (p : Nat) (s : State) : exec (.migrateReturnArrival p) s = execMigrateReturnArrival p s := rfl
theorem exec_syscallRequestArrival (p : Nat) (s : State) : exec (.syscallRequestArrival p) s = execSyscallRequestArrival p s := rfl
theorem exec_levellingEntryArrival (p : Nat) (s : State) : exec (.levellingEntryArrival p) s = execLevellingEntryArrival p s := rfl

/-! ## The group directory (R34, R174) -/

/-- The members of a group after the directory has served a request. -/
def membersAfter (join : Bool) (u : TileName) (ms : List TileName) : List TileName :=
  if join then (if ms.contains u then ms else ms ++ [u]) else ms.filter (· != u)

theorem mem_membersAfter_join {u v : TileName} {ms : List TileName} : v ∈ membersAfter true u ms ↔ v = u ∨ v ∈ ms := by
  unfold membersAfter
  rw [if_pos rfl]
  split
  case isTrue h =>
    have hu : u ∈ ms := by simpa using h
    exact ⟨.inr, fun hv => hv.elim (fun he => he ▸ hu) id⟩
  case isFalse => rw [List.mem_append, List.mem_singleton, or_comm]

theorem mem_membersAfter_leave {u v : TileName} {ms : List TileName} : v ∈ membersAfter false u ms ↔ v ≠ u ∧ v ∈ ms := by
  unfold membersAfter
  rw [if_neg Bool.false_ne_true, List.mem_filter, bne_iff_ne, and_comm]

/-- The state after the directory has served a request and sent its answer. -/
def State.directed (s : State) (p key : Nat) (ms : List TileName) (k : Packet) (ag : Agent) (body : Body) : State :=
  ({ s with groups := if ms.isEmpty then s.groups.del key else s.groups.put key ms }.dropPacket p).inject
    k.dst (agentNode ag) 1 1 k.stamp false body

theorem State.groups_directed (s : State) (p key : Nat) (ms : List TileName) (k : Packet) (ag : Agent) (body : Body) (j : Nat) :
    (s.directed p key ms k ag body).groups.get [] j = if j = key then ms else s.groups.get [] j :=
  Sparse.get_store s.groups key j ms

theorem State.directed_packet (key : Nat) (ms : List TileName) (k : Packet) (ag : Agent) (body : Body) (hp : p < s.serial) :
    (s.directed p key ms k ag body).packets.find? p = none
      ∧ (s.directed p key ms k ag body).packets.find? s.serial = some (newPacket k.dst (agentNode ag) 1 1 k.stamp false body) := by
  obtain ⟨hnew, hold⟩ := ({ s with groups := if ms.isEmpty then s.groups.del key else s.groups.put key ms }.dropPacket p).inject_packet
    k.dst (agentNode ag) 1 1 k.stamp false body
  exact ⟨(hold p (Nat.ne_of_lt hp)).trans (Sparse.find?_del_same p s.packets), hnew⟩

theorem State.directed_rest (s : State) (p key : Nat) (ms : List TileName) (k : Packet) (ag : Agent) (body : Body) :
    SameBut [.groups, .packets, .routers, .serial] s (s.directed p key ms k ag body) := by
  have hsent := ({ s with groups := if ms.isEmpty then s.groups.del key else s.groups.put key ms }.dropPacket p).inject_rest
    k.dst (agentNode ag) 1 1 k.stamp false body
  have hserved : SameBut [.groups, .packets, .routers, .serial] s
    ({ s with groups := if ms.isEmpty then s.groups.del key else s.groups.put key ms }.dropPacket p) := rfl
  exact hserved.trans hsent.cons

theorem exec_groupDirectoryRequest_arrived (h : Arrived p k s) {u : TileName} {g : BitVec 8} {join : Bool} {ag : Agent} {act : Nat}
    (hb : k.body = .group u g join ag act) :
    exec (.groupDirectoryRequest p) s = .next (s.directed p (256 * (s.bulk (TileName.ret u)).region.toNat + g.toNat)
      (membersAfter join u (s.groups.get [] (256 * (s.bulk (TileName.ret u)).region.toNat + g.toNat))) k ag
      (.groupAck u g join ag act)) := by
  rw [exec_groupDirectoryRequest, execGroupDirectoryRequest, h.arrived_eq]
  dsimp only
  rw [hb]
  rfl

/-! ## The end of a slot's wait (R155) -/

/-- A slot whose wait is over. -/
def Slot.woken (x : Slot) : Slot :=
  { x with state := if x.state = .waiting then .ready else x.state, ctx := { x.ctx with wait := .none } }

theorem Slot.woken_waiting {x : Slot} (h : x.state = .waiting) :
    x.woken = { x with state := .ready, ctx := { x.ctx with wait := .none } } := by
  rw [Slot.woken, if_pos h]

theorem State.endsWait_frame (s : State) (u : TileName) (j : BitVec 2) :
    OneTile u ((s.tile u).onSlot j Slot.woken) s (s.endsWait (.slot u j)) ∧ SameBut [.tiles, .progress] s (s.endsWait (.slot u j)) := by
  obtain ⟨⟨htile, hothers⟩, hrest⟩ := s.setTile_frame u ((s.tile u).onSlot j Slot.woken)
  refine ⟨⟨(State.tile_noteProgress _ _ u).trans htile, fun v hv => (State.tile_noteProgress _ _ v).trans (hothers v hv)⟩, ?_⟩
  have hslot : SameBut [.tiles, .progress] s (s.setTile u ((s.tile u).onSlot j Slot.woken)) := rfl
  have hprogress : SameBut [.progress] (s.setTile u ((s.tile u).onSlot j Slot.woken)) (s.endsWait (.slot u j)) :=
    State.noteProgress_rest _ _
  exact hslot.trans hprogress.cons

/-! ## The answer of the group directory (R35) -/

theorem Tile.slot_joinGroup (x : Tile) (g : BitVec 8) (j : BitVec 2) : (x.joinGroup g).slot j = x.slot j := by
  unfold Tile.joinGroup
  split
  case isTrue => rfl
  case isFalse => split <;> rfl

/-- A tile whose membership of a group has changed. -/
def Tile.regroup (x : Tile) (join : Bool) (g : BitVec 8) : Tile := if join then x.joinGroup g else x.leaveGroup g

theorem Tile.slot_regroup (x : Tile) (join : Bool) (g : BitVec 8) (j : BitVec 2) : (x.regroup join g).slot j = x.slot j := by
  cases join
  case false => rfl
  case true => exact x.slot_joinGroup g j

/-- A change of membership changes the group identifiers and their mask. -/
theorem Tile.regroup_eq (x : Tile) (join : Bool) (g : BitVec 8) :
    x.regroup join g = { x with groupIds := (x.regroup join g).groupIds, groupMask := (x.regroup join g).groupMask } := by
  cases join
  case false => rfl
  case true =>
    show x.joinGroup g = { x with groupIds := (x.joinGroup g).groupIds, groupMask := (x.joinGroup g).groupMask }
    unfold Tile.joinGroup
    split
    case isTrue => rfl
    case isFalse => split <;> rfl

theorem exec_groupAckArrival_waiting (h : Arrived p k s) {u : TileName} {g : BitVec 8} {join : Bool} {j : BitVec 2} {act : Nat}
    (hb : k.body = .groupAck u g join (.slot u j) act) (hact : (s.slot u j).act = act) (hwait : (s.slot u j).ctx.wait = .group) :
    exec (.groupAckArrival p) s
      = .next (((s.dropPacket p).setTile u ((s.tile u).regroup join g)).endsWait (.slot u j)) := by
  rw [exec_groupAckArrival, execGroupAckArrival, h.arrived_eq]
  dsimp only
  rw [hb]
  have hgroup : (((s.dropPacket p).setTile u ((s.tile u).regroup join g)).ctxOf (.slot u j)).wait = .group := by
    rw [State.ctxOf, State.slot, State.tile_setTile_same, Tile.slot_regroup]
    exact hwait
  have hboth : (decide ((s.slot u j).act = act)
      && decide ((((s.dropPacket p).setTile u ((s.tile u).regroup join g)).ctxOf (.slot u j)).wait = .group)) = true := by
    rw [decide_eq_true hact, decide_eq_true hgroup, Bool.and_true]
  exact congrArg Host.Outcome.next (if_pos hboth)

/-! ## Migrated activations (R38, R182) -/

theorem exec_migratedActivationPlacement_idle (h : Arrived p k s) {m : MigImage} (hb : k.body = .migrate m) {c : BitVec 3}
    (hidle : (s.core (k.dst / 4096) c).idle = true) :
    exec (.migratedActivationPlacement p c) s
      = .next ((s.dropPacket p).setIsland (k.dst / 4096)
          ((s.island (k.dst / 4096)).setCore c ((s.core (k.dst / 4096) c).host m))) := by
  rw [exec_migratedActivationPlacement, execMigratedActivationPlacement, h.arrived_eq]
  dsimp only
  rw [hb]
  exact congrArg Host.Outcome.next (if_pos hidle)

theorem PCore.idle_of_stopped {x : PCore} (hhome : x.home = none) (hrun : x.running = false) (hh : x.h = false) : x.idle = true := by
  rw [PCore.idle, hhome, hrun, hh]
  rfl

theorem exec_migrateReturnArrival_home (h : Arrived p k s) {m : MigImage} (hb : k.body = .migrateBack m)
    (hstate : (s.slot m.tile m.slot).state = .migrated) (hact : (s.slot m.tile m.slot).act = m.act) :
    exec (.migrateReturnArrival p) s
      = .next ((s.dropPacket p).setTile m.tile ((s.tile m.tile).onSlot m.slot (·.takeBack m))) := by
  rw [exec_migrateReturnArrival, execMigrateReturnArrival, h.arrived_eq]
  dsimp only
  rw [hb]
  dsimp only
  rw [hstate, hact, decide_eq_true rfl, decide_eq_true rfl]
  rfl

/-! ## System calls (R40, R181) -/

theorem exec_syscallRequestArrival_arrived (h : Arrived p k s) {u : TileName} {block : List Byte} {token : BitVec 16} {counter : Word}
    (hb : k.body = .syscall u block token counter) :
    exec (.syscallRequestArrival p) s = .next ((s.dropPacket p).setIsland (k.dst / 4096)
      { s.island (k.dst / 4096) with calls := (s.island (k.dst / 4096)).calls ++ [(u, block, token, counter)] }) := by
  rw [exec_syscallRequestArrival, execSyscallRequestArrival, h.arrived_eq]
  dsimp only
  rw [hb]
  rfl

/-! ## Work entries (R271) -/

/-- The tile after a neighbour's entry has joined its list. -/
def Tile.received (x : Tile) : Tile :=
  { x with lvl := { x.lvl with depth := x.lvl.depth + 1, received := x.lvl.received + 1 } }

/-- The state after a neighbour's entry has joined a tile's list. -/
def State.entryReceived (s : State) (p : Nat) (u : TileName) (bs : List Byte) : State :=
  { s.dropPacket p with mem := s.mem.writeN (scratchKey u (s.tile u).lvl.tailOff) bs }.setTile u (s.tile u).received

theorem exec_levellingEntryArrival_room (h : Arrived p k s) {u v : TileName} {bs : List Byte} (hb : k.body = .level v u bs)
    (hroom : (s.tile u).listFull = false) : exec (.levellingEntryArrival p) s = .next (s.entryReceived p u bs) := by
  rw [exec_levellingEntryArrival, execLevellingEntryArrival, h.arrived_eq]
  dsimp only
  rw [hb]
  dsimp only
  rw [hroom, if_neg Bool.false_ne_true, State.appendEntry, State.onTile_eq, State.onTile_eq, State.tile_setTile_same, State.setTile_setTile]
  rfl

end

end Sys2Proof.Machine
end

section
/-! Counter adds in own scratch, and the share add that an ended activation has queued (R31, R32, R93, R157, R173). -/

namespace Sys2Proof.Machine

theorem ofBytes_toBytes : ∀ (n v : Nat), ofBytes (toBytes n v) = v % 256 ^ n
  | 0, v => by rw [Nat.pow_zero, Nat.mod_one]; rfl
  | n + 1, v => by
    rw [toBytes, ofBytes, ofBytes_toBytes n, BitVec.toNat_ofNat, show 256 ^ (n + 1) = 256 * 256 ^ n from Nat.pow_succ']
    exact Nat.mod_mul.symm

theorem wordOf_bytesOf (v : Word) : wordOf (bytesOf v) = v := by
  rw [wordOf, bytesOf, ofBytes_toBytes]
  refine BitVec.eq_of_toNat_eq ?_
  rw [BitVec.toNat_ofNat, Nat.mod_eq_of_lt (show v.toNat < 256 ^ 8 from v.isLt), Nat.mod_eq_of_lt v.isLt]

/-! ## Words of memory -/

section
variable {m : Memory} {key : Nat}

theorem length_bytesOf (v : Word) : (bytesOf v).length = 8 := length_toBytes 8 _

theorem Memory.word_setWord_same (hw : m.wf = true) (key : Nat) (v : Word) : (m.setWord key v).word key = v := by
  have hread := Memory.readN_writeN_same hw key (bytesOf v)
  rw [length_bytesOf] at hread
  rw [Memory.word, Memory.setWord, hread, wordOf_bytesOf]

theorem Memory.read_setWord_other (m : Memory) (key : Nat) (v : Word) {j : Nat} (h : j < key ∨ key + 8 ≤ j) :
    (m.setWord key v).read j = m.read j :=
  Memory.read_writeN_other m key j _ (by rw [length_bytesOf]; exact h)

theorem Memory.word_setWord_other (m : Memory) (key : Nat) (v : Word) {j : Nat} (h : j + 8 ≤ key ∨ key + 8 ≤ j) :
    (m.setWord key v).word j = m.word j :=
  congrArg wordOf (Memory.readN_congr fun i hi => Memory.read_setWord_other m key v (by omega))

/-! ## A counter add (R93, R157) -/

theorem Memory.counterAdd_eq (m : Memory) (key : Nat) (n st : Word) :
    m.counterAdd key n st =
      if addStatus (m.word key) n st = 0 then m.setWord key (satAdd (m.word key) n)
      else (m.setWord key (satAdd (m.word key) n)).setWord (key + 8)
        ((m.setWord key (satAdd (m.word key) n)).word (key + 8) ||| addStatus (m.word key) n st) := rfl

theorem Memory.word_counterAdd_value (hw : m.wf = true) (key : Nat) (n st : Word) :
    (m.counterAdd key n st).word key = satAdd (m.word key) n := by
  rw [Memory.counterAdd_eq]
  split
  case isTrue => exact Memory.word_setWord_same hw _ _
  case isFalse =>
    rw [Memory.word_setWord_other _ _ _ (.inl (Nat.le_refl _))]
    exact Memory.word_setWord_same hw _ _

theorem Memory.word_counterAdd_status (hw : m.wf = true) (key : Nat) (n st : Word) :
    (m.counterAdd key n st).word (key + 8) = m.word (key + 8) ||| addStatus (m.word key) n st := by
  have hkept : (m.setWord key (satAdd (m.word key) n)).word (key + 8) = m.word (key + 8) :=
    Memory.word_setWord_other _ _ _ (.inr (Nat.le_refl _))
  rw [Memory.counterAdd_eq]
  split
  case isTrue h => rw [hkept, h]; exact BitVec.or_zero.symm
  case isFalse => rw [Memory.word_setWord_same (Memory.wf_setWord _ _ hw), hkept]

theorem Memory.read_counterAdd_other (m : Memory) (key : Nat) (n st : Word) {j : Nat} (h : j < key ∨ key + 16 ≤ j) :
    (m.counterAdd key n st).read j = m.read j := by
  rw [Memory.counterAdd_eq]
  split
  case isTrue => exact Memory.read_setWord_other _ _ _ (by omega)
  case isFalse => rw [Memory.read_setWord_other _ _ _ (by omega), Memory.read_setWord_other _ _ _ (by omega)]

theorem toNat_satAdd (v n : Word) : (satAdd v n).toNat = min (v.toNat + n.toNat) (2 ^ 64 - 1) := by
  unfold satAdd
  split
  case isTrue h =>
    rw [BitVec.toNat_allOnes]
    omega
  case isFalse h =>
    rw [BitVec.toNat_add]
    omega

/-- A counter add without status bits of its own counts (R93). -/
theorem counted_of_mem {s t : State} (hw : MemCanonical s) {n : Word} (ht : t.mem = s.mem.counterAdd key n 0) :
    Counted key n.toNat s t := by
  refine ⟨?_, ?_, fun j hj => ?_⟩
  · rw [ht, Memory.word_counterAdd_value hw, toNat_satAdd]
  · rw [ht, Memory.word_counterAdd_status hw]
    exact congrArg _ BitVec.zero_or
  · rw [ht]
    exact Memory.read_counterAdd_other _ _ _ _ hj

end

/-! ## What follows an add at a counter that nobody awaits (R93, R94) -/

section
variable {s : State} {u : TileName} {key : Nat}

/-- A fold whose step changes nothing. -/
theorem foldl_of_fixed {α β : Type} {f : β → α → β} {b : β} : ∀ {l : List α}, (∀ a ∈ l, f b a = b) → l.foldl f b = b
  | [], _ => rfl
  | a :: l, h => by
    rw [List.foldl_cons, h a (List.mem_cons_self ..)]
    exact foldl_of_fixed fun c hc => h c (List.mem_cons_of_mem _ hc)

theorem State.wakeLocal_unwaited (h : unwaited u key s = true) : s.wakeLocal u key = s := by
  unfold State.wakeLocal
  refine foldl_of_fixed fun k hk => ?_
  have hslot := List.all_eq_true.1 h k hk
  split
  case h_1 key' target flag hwait =>
    rw [hwait] at hslot
    have hkey : key' ≠ key := bne_iff_ne.1 hslot
    rw [decide_eq_false hkey, Bool.false_and, if_neg Bool.false_ne_true]
  case h_2 => rfl

theorem State.settleWatches_unwatched (h : unwatched u key s = true) : ∀ n, s.settleWatches u n = s
  | 0 => rfl
  | n + 1 => by
    have hnone : s.watches.find? (fun w => w.home = u && !w.active) = none := by
      rw [List.find?_eq_none]
      intro w hw hc
      have hother := List.all_eq_true.1 h w hw
      simp only [Bool.and_eq_true, bne_iff_ne, decide_eq_true_eq] at hother hc
      exact hother.1 hc.1
    rw [State.settleWatches, hnone]
    split <;> rfl

theorem State.afterAdd_unwatched (hu : u < 2 ^ 20) (hwait : unwaited u key s = true) (hwatch : unwatched u key s = true) :
    s.afterAdd u key = s := by
  have hnohit : ∀ w ∈ s.watches, (w.key = key && w.active && w.target.toNat ≤ (s.mem.word key).toNat) = false := by
    intro w hw
    have hother := List.all_eq_true.1 hwatch w hw
    simp only [Bool.and_eq_true, bne_iff_ne] at hother
    simp [hother.2]
  have hhit : (s.watches.filter fun w => w.key = key && w.active && w.target.toNat ≤ (s.mem.word key).toNat) = [] := by
    rw [List.filter_eq_nil_iff]
    exact fun w hw => by simp [hnohit w hw]
  have hleft : (s.watches.filter fun w => !(w.key = key && w.active && w.target.toNat ≤ (s.mem.word key).toNat)) = s.watches := by
    rw [List.filter_eq_self]
    exact fun w hw => by simp [hnohit w hw]
  unfold State.afterAdd
  dsimp only
  rw [if_pos hu, State.wakeLocal_unwaited hwait, hhit, hleft]
  exact State.settleWatches_unwatched hwatch _

/-- A counter add at a counter of a tile that nobody awaits writes its words. -/
theorem State.addAt_unwatched (hu : u < 2 ^ 20) (n st : Word) (hwait : unwaited u key s = true) (hwatch : unwatched u key s = true) :
    s.addAt u key n st = { s with mem := s.mem.counterAdd key n st } :=
  State.afterAdd_unwatched (s := { s with mem := s.mem.counterAdd key n st }) hu hwait hwatch

end

/-! ## The departure of a share add (R31, R32, R173) -/

theorem exec_shareAddDeparture (u : TileName) (i : Nat) (s : State) :
    exec (.shareAddDeparture u i) s = execShareAddDeparture u i s := rfl

section
variable {s : State} {u : TileName} {a : ShareAdd}

/-- A share add that waits for accesses, or for what issued before it on its counter, stays in its queue. -/
theorem exec_shareAddDeparture_waits (hadds : (s.tile u).shareAdds = [a])
    (hwait : (∃ n ∈ a.after, s.accessOpen u n = true) ∨ s.shareBehind u a = true) :
    exec (.shareAddDeparture u 0) s = .next s := by
  have hheld : (a.after.any (s.accessOpen u) || s.shareBehind u a) = true := by
    rwa [Bool.or_eq_true, List.any_eq_true]
  rw [exec_shareAddDeparture, execShareAddDeparture, hadds]
  dsimp only [List.getElem?_cons_zero]
  rw [hheld, Bool.true_or, if_pos rfl]

/-- The state after a share add to own tile scratch. -/
def State.shared (s : State) (u : TileName) (key : Nat) (share : BitVec 32) : State :=
  { s with mem := s.mem.counterAdd key (zext share) 0 }.setTile u { s.tile u with shareAdds := [] }

theorem State.shared_frame (s : State) (u : TileName) (key : Nat) (share : BitVec 32) :
    OneTile u { s.tile u with shareAdds := [] } s (s.shared u key share) ∧ SameBut [.mem, .tiles] s (s.shared u key share) :=
  ⟨State.oneTile_setTile _ fun _ _ => rfl, rfl⟩

theorem unwaited_setTile {key : Nat} (h : unwaited u key s = true) (adds : List ShareAdd) :
    unwaited u key (s.setTile u { s.tile u with shareAdds := adds }) = true := by
  unfold unwaited State.slot at h ⊢
  rw [State.tile_setTile_same]
  exact h

/-- A share add to a counter in own tile scratch is performed at once. -/
theorem exec_shareAddDeparture_own (hadds : (s.tile u).shareAdds = [a]) (hafter : a.after = []) (hroom : (s.tile u).offTile = [])
    (hstatus : a.status = 0) (hu : u < 2 ^ 19) {off : Nat} (hoff : a.counter.toNat = off) (hin : off + 16 ≤ 0x28000)
    (hecc : s.eccBad (scratchKey u off) 16 = false) (hwatch : unwatched u (scratchKey u off) s = true)
    (hwait : unwaited u (scratchKey u off) s = true) (hbehind : s.shareBehind u a = false) :
    exec (.shareAddDeparture u 0) s = .next (s.shared u (scratchKey u off) a.share) := by
  have hloc : s.locate (some u) a.counter 16 = .scratch u off := State.locate_own (.inl hoff) hin
  rw [exec_shareAddDeparture, execShareAddDeparture, hadds]
  dsimp only [List.getElem?_cons_zero]
  rw [hafter, hbehind, hroom, hloc, List.any_nil, Bool.or_self, List.length_nil, hstatus]
  dsimp only
  rw [bne_self_eq_false, Loc.key, Loc.home, hecc, if_neg (by decide), if_neg Bool.false_ne_true, if_neg Bool.false_ne_true,
    State.onTile_eq, hadds, List.eraseIdx_zero, List.tail_cons]
  exact congrArg Host.Outcome.next (State.addAt_unwatched (s := s.setTile u { s.tile u with shareAdds := [] })
    (Nat.lt_trans hu (by decide)) _ _ (unwaited_setTile hwait []) hwatch)

end

end Sys2Proof.Machine
end

section
/-! The release of a roll-call wire (R164, R165, R275). -/

namespace Sys2Proof

/-- An entry of a table stays when its key is written, or is the one that was read at the key. -/
theorem Sparse.mem_put_or {α : Type} (d : α) {k : Nat} {v : α} (w : α) : ∀ {m : Sparse α}, (k, v) ∈ m →
    (k, v) ∈ m.put k w ∨ v = m.get d k
  | (j, x) :: m, h => by
    rcases List.mem_cons.1 h with he | ht
    · obtain ⟨rfl, rfl⟩ := Prod.mk.inj he
      exact .inr (by rw [Sparse.get, if_pos rfl])
    · rw [Sparse.put]
      split
      case isTrue => exact .inl (List.mem_cons_of_mem _ h)
      case isFalse =>
        split
        case isTrue => exact .inl (List.mem_cons_of_mem _ ht)
        case isFalse hj =>
          rcases Sparse.mem_put_or d w ht with hin | heq
          · exact .inl (List.mem_cons_of_mem _ hin)
          · exact .inr (by rw [Sparse.get, if_neg (Ne.symm hj)]; exact heq)

end Sys2Proof

namespace Sys2Proof.Machine

section
variable {s : State} {u : TileName} {b : BulkId} {col : Bool} {i : Nat}

/-! ## A wire that does not latch -/

/-- A wire without members, or with one that has not arrived, does not release. -/
theorem State.latchWire_open (h : s.wireMembers b col i = [] ∨ u ∈ s.wireMembers b col i)
    (hbit : bit (s.tile u).arrived (num col) = false) : s.latchWire b col i = s := by
  have hopen : ((s.wireMembers b col i).isEmpty || !((s.wireMembers b col i).all fun t => bit (s.tile t).arrived (num col))) = true := by
    rcases h with h | h
    · rw [h]
      rfl
    · have hall : ((s.wireMembers b col i).all fun t => bit (s.tile t).arrived (num col)) = false := by
        rw [List.all_eq_false]
        exact ⟨u, h, by rw [hbit]; exact Bool.false_ne_true⟩
      rw [hall, Bool.not_false, Bool.or_true]
  unfold State.latchWire
  dsimp only
  rw [Bool.or_assoc, hopen, Bool.or_true, if_pos rfl]

/-- A tile that keeps its mask is a member of the wires that it was a member of. -/
theorem State.mem_wireMembers_setTile {x : Tile} (hmask : x.rcMask = (s.tile u).rcMask) (h : u ∈ s.wireMembers b col i) :
    u ∈ (s.setTile u x).wireMembers b col i := by
  obtain ⟨y, hmem, hret, hbit⟩ := State.mem_wireMembers.1 h
  have hput : (u, y) ∈ s.tiles.put u x ∨ y = s.tile u := Sparse.mem_put_or _ x hmem
  rcases hput with hstays | rfl
  · exact State.mem_wireMembers.2 ⟨y, hstays, hret, hbit⟩
  · refine State.mem_wireMembers.2 ⟨x, Sparse.mem_put_self u x s.tiles, hret, ?_⟩
    rw [hmask]
    exact hbit

theorem State.wireMembers_setTile_open {x : Tile} (hmask : x.rcMask = (s.tile u).rcMask)
    (h : s.wireMembers b col i = [] ∨ u ∈ s.wireMembers b col i) :
    (s.setTile u x).wireMembers b col i = [] ∨ u ∈ (s.setTile u x).wireMembers b col i := by
  rcases h with h | h
  · by_cases hu : u ∈ (s.setTile u x).wireMembers b col i
    · exact .inr hu
    · refine .inl (List.eq_nil_iff_forall_not_mem.2 fun v hv => ?_)
      have hvu : v ≠ u := by
        rintro rfl
        exact hu hv
      have hold := State.mem_wireMembers_of_setTile hv hvu
      rw [h] at hold
      exact List.not_mem_nil hold
  · exact .inr (State.mem_wireMembers_setTile hmask h)

/-! ## The release of one tile -/

theorem State.whereRuns_slot {k : BitVec 2} (h : (s.slot u k).state ≠ .migrated) (act : Nat) : s.whereRuns u k act = .slot u k := by
  unfold State.whereRuns
  exact if_pos (bne_iff_ne.2 h)

/-- A slot that waits for no wire is not released. -/
theorem State.releaseWire_other {k : BitVec 2} (h : ∀ row c, (s.slot u k).ctx.wait ≠ .wire row c) (col : Bool) :
    s.releaseWire col (.slot u k) = s := by
  unfold State.releaseWire
  split
  case h_1 row c hwait => exact absurd hwait (h row c)
  case h_2 => rfl

theorem State.releaseWire_waiting {k : BitVec 2} (h : (s.slot u k).ctx.wait = if col then .wire false true else .wire true false) :
    s.releaseWire col (.slot u k) = s.endsWait (.slot u k) := by
  unfold State.releaseWire State.ctxOf
  rw [h]
  cases col <;> rfl

/-- The slots of a tile that none has migrated from and none but `j` awaits a wire: only `j` is released. -/
theorem State.releaseSlots_one {j : BitVec 2} (hhome : ∀ n, (s.slot u n).state ≠ .migrated)
    (hwait : (s.slot u j).ctx.wait = if col then .wire false true else .wire true false)
    (hothers : ∀ n, n ≠ j → ∀ row c, (s.slot u n).ctx.wait ≠ .wire row c) :
    (allSlots.foldl (fun s k => s.releaseWire col (s.whereRuns u k (s.slot u k).act)) s) = s.endsWait (.slot u j) := by
  obtain ⟨before, after, hsplit⟩ := List.append_of_mem ((by decide : ∀ j : BitVec 2, j ∈ allSlots) j)
  have hnodup : (before ++ j :: after).Nodup := hsplit ▸ (by decide : allSlots.Nodup)
  obtain ⟨-, hafter, hbefore⟩ := List.nodup_append.1 hnodup
  obtain ⟨⟨htile, -⟩, -⟩ := s.endsWait_frame u j
  have hslot : ∀ n, n ≠ j → (s.endsWait (.slot u j)).slot u n = s.slot u n := by
    intro n hn
    rw [State.slot, htile]
    exact Tile.slot_setSlot_other _ _ hn
  have hfirst : ∀ n ∈ before, s.releaseWire col (s.whereRuns u n (s.slot u n).act) = s := by
    intro n hn
    have hnj : n ≠ j := hbefore n hn j (List.mem_cons_self ..)
    rw [State.whereRuns_slot (hhome n), State.releaseWire_other (hothers n hnj)]
  have hlast : ∀ n ∈ after, (s.endsWait (.slot u j)).releaseWire col
      ((s.endsWait (.slot u j)).whereRuns u n ((s.endsWait (.slot u j)).slot u n).act) = s.endsWait (.slot u j) := by
    intro n hn
    have hnj : n ≠ j := by
      rintro rfl
      exact (List.nodup_cons.1 hafter).1 hn
    have hhome' : ((s.endsWait (.slot u j)).slot u n).state ≠ .migrated := by
      rw [hslot n hnj]
      exact hhome n
    have hothers' : ∀ row c, ((s.endsWait (.slot u j)).slot u n).ctx.wait ≠ .wire row c := by
      rw [hslot n hnj]
      exact hothers n hnj
    rw [State.whereRuns_slot hhome', State.releaseWire_other hothers']
  have hnone : (before.foldl (fun s k => s.releaseWire col (s.whereRuns u k (s.slot u k).act)) s) = s := foldl_of_fixed hfirst
  rw [hsplit, List.foldl_append, hnone, List.foldl_cons, State.whereRuns_slot (hhome j),
    State.releaseWire_waiting hwait]
  exact foldl_of_fixed hlast

/-! ## The release -/

/-- A tile whose arrival at its row or its column has been used. -/
def Tile.unarrive (x : Tile) (col : Bool) : Tile := { x with arrived := x.arrived &&& (if col then 1 else 2) }

theorem Tile.arrived_unarrive (x : Tile) (col : Bool) : bit (x.unarrive col).arrived (num col) = false := by
  unfold Tile.unarrive bit
  rw [BitVec.getLsbD_and]
  cases col
  · exact Bool.and_false _
  · exact Bool.and_false _

/-- The state after a wire has released the one tile that had arrived, whose slot `j` awaited it. -/
def State.wireReleased (s : State) (b : BulkId) (col : Bool) (i : Nat) (u : TileName) (j : BitVec 2) : State :=
  ({ s with wires := s.wires.del (wireKey b col i) }.setTile u ((s.tile u).unarrive col)).endsWait (.slot u j)

theorem State.endsWait_setTile (x : Tile) (j : BitVec 2) :
    (s.setTile u x).endsWait (.slot u j) = (s.setTile u (x.onSlot j Slot.woken)).noteProgress (s.regionOf u.ret) := by
  have hwoken : (s.setTile u x).wakeUp (.slot u j) = s.setTile u (x.onSlot j Slot.woken) := by
    show (s.setTile u x).onTile u (·.onSlot j Slot.woken) = _
    rw [State.onTile_eq, State.tile_setTile_same, State.setTile_setTile]
  rw [State.endsWait, hwoken]
  rfl

theorem State.wireMembers_noteProgress (s : State) (r : Nat) (b : BulkId) (col : Bool) (i : Nat) :
    (s.noteProgress r).wireMembers b col i = s.wireMembers b col i := by
  unfold State.noteProgress
  split <;> rfl

theorem State.wireReleased_latched {j : BitVec 2} (h : s.wireMembers b col i = [] ∨ u ∈ s.wireMembers b col i) :
    (s.wireReleased b col i u j).latchWire b col i = s.wireReleased b col i u j := by
  have htile : ((s.wireReleased b col i u j).tile u).arrived = ((s.tile u).unarrive col).arrived := by
    rw [State.wireReleased, State.endsWait_setTile, State.tile_noteProgress, State.tile_setTile_same]
    rfl
  refine State.latchWire_open (u := u) ?_ (by rw [htile]; exact Tile.arrived_unarrive _ _)
  rw [State.wireReleased, State.endsWait_setTile, State.wireMembers_noteProgress]
  exact State.wireMembers_setTile_open (s := { s with wires := s.wires.del (wireKey b col i) }) rfl h

theorem State.wireReleased_frame (s : State) (b : BulkId) (col : Bool) (i : Nat) (u : TileName) (j : BitVec 2) :
    OneTile u (((s.tile u).unarrive col).onSlot j Slot.woken) s (s.wireReleased b col i u j)
      ∧ (s.wireReleased b col i u j).wires = s.wires.del (wireKey b col i)
      ∧ SameBut [.tiles, .wires, .progress] s (s.wireReleased b col i u j) := by
  obtain ⟨⟨htile, hothers⟩, hrest⟩ := State.endsWait_frame
    ({ s with wires := s.wires.del (wireKey b col i) }.setTile u ((s.tile u).unarrive col)) u j
  rw [State.tile_setTile_same] at htile
  have hwires : SameBut [.tiles, .wires, .progress] s
    ({ s with wires := s.wires.del (wireKey b col i) }.setTile u (((s.tile u).unarrive col).onSlot j Slot.woken)) := rfl
  refine ⟨⟨htile, fun v hv => (hothers v hv).trans (State.tile_setTile_other _ _ hv)⟩, congrArg State.wires hrest.symm, ?_⟩
  rw [State.wireReleased, State.endsWait_setTile]
  exact hwires.trans (State.noteProgress_rest _ _).cons.cons

theorem State.releaseTile_eq (s : State) (col : Bool) (u : TileName) :
    s.releaseTile col u = allSlots.foldl (fun s k => s.releaseWire col (s.whereRuns u k (s.slot u k).act))
      (s.setTile u ((s.tile u).unarrive col)) := rfl

theorem exec_wireRelease (b : BulkId) (col : Bool) (i : Nat) (s : State) :
    exec (.wireRelease b col i) s = execWireRelease b col i s := rfl

theorem exec_wireRelease_none (h : s.wires.find? (wireKey b col i) = none) : exec (.wireRelease b col i) s = .next s := by
  rw [exec_wireRelease, execWireRelease, h]

theorem exec_wireRelease_one {j : BitVec 2} (h : s.wires.find? (wireKey b col i) = some [u])
    (hmembers : s.wireMembers b col i = [] ∨ u ∈ s.wireMembers b col i) (hhome : ∀ n, (s.slot u n).state ≠ .migrated)
    (hwait : (s.slot u j).ctx.wait = if col then .wire false true else .wire true false)
    (hothers : ∀ n, n ≠ j → ∀ row c, (s.slot u n).ctx.wait ≠ .wire row c) :
    exec (.wireRelease b col i) s = .next (s.wireReleased b col i u j) := by
  have hrelease : { s with wires := s.wires.del (wireKey b col i) }.releaseTile col u = s.wireReleased b col i u j := by
    rw [State.releaseTile_eq]
    refine State.releaseSlots_one (j := j) (fun n => ?_) ?_ fun n hn => ?_
    all_goals rw [State.slot, State.tile_setTile_same]
    · exact hhome n
    · exact hwait
    · exact hothers n hn
  rw [exec_wireRelease, execWireRelease, h]
  dsimp only [List.foldl_cons, List.foldl_nil]
  rw [hrelease, State.wireReleased_latched hmembers]

end

end Sys2Proof.Machine
end

section
/-! Load levelling (R270 to R272). -/

namespace Sys2Proof.Machine

section
variable {s : State} {u v : TileName}

/-! ## Entries that are shipped -/

/-- The packet in which tile `u` ships the entry at place `o` of its list to tile `v` (R271, R277). -/
def levelPacket (u v : TileName) (s : State) (o : Nat) : Packet :=
  newPacket (tileNode u) (tileNode v) 3 1 (s.bulk u.ret).region.toNat false
    (.level u v (s.mem.readN (scratchKey u ((s.tile u).lvl.base + 32 * o)) 32))

/-- The state after one entry is shipped from a list that begins at `base`. -/
def State.ship (s : State) (u v : TileName) (base o : Nat) : State :=
  s.inject (tileNode u) (tileNode v) 3 1 (s.stampOf u.ret false) false (.level u v (s.mem.readN (scratchKey u (base + 32 * o)) 32))

theorem State.ship_packet (s : State) (u v : TileName) (o : Nat) :
    OnePacket s.serial (levelPacket u v s o) s (s.ship u v (s.tile u).lvl.base o) := s.inject_packet ..

theorem State.ship_rest (s : State) (u v : TileName) (base o : Nat) : SameBut [.packets, .routers, .serial] s (s.ship u v base o) :=
  s.inject_rest ..

theorem State.serial_ship (s : State) (u v : TileName) (base o : Nat) : (s.ship u v base o).serial = s.serial + 1 := rfl
theorem levelPacket_ship (s : State) (u v : TileName) (base o : Nat) : levelPacket u v (s.ship u v base o) = levelPacket u v s := rfl

/-- What shipping the entries at a list of places leaves: a packet for each, in order, and nothing else but their numbers
and flits. -/
structure EntriesShipped (u v : TileName) (os : List Nat) (s t : State) : Prop where
  sent : ∀ (i o : Nat), os[i]? = some o → t.packets.find? (s.serial + i) = some (levelPacket u v s o)
  old : ∀ m, m < s.serial → t.packets.find? m = s.packets.find? m
  tiles : ∀ w, t.tile w = s.tile w
  rest : SameBut [.packets, .routers, .serial] s t

theorem State.shipped : ∀ (os : List Nat) (s : State),
    EntriesShipped u v os s (os.foldl (fun r o => r.ship u v (s.tile u).lvl.base o) s)
  | [], s => ⟨fun i o h => by simp at h, fun _ _ => rfl, fun _ => rfl, rfl⟩
  | o :: os, s => by
    have ih := State.shipped os (s.ship u v (s.tile u).lvl.base o)
    obtain ⟨hnew, hold⟩ := s.ship_packet u v o
    refine ⟨fun i o' ho => ?_, fun m hm => ?_, ih.tiles, (s.ship_rest u v _ o).trans ih.rest⟩
    · cases i with
      | zero =>
        obtain rfl : o = o' := Option.some.inj ho
        exact (ih.old s.serial (Nat.lt_succ_self _)).trans hnew
      | succ i =>
        have hsent := ih.sent i o' ho
        rw [levelPacket_ship, State.serial_ship] at hsent
        rw [← hsent, show s.serial + (i + 1) = s.serial + 1 + i by omega]
        rfl
    · exact (ih.old m (Nat.lt_succ_of_lt hm)).trans (hold m (Nat.ne_of_lt hm))

theorem getElem?_upFrom : ∀ {n a i : Nat}, i < n → (upFrom a n)[i]? = some (a + i)
  | n + 1, a, 0, _ => rfl
  | n + 1, a, i + 1, h => by
    rw [upFrom, List.getElem?_cons_succ, getElem?_upFrom (Nat.lt_of_succ_lt_succ h)]
    congr 1
    omega

/-! ## A boundary of the levelling interval (R271, R272) -/

theorem exec_levellingBoundary (u : TileName) (s : State) : exec (.levellingBoundary u) s = execLevellingBoundary u s := rfl

/-- The tile after a boundary of its interval. -/
def Tile.bounded (x : Tile) (now : Word) : Tile := { x with lvl := { x.lvl with edge := now, edgeDepth := x.lvl.depth } }

/-- A tile that is not eligible, or whose accesses are checked, or behind a gate at HOLD, ships nothing. -/
theorem exec_levellingBoundary_idle (hedge : (s.tile u).lvl.edge ≠ s.now u)
    (hdue : (s.now u).toNat % (s.tile u).lvl.interval = 0) (hoff : (s.tile u).balances = false) :
    exec (.levellingBoundary u) s = .next (s.setTile u ((s.tile u).bounded (s.now u))) := by
  rw [exec_levellingBoundary, execLevellingBoundary]
  dsimp only
  rw [hdue, hoff, decide_eq_false hedge]
  rfl

theorem Tile.balances_disabled {x : Tile} (h : bit x.lvl.ctl 0 = false) : x.balances = false := by
  rw [Tile.balances, h, Bool.false_and]

/-- The number of entries that a tile of depth `d` ships to a neighbour of depth `m`. -/
def Tile.surplus (x : Tile) (d m room : Nat) : Nat := min (min ((d - m) / 2) x.lvl.maxShip) ((room - m) / 4)

theorem exec_levellingBoundary_ships (hedge : (s.tile u).lvl.edge ≠ s.now u)
    (hdue : (s.now u).toNat % (s.tile u).lvl.interval = 0) (hon : (s.tile u).balances = true)
    (houtst : (s.tile u).outst = 0) (hfails : (s.tile u).fails = 0) (hgate : (s.bulk u.ret).gate ≠ 2)
    (hleast : s.leastLoaded u (s.levelNeighbours u) none = some v) (hmore : s.depthSeen u v + 2 ≤ (s.tile u).lvl.depth) :
    exec (.levellingBoundary u) s = .next ((s.setTile u ((s.tile u).bounded (s.now u))).shipEntries u v
      ((s.tile u).surplus (s.tile u).lvl.depth (s.depthSeen u v) (s.tile v).lvl.size)) := by
  rw [exec_levellingBoundary, execLevellingBoundary]
  dsimp only
  rw [hdue, hon, houtst, hfails, decide_eq_false hedge, decide_eq_false hgate, hleast]
  exact congrArg Host.Outcome.next (if_neg (Nat.not_lt.2 hmore))

/-- The tile after it has shipped `n` of its entries. -/
def Tile.shippedOff (x : Tile) (n : Nat) : Tile :=
  { x with lvl := { x.lvl with depth := x.lvl.depth - n, shipped := x.lvl.shipped + BitVec.ofNat 16 n } }

theorem State.shipEntries_eq (s : State) (u v : TileName) (n : Nat) :
    s.shipEntries u v n = ((upFrom ((s.tile u).lvl.head + (s.tile u).lvl.depth - n) n).map (· % (s.tile u).lvl.size)).foldl
      (fun r o => r.ship u v (s.tile u).lvl.base o) (s.setTile u ((s.tile u).shippedOff n)) := rfl

/-- The newest entries of a tile's list leave, the newest last. -/
theorem State.shipEntries_shipped (x : Tile) (n : Nat) :
    EntriesShipped u v ((upFrom (x.lvl.head + x.lvl.depth - n) n).map (· % x.lvl.size))
      (s.setTile u (x.shippedOff n)) ((s.setTile u x).shipEntries u v n) := by
  have h := State.shipped (u := u) (v := v) ((upFrom (x.lvl.head + x.lvl.depth - n) n).map (· % x.lvl.size))
    (s.setTile u (x.shippedOff n))
  rw [State.shipEntries_eq, State.tile_setTile_same, State.setTile_setTile]
  rwa [State.tile_setTile_same] at h

end

end Sys2Proof.Machine
end

section
/-! Events of tiles: the obligation. -/

namespace Sys2Proof.Machine

/-- A waiting slot whose wait is over is READY. -/
theorem Tile.onSlot_woken {x : Tile} {j : BitVec 2} (h : (x.slot j).state = .waiting) :
    x.onSlot j Slot.woken = x.onSlot j fun y => { y with state := .ready, ctx := { y.ctx with wait := .none } } := by
  rw [Tile.onSlot, Tile.onSlot, Slot.woken_waiting h]

/-- A joining or leaving tile's membership, with what the directory's answer leaves. -/
theorem State.groupAcked (s : State) (p : Nat) (u : TileName) (x : Tile) (j : BitVec 2) :
    OneTile u (x.onSlot j Slot.woken) s (((s.dropPacket p).setTile u x).endsWait (.slot u j))
      ∧ NoPacket p s (((s.dropPacket p).setTile u x).endsWait (.slot u j))
      ∧ SameBut [.tiles, .packets, .progress] s (((s.dropPacket p).setTile u x).endsWait (.slot u j)) := by
  have hslot : SameBut [.tiles, .packets, .progress] s ((s.dropPacket p).setTile u (x.onSlot j Slot.woken)) := rfl
  have hprogress := ((s.dropPacket p).setTile u (x.onSlot j Slot.woken)).noteProgress_rest ((s.dropPacket p).regionOf u.ret)
  have hpackets : (((s.dropPacket p).setTile u (x.onSlot j Slot.woken)).noteProgress ((s.dropPacket p).regionOf u.ret)).packets
    = s.packets.del p := congrArg State.packets hprogress.symm
  rw [State.endsWait_setTile]
  refine ⟨⟨?_, fun v hv => ?_⟩, ⟨?_, fun m hm => ?_⟩, hslot.trans hprogress.cons.cons⟩
  · rw [State.tile_noteProgress, State.tile_setTile_same]
  · rw [State.tile_noteProgress, State.tile_setTile_other _ _ hv]
    rfl
  · rw [hpackets]
    exact Sparse.find?_del_same _ _
  · rw [hpackets]
    exact Sparse.find?_del_other hm _

/-- Settles O52: each event is performed on the state that its packet, its wire or its interval names, and leaves the rest. -/
theorem tileEvents : Obligations.TileEvents := by
  unfold Obligations.TileEvents
  refine ⟨fun s u p k => ?_, fun s u v d m hdue hedge hon houtst hfails hgate hdepth hleast hseen hmore => ?_⟩
  · dsimp only
    refine ⟨fun a off hadds hafter hroom hoff hstatus hu _ hin hecc hw hwatch hwait hbehind => ?_,
      fun a hadds hwait => Completes.intro (exec_shareAddDeparture_waits hadds hwait) rfl,
      fun b col i hnone => Completes.intro (exec_wireRelease_none hnone) rfl,
      fun b col i j hwire hmembers hstate hwait hhome hothers => ?_,
      fun g ag act harr hb => ?_, fun g ag act harr hb => ?_, fun g join j act harr hb hact hstate hwait => ?_,
      fun m c harr hb hhome hrun hh => ?_, fun m harr hb hu hstate hact => ?_, fun block token counter harr hb => ?_,
      fun hedge hdue hoff => ?_, fun v bs harr hb hlen hfull hw => ?_⟩
    · obtain ⟨htile, hrest⟩ := s.shared_frame u (scratchKey u off) a.share
      have hn : (zext a.share).toNat = a.share.toNat := by
        rw [zext_eq_ofNat, BitVec.toNat_ofNat]
        omega
      refine Completes.intro
        (exec_shareAddDeparture_own hadds hafter hroom hstatus hu hoff hin hecc hwatch hwait hbehind) ⟨?_, htile, hrest⟩
      rw [← hn]
      exact counted_of_mem hw rfl
    · obtain ⟨htile, hwires, hrest⟩ := s.wireReleased_frame b col i u j
      refine Completes.intro (exec_wireRelease_one hwire hmembers hhome hwait hothers) ⟨?_, fun w => ?_, hrest⟩
      · rw [Tile.onSlot_woken (x := (s.tile u).unarrive col) hstate] at htile
        exact htile
      · rw [hwires]
        split
        case isTrue h => rw [h]; exact Sparse.find?_del_same _ _
        case isFalse h => exact Sparse.find?_del_other h _
    · obtain ⟨hgone, hsent⟩ := State.directed_packet _ (membersAfter true u _) k ag (.groupAck u g true ag act) harr.old
      refine Completes.intro (exec_groupDirectoryRequest_arrived harr hb) ⟨?_, fun v hv => ?_, fun j hj => ?_, hgone, hsent,
        s.directed_rest ..⟩
      · rw [State.groups_directed, if_pos rfl]
        exact mem_membersAfter_join.2 (.inl rfl)
      · rw [State.groups_directed, if_pos rfl, mem_membersAfter_join, or_iff_right hv]
      · rw [State.groups_directed, if_neg hj]
    · obtain ⟨hgone, hsent⟩ := State.directed_packet _ (membersAfter false u _) k ag (.groupAck u g false ag act) harr.old
      refine Completes.intro (exec_groupDirectoryRequest_arrived harr hb) ⟨?_, fun v hv => ?_, hgone, hsent, s.directed_rest ..⟩
      · rw [State.groups_directed, if_pos rfl, mem_membersAfter_leave]
        exact fun h => h.1 rfl
      · rw [State.groups_directed, if_pos rfl, mem_membersAfter_leave, and_iff_right hv]
    · obtain ⟨htile, hpacket, hrest⟩ := s.groupAcked p u ((s.tile u).regroup join g) j
      have hwaiting : (((s.tile u).regroup join g).slot j).state = .waiting := by
        rw [Tile.slot_regroup]
        exact hstate
      rw [Tile.onSlot_woken hwaiting] at htile
      refine Completes.intro (exec_groupAckArrival_waiting harr hb hact hwait) ⟨⟨?_, ?_⟩, ?_, hpacket, hrest⟩
      · rintro rfl hroom h
        rw [htile.1]
        exact Tile.mem_groups_joinGroup hroom h
      · rintro rfl h
        rw [htile.1]
        exact Tile.mem_groups_leaveGroup h
      · rw [htile.1]
        refine ⟨htile.1.trans ?_, htile.2⟩
        rw [Tile.regroup_eq]
        rfl
    · refine Completes.intro (exec_migratedActivationPlacement_idle harr hb (PCore.idle_of_stopped hhome hrun hh)) ?_
      rw [State.core_setIsland (s := s.dropPacket p)]
      exact ⟨rfl, rfl, rfl, rfl, rfl, rfl, rfl, rfl, rfl, rfl, rfl, rfl, State.oneIsland_setIsland _ fun _ _ => rfl, s.dropPacket_noPacket p, rfl⟩
    · subst hu
      exact Completes.intro (exec_migrateReturnArrival_home harr hb hstate hact)
        ⟨State.oneTile_setTile _ fun _ _ => rfl, s.dropPacket_noPacket p, rfl⟩
    · exact Completes.intro (exec_syscallRequestArrival_arrived harr hb)
        ⟨State.oneIsland_setIsland _ fun _ _ => rfl, s.dropPacket_noPacket p, rfl⟩
    · exact Completes.intro (exec_levellingBoundary_idle hedge hdue (Tile.balances_disabled hoff)) (s.setTile_frame u _)
    · refine Completes.intro (exec_levellingEntryArrival_room harr hb hfull)
        ⟨?_, ?_, State.oneTile_setTile _ fun _ _ => rfl, s.dropPacket_noPacket p, rfl⟩
      · intro i hi
        exact Memory.read_writeN_same hw _ bs (by rwa [hlen])
      · intro j hj
        exact Memory.read_writeN_other s.mem _ j bs (by rwa [hlen])
  · subst hdepth hseen
    have hships := State.shipEntries_shipped (s := s) (u := u) (v := v) ((s.tile u).bounded (s.now u))
      ((s.tile u).surplus (s.tile u).lvl.depth (s.depthSeen u v) (s.tile v).lvl.size)
    have htile := (hships.tiles u).trans (State.tile_setTile_same _ _ _)
    have hbounded : SameBut [.tiles, .packets, .routers, .serial] s (s.setTile u
        (((s.tile u).bounded (s.now u)).shippedOff ((s.tile u).surplus (s.tile u).lvl.depth (s.depthSeen u v) (s.tile v).lvl.size))) :=
      rfl
    refine Completes.intro (exec_levellingBoundary_ships hedge hdue hon houtst hfails hgate hleast hmore)
      ⟨?_, fun i hi => ?_, fun i hi => hships.old i hi, ?_, fun w hw => ?_, hbounded.trans hships.rest.cons⟩
    · rw [htile]
      rfl
    · have hsent := hships.sent i (((s.tile u).lvl.head + (s.tile u).lvl.depth
          - (s.tile u).surplus (s.tile u).lvl.depth (s.depthSeen u v) (s.tile v).lvl.size + i) % (s.tile u).lvl.size) (by
        rw [List.getElem?_map]
        exact congrArg (Option.map _) (getElem?_upFrom hi))
      rw [levelPacket, State.tile_setTile_same] at hsent
      exact hsent
    · rw [htile]
      rfl
    · exact (hships.tiles w).trans (State.tile_setTile_other _ _ hw)

end Sys2Proof.Machine
end

section
/-! Vector instructions at issue (R190, R193, R202 to R204, R209, R210). -/

namespace Sys2Proof.Machine

/-! ## The queue (R190) -/

theorem Tile.vecQueued_eq (x : Tile) : x.vecQueued = x.vq.countP fun c => !c.started := List.countP_eq_length_filter.symm

section
variable {s r : State} {u : TileName} {k : BitVec 2} {x : Tile}

/-- A state that agrees with another in all but its tiles enqueues a command under the other's number, with the other's
program counter and instruction word. -/
theorem State.enqueueVec_enqueues (hcur : s.cur = .slot u k) (hr : OneTile u x s r) (hrest : SameBut [.tiles] s r)
    (hslot : x.slot k = (s.tile u).slot k) (i : Instr) (a m : Word) (dest : Option Reg) (data : Option (List Byte)) :
    Enqueues u k x i a m dest data s (r.enqueueVec u k i a m dest data) := by
  obtain ⟨hx, hothers⟩ := hr
  have hserial : r.serial = s.serial := (congrArg State.serial hrest.symm :)
  have hiw : r.iw = s.iw := (congrArg State.iw hrest.symm :)
  have hrcur : r.cur = .slot u k := (congrArg State.cur hrest.symm :).trans hcur
  have hlen : r.len = s.len := congrArg (fun w => if field w 0 2 = 3 then 4 else 2) hiw
  have hctx : r.ctx = s.ctx := by rw [State.ctx_slot hrcur, State.ctx_slot hcur, hx, hslot]
  have hact : r.actNow = (s.slot u k).act := by rw [State.actNow_slot hrcur, State.slot, hx, hslot, State.slot]
  unfold State.enqueueVec
  dsimp only
  rw [State.onCtx_eq, State.setCtx_slot (s := r.bump) hrcur, State.onTile, State.tile_setTile_same, State.setTile_setTile,
    State.retire_setTile (s := r.bump) hrcur, State.tile_bump, hx, hact, State.pc, hctx,
    State.ctx_slot (s := r.bump) hrcur, State.tile_bump, hx, hserial, hiw, State.len_bump, hlen]
  have hframe : SameBut [.tiles, .serial] s r := hrest.cons (p := .serial)
  exact ⟨State.oneTile_setTile _ hothers, hframe.trans rfl⟩

theorem State.ownScratch_slot (hcur : s.cur = .slot u k) (off : Nat) : s.ownScratch (.scratch u off) = true := by
  unfold State.ownScratch
  rw [hcur]
  exact decide_eq_true rfl

section
variable (hcur : s.cur = .slot u k) (i : Instr) (a m : Word)
include hcur

theorem State.enqueueVec_self (dest : Option Reg) (data : Option (List Byte)) :
    Enqueues u k (s.tile u) i a m dest data s (s.enqueueVec u k i a m dest data) :=
  State.enqueueVec_enqueues hcur ⟨rfl, fun _ _ => rfl⟩ rfl rfl i a m dest data

theorem State.vecIssue_room (hroom : ((s.tile u).vq.countP fun c => !c.started) < 8) (dest : Option Reg) :
    s.vecIssue i a m dest = s.enqueueVec u k i a m dest none := by
  rw [State.vecIssue, State.onTileOnly_slot hcur, Tile.vecQueued_eq, if_neg (Nat.not_le.2 hroom)]

theorem State.vecIssue_full (hfull : 8 ≤ (s.tile u).vq.countP fun c => !c.started) (dest : Option Reg) :
    s.vecIssue i a m dest = s.retry := by
  rw [State.vecIssue, State.onTileOnly_slot hcur, Tile.vecQueued_eq, if_pos hfull]

/-- A vector access of own scratch is queued, whatever the gates (R191, R292). -/
theorem State.vecMemIssue_own (hroom : ((s.tile u).vq.countP fun c => !c.started) < 8) (hacq : s.acquiring = false) (off : Nat)
    (store : Bool) : s.vecMemIssue i a m (.scratch u off) store = s.enqueueVec u k i a m none none := by
  rw [State.vecMemIssue, State.onTileOnly_slot hcur, Tile.vecQueued_eq, hacq, State.ownScratch_slot hcur,
    decide_eq_false (Nat.not_le.2 hroom), Bool.not_true, Bool.and_false]
  rfl

end

/-! ## Instructions on rows (R190) -/

/-- The instructions on rows join the queue with the operand that R112 and R113 name. -/
theorem exec_vecForm {i : Instr} {a : Word} {dest : Option Reg} (h : vecForm s.rd i = some (a, dest)) :
    exec i s = .next (s.vecIssue i a 0 dest) := by
  unfold vecForm at h
  split at h
  case h_36 => cases h
  all_goals
    cases h
    rfl

/-! ## Loads and stores of own scratch (R202, R203) -/

theorem exec_vld (v : VReg) (a : Reg) (off : BitVec 6) (s : State) : exec (.vld v a off) s = execVld v a off s := rfl
theorem exec_vst (v : VReg) (a : Reg) (off : BitVec 6) (s : State) : exec (.vst v a off) s = execVst v a off s := rfl
theorem exec_vstm (v : VReg) (a m : Reg) (s : State) : exec (.vstm v a m) s = execVstm v a m s := rfl
theorem exec_vldq (v : VReg) (q : QNum) (off : BitVec 6) (s : State) : exec (.vldq v q off) s = execVldq v q off s := rfl
theorem exec_xscan (ty : Ty) (v : VReg) (dirIn dirOut op role : BitVec 2) (s : State) :
    exec (.xscan ty v dirIn dirOut op role) s = execXscan ty v dirIn dirOut op role s := rfl
theorem exec_vfence (s : State) : exec .vfence s = execVfence s := rfl

/-- The offset of a row load or store counts rows. -/
theorem zext_mul_64 (off : BitVec 6) : zext off * 64 = BitVec.ofNat 64 (64 * off.toNat) := by
  rw [zext_eq_ofNat, mul_comm 64, BitVec.ofNat_mul]
  rfl

/-- A row of own scratch passes the checks of R137. -/
theorem State.rowChecks_own (hcur : s.cur = .slot u k) {ea : Word} {o : Nat} (hown : OwnAt u ea o s) (halign : o % 64 = 0)
    (hin : o + 64 ≤ 0x28000) {store : Bool} (hcode : store = true → s.codeLocked u o 64 = false) (act : Loc → State) :
    s.rowChecks ea store act = act (.scratch u o) := by
  have haligned : ea.toNat % 64 = 0 := (hown.mod_eq ⟨2 ^ 18, rfl⟩).trans halign
  have hopen : ¬((store && s.ownCode (.scratch u o) 64) = true) := by
    rw [Bool.and_eq_true]
    rintro ⟨hstore, hlocked⟩
    unfold State.ownCode at hlocked
    rw [State.homeTile_slot hcur] at hlocked
    dsimp only at hlocked
    rw [hcode hstore, Bool.and_false] at hlocked
    cases hlocked
  unfold State.rowChecks
  rw [if_neg (by rw [haligned]; decide), State.loc_slot hcur, State.locate_own hown hin]
  exact if_neg hopen

section
variable (hcur : s.cur = .slot u k) (hroom : ((s.tile u).vq.countP fun c => !c.started) < 8) (hacq : s.acquiring = false)
include hcur hroom hacq

theorem exec_vld_own (v : VReg) (a : Reg) (off : BitVec 6) {o : Nat}
    (hown : OwnAt u (s.rd a + BitVec.ofNat 64 (64 * off.toNat)) o s) (halign : o % 64 = 0) (hin : o + 64 ≤ 0x28000) :
    exec (.vld v a off) s
      = .next (s.enqueueVec u k (.vld v a off) (s.rd a + BitVec.ofNat 64 (64 * off.toNat)) 0 none none) := by
  rw [exec_vld, execVld, zext_mul_64, State.onTileOnly_slot hcur,
    State.rowChecks_own hcur hown halign hin (fun h => absurd h Bool.false_ne_true),
    State.vecMemIssue_own hcur _ _ _ hroom hacq]

theorem State.rowStore_own (i : Instr) {ea : Word} (m : Word) {o : Nat} (hown : OwnAt u ea o s) (halign : o % 64 = 0)
    (hin : o + 64 ≤ 0x28000) (hcode : s.codeLocked u o 64 = false) :
    s.rowStore i ea m = s.enqueueVec u k i ea m none none := by
  rw [State.rowStore, State.onTileOnly_slot hcur, State.rowChecks_own hcur hown halign hin fun _ => hcode,
    State.ownScratch_slot hcur, if_pos rfl, State.vecMemIssue_own hcur _ _ _ hroom hacq]

end

/-! ## `VLDQ` (R204) -/

/-- Where no word of a range holds an uncorrectable error, none is found. -/
theorem State.foundEcc_clean {key n : Nat} (h : s.eccBad key n = false) : s.foundEcc key n = s := by
  have hnone : s.eccWords key n = [] := by
    unfold State.eccWords
    rw [List.filter_eq_nil_iff.2 fun e he => List.any_eq_false.1 h e he, List.map_nil]
  rw [State.foundEcc, hnone]
  rfl

/-- `VLDQ` takes the read entry and is queued with the entry's bytes. -/
theorem exec_vldq_ready {qn : QNum} {q : Queue} {i : Nat} (h : QueueReady u k qn q i s)
    (hroom : ((s.tile u).vq.countP fun c => !c.started) < 8) (v : VReg) {off : BitVec 6}
    (hin : 64 * off.toNat + 64 ≤ q.bytes) (hfree : OwnFree u (q.offset i + 64 * off.toNat) 64 s) :
    exec (.vldq v qn off) s
      = .next ((s.setTile u ((s.tile u).setQueue qn (q.setEntry i ((q.entry i).take k)))).enqueueVec u k (.vldq v qn off)
          (BitVec.ofNat 64 (q.offset i + 64 * off.toNat)) 0 none
          (some (s.mem.readN (scratchKey u (q.offset i + 64 * off.toNat)) 64))) := by
  obtain ⟨hcur, rfl, hv, hi, hmine⟩ := h
  have hclean : (s.setTile u ((s.tile u).setQueue qn
      (((s.tile u).queue qn).setEntry i ((((s.tile u).queue qn).entry i).take k)))).eccBad (
      scratchKey u (((s.tile u).queue qn).offset i + 64 * off.toNat)) 64 = false := hfree.noEcc
  rw [exec_vldq, execVldq, State.onTileOnly_slot hcur, State.withQueue_valid hcur hv, if_neg (Nat.not_lt.2 hin), hi]
  dsimp only
  rw [hmine, Tile.vecQueued_eq, decide_eq_false (Nat.not_le.2 hroom), hfree.toReadFree.not_busy, Bool.or_false, Bool.or_false,
    if_neg Bool.false_ne_true, hfree.noEcc, if_neg Bool.false_ne_true, State.onQueue_eq, State.foundEcc_clean hclean]

/-! ## `XSCAN` (R209, R210) -/

theorem State.hasNeighbour_ok {need : Bool} {dir : BitVec 2}
    (h : need = true → ∃ n, neighbour u dir = some n ∧ s.tileExists n = true) (act : State) :
    s.hasNeighbour u need dir act = act := by
  unfold State.hasNeighbour
  cases need with
  | false => rfl
  | true =>
    obtain ⟨n, hn, he⟩ := h rfl
    rw [State.neighbourTile_eq hn, he]
    rfl

theorem roleIn_iff (role : BitVec 2) : roleIn role = true ↔ role = 0 ∨ role = 2 := by
  rw [roleIn, Bool.or_eq_true, decide_eq_true_eq, decide_eq_true_eq]

theorem roleOut_iff (role : BitVec 2) : roleOut role = true ↔ role = 0 ∨ role = 1 := by
  rw [roleOut, Bool.or_eq_true, decide_eq_true_eq, decide_eq_true_eq]

/-- `XSCAN` with its neighbours in place, and past its release point when it sends a carry. -/
theorem exec_xscan_queued (hcur : s.cur = .slot u k) (hroom : ((s.tile u).vq.countP fun c => !c.started) < 8) (ty : Ty)
    (v : VReg) {dirIn dirOut role : BitVec 2} (op : BitVec 2)
    (hin : role = 0 ∨ role = 2 → ∃ n, neighbour u dirIn = some n ∧ s.tileExists n = true)
    (hout : role = 0 ∨ role = 1 → (∃ n, neighbour u dirOut = some n ∧ s.tileExists n = true) ∧ (s.tile u).vq = []
      ∧ (s.tile u).outst = 0 ∧ (s.tile u).fails = 0 ∧ (s.bulk u.ret).gate ≠ 2) :
    exec (.xscan ty v dirIn dirOut op role) s
      = .next (s.enqueueVec u k (.xscan ty v dirIn dirOut op role) 0 0 none none) := by
  rw [exec_xscan, execXscan, State.onTileOnly_slot hcur, State.hasNeighbour_ok fun h => hin ((roleIn_iff role).1 h),
    State.hasNeighbour_ok fun h => (hout ((roleOut_iff role).1 h)).1, State.vecIssue_room hcur _ _ _ hroom]
  cases hrole : roleOut role with
  | false => rfl
  | true =>
    obtain ⟨-, hvq, houtst, hfails, hgate⟩ := hout ((roleOut_iff role).1 hrole)
    rw [if_pos rfl, State.vecRelease, hvq, State.releasePoint_clear hcur houtst hfails, State.gatesHeld_slot hcur,
      decide_eq_false hgate]
    rfl

end

/-- Settles O38: what each instruction hands to the queue, and that a queue with room takes it as its youngest command. -/
theorem vectorIssue : Obligations.VectorIssue := by
  unfold Obligations.VectorIssue
  refine ⟨fun i s u k a dest hcur hform => ⟨fun hroom => ?_, fun hfull => ?_⟩, fun s u k hcur hroom => ?_⟩
  · refine .intro (exec_vecForm hform) ?_
    rw [State.vecIssue_room hcur i a 0 hroom]
    exact State.enqueueVec_self hcur i a 0 dest none
  · refine .intro (exec_vecForm hform) ?_
    rw [State.vecIssue_full hcur i a 0 hfull, State.retry_slot hcur]
    exact s.setTile_frame u _
  · refine ⟨fun v a off o hacq ⟨hown, halign, hin⟩ => ⟨?_, fun hcode => ?_⟩,
      fun v a m o hacq ⟨hown, halign, hin⟩ hcode => ?_, fun v qn off q i hq hin hfree => ?_,
      fun ty v dirIn dirOut op role hin hout => ?_, fun hvq => ?_, fun hvq => ?_⟩
    · exact .intro (exec_vld_own hcur hroom hacq v a off hown halign hin) (State.enqueueVec_self hcur ..)
    · refine .intro (t := s.rowStore (.vst v a off) (s.rd a + zext off * 64) (BitVec.allOnes 64)) (exec_vst v a off s) ?_
      rw [zext_mul_64, State.rowStore_own hcur hroom hacq _ _ hown halign hin hcode]
      exact State.enqueueVec_self hcur ..
    · refine .intro (exec_vstm v a m s) ?_
      rw [State.rowStore_own hcur hroom hacq _ _ hown halign hin hcode]
      exact State.enqueueVec_self hcur ..
    · exact .intro (exec_vldq_ready hq hroom v hin hfree)
        (State.enqueueVec_enqueues hcur (s.setTile_frame u _).1 rfl (Tile.slot_setQueue ..) ..)
    · exact .intro (exec_xscan_queued hcur hroom ty v op hin hout) (State.enqueueVec_self hcur ..)
    · refine .intro (t := s.retire) ?_ s.retire_passes
      rw [exec_vfence, execVfence, State.onTileOnly_slot hcur, hvq]
      rfl
    · refine .intro (t := s.issueAndWait (.older .vec s.serial)) ?_ ?_
      · rw [exec_vfence, execVfence, State.onTileOnly_slot hcur, if_neg (by rwa [List.isEmpty_iff])]
      · rw [State.issueAndWait_slot hcur]
        exact s.setTile_frame u _

end Sys2Proof.Machine
end

section
/-! The start of vector commands (R190, R192, R202). -/

namespace Sys2Proof.Machine

/-! ## The front of the unit (R190) -/

/-- Changing the command at the front, whose number no other command has. -/
theorem Tile.onVec_front {x : Tile} {c : VCmd} {rest : List VCmd} (hvq : x.vq = c :: rest)
    (hids : ∀ e ∈ rest, e.id ≠ c.id) (f : VCmd → VCmd) : x.onVec c.id f = { x with vq := f c :: rest } := by
  have hrest : rest.map (fun e => if e.id = c.id then f e else e) = rest :=
    (List.map_congr_left fun e he => if_neg (hids e he)).trans (List.map_id' rest)
  rw [Tile.onVec, hvq, List.map_cons, if_pos rfl, hrest]

/-- Command `c` stands at the front of tile `u`'s unit, none has started, and neither the unit nor a matrix command holds it. -/
structure MayStart (u : TileName) (c : VCmd) (rest : List VCmd) (s : State) : Prop where
  front : (s.tile u).vq = c :: rest
  first : c.started = false
  others : ∀ e ∈ rest, e.started = false ∧ e.id ≠ c.id
  free : s.unitHeld u = false
  noMatrix : (s.tile u).matrixHolds c = false

theorem exec_vectorCommandStart (u : TileName) (s : State) : exec (.vectorCommandStart u) s = execVectorCommandStart u s := rfl
theorem exec_vectorCommandComplete (u : TileName) (i : Nat) (s : State) :
    exec (.vectorCommandComplete u i) s = execVectorCommandComplete u i s := rfl

section
variable {s : State} {u : TileName} {c : VCmd} {rest : List VCmd}

/-- The tile after the command at its front has started. -/
def Tile.starts (x : Tile) (c : VCmd) (rest : List VCmd) : Tile := { x with vq := { c with started := true } :: rest }

theorem MayStart.find (h : MayStart u c rest s) : (s.tile u).vq.find? (fun e => !e.started) = some c := by
  rw [h.front, List.find?_cons_of_pos (by rw [h.first]; rfl)]

theorem MayStart.going (h : MayStart u c rest s) : (s.tile u).vq.filter (·.started) = [] := by
  rw [h.front, List.filter_eq_nil_iff]
  intro e he
  rcases List.mem_cons.1 he with rfl | he
  · rw [h.first]; exact Bool.false_ne_true
  · rw [(h.others e he).1]; exact Bool.false_ne_true

theorem MayStart.onVec (h : MayStart u c rest s) :
    s.onTile u (·.onVec c.id fun e => { e with started := true }) = s.setTile u ((s.tile u).starts c rest) := by
  rw [State.onTile, Tile.onVec_front h.front fun e he => (h.others e he).2]
  rfl

/-- The state after the command at the front, which makes the access `acc` or none, has had its turn: it starts, waits,
leaves as a request, or fails for an error in a row that it would send. -/
def State.startFront (s : State) (u : TileName) (c : VCmd) (rest : List VCmd) : Option Access → State
  | none => s.setTile u ((s.tile u).starts c rest)
  | some acc =>
    if s.vecMustWait u c acc then s
    else if (s.vecOwn u c).isSome then s.setTile u ((s.tile u).starts c rest)
    else match s.badRow u c with
      | some r => (s.rowFailed u c r).settleZeros u
      | none => ((s.setTile u ((s.tile u).starts c rest)).sendVec u c acc).onTile u
          (·.onVec c.id fun e => { e with sent := true })

theorem MayStart.exec_front (h : MayStart u c rest s) :
    exec (.vectorCommandStart u) s = .next (s.startFront u c rest ((s.tile u).vecAccess c)) := by
  rw [exec_vectorCommandStart, execVectorCommandStart]
  dsimp only
  rw [h.find]
  dsimp only
  rw [h.free, h.noMatrix, h.going, h.onVec]
  cases (s.tile u).vecAccess c <;> rfl

/-- A command that makes no access starts. -/
theorem MayStart.exec_row (h : MayStart u c rest s) (hacc : (s.tile u).vecAccess c = none) :
    exec (.vectorCommandStart u) s = .next (s.setTile u ((s.tile u).starts c rest)) := by
  rw [h.exec_front, hacc, State.startFront]

section
variable (h : MayStart u c rest s) {acc : Access} (hacc : (s.tile u).vecAccess c = some acc) (hgo : s.vecMustWait u c acc = false)
include h hacc hgo

/-- An access of own scratch starts. -/
theorem MayStart.exec_own {off : Nat} (hown : s.vecOwn u c = some off) :
    exec (.vectorCommandStart u) s = .next (s.setTile u ((s.tile u).starts c rest)) := by
  rw [h.exec_front, hacc, State.startFront, hgo, hown]
  rfl

/-- An access elsewhere starts and leaves. -/
theorem MayStart.exec_away (haway : s.vecOwn u c = none) (hrows : s.badRow u c = none) :
    exec (.vectorCommandStart u) s = .next (((s.setTile u ((s.tile u).starts c rest)).sendVec u c acc).onTile u
      (·.onVec c.id fun e => { e with sent := true })) := by
  rw [h.exec_front, hacc, State.startFront, hgo, haway, hrows]
  rfl

end

/-- Only loads and stores of rows make an access. -/
theorem Tile.instr_of_vecAccess {x : Tile} {acc : Access} (h : x.vecAccess c = some acc) :
    ∃ v a, (∃ o, c.instr = .vld v a o ∨ c.instr = .vst v a o) ∨ ∃ m, c.instr = .vstm v a m := by
  unfold Tile.vecAccess at h
  split at h
  case h_1 v a o hi => exact ⟨v, a, .inl ⟨o, .inl hi⟩⟩
  case h_2 v a o hi => exact ⟨v, a, .inl ⟨o, .inr hi⟩⟩
  case h_3 v a m hi => exact ⟨v, a, .inr ⟨m, hi⟩⟩
  case h_4 => cases h

theorem Tile.vecAccess_none (x : Tile) (h : c.isMem = false ∨ ∃ v q o, c.instr = .vldq v q o) : x.vecAccess c = none := by
  cases hacc : x.vecAccess c with
  | none => rfl
  | some acc =>
    obtain ⟨v, a, ⟨o, hi | hi⟩ | ⟨m, hi⟩⟩ := Tile.instr_of_vecAccess hacc
    all_goals
      rw [VCmd.isMem, hi] at h
      rcases h with h | ⟨_, _, _, h⟩ <;> cases h

/-! ## Where an access leads (R72, R73, R202) -/

theorem State.vecOwn_own {off : Nat} (h : OwnAt u c.a off s) (hin : off + 64 ≤ 0x28000) : s.vecOwn u c = some off := by
  rw [State.vecOwn, State.locate_own h hin]
  exact if_pos rfl

/-- The tag 0x1 with another tile's name leads to that tile's scratch. -/
theorem State.locate_other {v o : Nat} (own : Option TileName) (ha : c.a.toNat = 2 ^ 60 + v * 2 ^ 24 + o) (hv : v < 2 ^ 19)
    (he : s.tileExists v = true) (hin : o + 64 ≤ 0x28000) : s.locate own c.a 64 = .scratch v o := by
  rw [State.locate_tag1 own hv (by omega) he ha, if_pos hin]

theorem State.badRow_none (h : ∀ n ∈ rowsRead c.instr, s.eccBad (scratchKey u (0x820000 + 64 * n)) 64 = false) :
    s.badRow u c = none :=
  List.find?_eq_none.2 fun n hn => by rw [rowKey, h n hn]; exact Bool.false_ne_true

/-- The request of an access that leaves, with its stamp (R77, R278, R293). -/
theorem State.sendVec_away {v o : Nat} (acc : Access) (hloc : s.locate (some u) c.a 64 = .scratch v o) (hv : v < 2 ^ 19) :
    s.sendVec u c acc
      = (s.setTile u { s.tile u with
            offTile := if acc.isLimited then (s.tile u).offTile ++ [c.id] else (s.tile u).offTile }).inject
          (tileNode u) (tileNode v) 0 acc.flits (s.bulk u.ret).region.toNat false
          (.req { acc := acc, addr := c.a,
                  who := { origin := .vec u c.slot c.act c.id, rid := c.id, epc := c.epc, iw := c.iw },
                  also := [], pid := (s.tile u).pid, hLevel := false, dest := none, counted := false, lc := false }) := by
  have huncounted : (s.asSlot u c.slot).countsLine c.a (.scratch v o) acc = false := by
    unfold State.countsLine
    rw [decide_eq_false (by exact fun e => Loc.noConfusion e)]
    rfl
  have hnode : (s.asSlot u c.slot).reqNode (.scratch v o) (tileNode u) = tileNode v :=
    if_pos (show v < 2 ^ 20 by omega)
  unfold State.sendVec
  dsimp only
  rw [hloc, huncounted, hnode]
  rfl

end

end Sys2Proof.Machine
end

section
/-! Vector commands that complete: the rows that they write, and their accesses of own scratch (R194, R202, R203). -/

namespace Sys2Proof.Machine

/-! ## Bytes of a row (R10, R187, R202) -/

theorem ofBytes_lt {n : Nat} {bs : List Byte} (h : 8 * bs.length = n) : ofBytes bs < 2 ^ n := by
  subst h
  induction bs with
  | nil => exact Nat.one_pos
  | cons b bs ih =>
    have hb : b.toNat < 256 := b.isLt
    rw [ofBytes, List.length_cons, Nat.mul_succ, pow_add]
    omega

/-- A row is the number that it is made of, where that fits. -/
theorem toNat_ofNat_of_lt {n x : Nat} (h : x < 2 ^ n) : (BitVec.ofNat n x).toNat = x := by
  rw [BitVec.toNat_ofNat, Nat.mod_eq_of_lt h]

theorem getD_toBytes : ∀ (n v j : Nat), j < n → (toBytes n v).getD j 0 = BitVec.ofNat 8 (v / 2 ^ (8 * j))
  | n + 1, v, 0, _ => by rw [Nat.mul_zero, Nat.pow_zero, Nat.div_one]; rfl
  | n + 1, v, j + 1, h => by
    have ih := getD_toBytes n (v / 256) j (Nat.lt_of_succ_lt_succ h)
    rw [toBytes, List.getD_cons_succ, ih, Nat.div_div_eq_div_mul, Nat.mul_succ, Nat.add_comm, pow_add,
      show 2 ^ 8 = 256 from rfl]

/-- A byte of consecutive bytes of which some are written. -/
theorem Memory.read_writeAt_filter (k : Nat) (p : Nat × Byte → Bool) : ∀ (bs : List Byte) (o : Nat) {m : Memory}
    (_ : m.wf = true) {j : Nat} (_ : j < bs.length),
    Memory.read (m.writeAt k (((upFrom o bs.length).zip bs).filter p)) (k + (o + j))
      = if p (o + j, bs.getD j 0) then bs.getD j 0 else m.read (k + (o + j))
  | b :: bs, o, m, hw, 0, _ => by
    have hlater (m' : Memory) :
        Memory.read (m'.writeAt k (((upFrom (o + 1) bs.length).zip bs).filter p)) (k + o) = m'.read (k + o) := by
      refine Memory.read_writeAt_other k _ _ m' fun e he => ?_
      have := mem_upFrom.mp (List.of_mem_zip (List.mem_filter.1 he).1).1
      omega
    show Memory.read (m.writeAt k (((o, b) :: (upFrom (o + 1) bs.length).zip bs).filter p)) (k + o)
      = if p (o, b) then b else m.read (k + o)
    cases hp : p (o, b) with
    | true =>
      rw [List.filter_cons_of_pos hp, Memory.writeAt, hlater, Memory.read_write_same _ _ hw, if_pos rfl]
    | false =>
      rw [List.filter_cons_of_neg (by rw [hp]; exact Bool.false_ne_true), hlater, if_neg Bool.false_ne_true]
  | b :: bs, o, m, hw, j + 1, hj => by
    have hkey : o + (j + 1) = o + 1 + j := by omega
    show Memory.read (m.writeAt k (((o, b) :: (upFrom (o + 1) bs.length).zip bs).filter p)) (k + (o + (j + 1)))
      = if p (o + (j + 1), bs.getD j 0) then bs.getD j 0 else m.read (k + (o + (j + 1)))
    rw [hkey]
    cases hp : p (o, b) with
    | true =>
      rw [List.filter_cons_of_pos hp, Memory.writeAt,
        Memory.read_writeAt_filter k p bs (o + 1) (Memory.wf_write _ _ hw) (Nat.lt_of_succ_lt_succ hj),
        Memory.read_write_other _ (by omega)]
    | false =>
      rw [List.filter_cons_of_neg (by rw [hp]; exact Bool.false_ne_true),
        Memory.read_writeAt_filter k p bs (o + 1) hw (Nat.lt_of_succ_lt_succ hj)]

/-! ## Rows that are written (R187) -/

/-- Rows of the accumulator file after some are written, in order. -/
def rowsAfter (rows : Sparse Row) (l : List (Nat × Row)) : Sparse Row := l.foldl (fun m e => m.put e.1 e.2) rows

theorem State.writeRows_frame (t : TileName) : ∀ (l : List (Nat × Row)) (s : State),
    OneTile t { s.tile t with rows := rowsAfter (s.tile t).rows l } s (s.writeRows t l)
      ∧ SameBut [.tiles, .ecc] s (s.writeRows t l)
  | [], s => ⟨⟨rfl, fun _ _ => rfl⟩, rfl⟩
  | (i, r) :: l, s => by
    obtain ⟨⟨htile, hothers⟩, hrest⟩ := State.writeRows_frame t l
      ((s.onTile t fun x => { x with rows := x.rows.put i r }).eccClear (rowKey t i) 64)
    have hfirst : ((s.onTile t fun x => { x with rows := x.rows.put i r }).eccClear (rowKey t i) 64).tile t
        = { s.tile t with rows := (s.tile t).rows.put i r } := s.tile_setTile_same t _
    rw [hfirst] at htile
    refine ⟨⟨htile, fun v hv => (hothers v hv).trans
      (s.tile_setTile_other { s.tile t with rows := (s.tile t).rows.put i r } hv)⟩, SameBut.trans rfl hrest⟩

/-- A command leaves the unit and writes rows. -/
theorem State.dropVec_writeRows (s : State) (u : TileName) (id : Nat) (l : List (Nat × Row)) :
    OneTile u { s.tile u with vq := (s.tile u).vq.filter fun e => e.id != id, rows := rowsAfter (s.tile u).rows l } s
        ((s.dropVec u id).writeRows u l)
      ∧ SameBut [.tiles, .ecc] s ((s.dropVec u id).writeRows u l) := by
  obtain ⟨⟨htile, hothers⟩, hrest⟩ := State.writeRows_frame u l (s.dropVec u id)
  have hdrop : (s.dropVec u id).tile u = { s.tile u with vq := (s.tile u).vq.filter fun e => e.id != id } :=
    State.tile_setTile_same ..
  rw [hdrop] at htile
  exact ⟨⟨htile, fun v hv => (hothers v hv).trans (State.tile_setTile_other _ _ hv)⟩, SameBut.trans rfl hrest⟩

/-! ## The only command of the unit -/

section
variable {s : State} {u : TileName} {c : VCmd}

/-- Where no `MZERO` waits, none is performed (R228). -/
theorem State.settleZeros_none (h : (s.tile u).mat.zeros = []) : State.settleZeros u s = s := by
  rw [State.settleZeros, h]
  rfl

theorem Completes.settled {i : Instr} {t : State} {P : State → Prop} (h : exec i s = .next (State.settleZeros u t))
    (hz : (t.tile u).mat.zeros = []) (hp : P t) : Completes i s P :=
  .intro (h.trans (congrArg _ (State.settleZeros_none hz))) hp

theorem OneCommand.leaves (h : OneCommand u c s) : (s.tile u).vq.filter (fun e => e.id != c.id) = [] := by
  rw [h.only, List.filter_cons_of_neg (by rw [bne_self_eq_false]; exact Bool.false_ne_true), List.filter_nil]

/-- A load of 64 bytes from own scratch. -/
theorem OneCommand.exec_load (h : OneCommand u c s) {v : VReg} {a : Reg} {o : BitVec 6} (hi : c.instr = .vld v a o)
    (hdata : c.data = none) (hsent : c.sent = false) {off : Nat} (hown : s.vecOwn u c = some off)
    (hclean : s.eccBad (scratchKey u off) 64 = false) :
    exec (.vectorCommandComplete u 0) s
      = .next (State.settleZeros u (s.completeLoad u c v (s.mem.readN (scratchKey u off) 64))) := by
  have hrows : s.badRow u c = none := State.badRow_none (by rw [hi]; exact fun n hn => absurd hn List.not_mem_nil)
  rw [exec_vectorCommandComplete, execVectorCommandComplete, h.only]
  dsimp only [List.getElem?_cons_zero]
  rw [h.started, hsent, hrows, hi, hdata, hown]
  dsimp only
  rw [State.completeOwnLoad, Option.getD_some, hclean]
  rfl

/-- A store to own scratch whose words hold no error. -/
theorem State.badWords_clean {key : Nat} {bs : List (Nat × Byte)} (h : s.eccBad key 64 = false) (hbs : ∀ b ∈ bs, b.1 < 64) :
    s.badWords key bs = [] := by
  unfold State.badWords
  refine List.map_eq_nil_iff.2 (List.filter_eq_nil_iff.2 fun e he hbad => List.any_eq_false.1 h e he ?_)
  rw [Bool.and_eq_true, Bool.and_eq_true, List.any_eq_true] at hbad
  obtain ⟨⟨hset, b, hb, hword⟩, -⟩ := hbad
  have hlt := hbs b hb
  rw [decide_eq_true_eq] at hword
  rw [Bool.and_eq_true, Bool.and_eq_true, decide_eq_true_eq, decide_eq_true_eq]
  exact ⟨⟨hset, by omega⟩, by omega⟩

theorem State.storeBytes_clean {key : Nat} {bs : List (Nat × Byte)} (h : s.badWords key bs = []) :
    (s.storeBytes key bs).mem = s.mem.writeAt key bs := by
  unfold State.storeBytes
  dsimp only
  rw [h]
  exact congrArg _ (List.filter_eq_self.2 fun _ _ => rfl)

/-- The bytes of a row that a store names (R203). -/
def VCmd.storeList (c : VCmd) (r : Row) : List (Nat × Byte) := (indexed (toBytes 64 r.toNat)).filter fun b => bit c.m b.1

theorem VCmd.storeList_lt (c : VCmd) (r : Row) : ∀ b ∈ c.storeList r, b.1 < 64 := by
  intro b hb
  have := mem_upFrom.mp (List.of_mem_zip (List.mem_filter.1 hb).1).1
  rw [length_toBytes] at this
  omega

theorem VCmd.read_storeList (c : VCmd) (r : Row) {m : Memory} (hw : m.wf = true) (key : Nat) {j : Nat} (hj : j < 64) :
    (m.writeAt key (c.storeList r)).read (key + j)
      = if c.m.getLsbD j then BitVec.ofNat 8 (r.toNat / 2 ^ (8 * j)) else m.read (key + j) := by
  have h := Memory.read_writeAt_filter key (fun b => bit c.m b.1) (toBytes 64 r.toNat) 0 hw (j := j) (by rwa [length_toBytes])
  rwa [Nat.zero_add, getD_toBytes 64 _ j hj] at h

theorem OneCommand.exec_store (h : OneCommand u c s) {v : VReg}
    (hi : (∃ a o, c.instr = .vst v a o) ∨ ∃ a m, c.instr = .vstm v a m) (hsent : c.sent = false)
    (hrow : s.eccBad (scratchKey u (0x820000 + 64 * v.toNat)) 64 = false) {off : Nat} (hown : s.vecOwn u c = some off)
    (hclean : s.eccBad (scratchKey u off) 64 = false) :
    exec (.vectorCommandComplete u 0) s = .next (State.settleZeros u
      ((s.dropVec u c.id).storeBytes (scratchKey u off) (c.storeList ((s.tile u).row v.toNat)))) := by
  have hrows : s.badRow u c = none := State.badRow_none fun n hn => by
    have hn : n ∈ [v.toNat] := by rcases hi with ⟨a, o, hi⟩ | ⟨a, m, hi⟩ <;> rwa [hi] at hn
    rwa [List.mem_singleton.1 hn]
  have hacc : (s.tile u).vecAccess c = some (.store 64 (c.storeList ((s.tile u).row v.toNat))) := by
    rcases hi with ⟨a, o, hi⟩ | ⟨a, m, hi⟩ <;> (unfold Tile.vecAccess; rw [hi]; rfl)
  have hwords := State.badWords_clean hclean (c.storeList_lt ((s.tile u).row v.toNat))
  rw [exec_vectorCommandComplete, execVectorCommandComplete, h.only]
  dsimp only [List.getElem?_cons_zero]
  rw [h.started, hsent, hrows, hacc, hown]
  have hdone : s.completeOwnStore u c off (c.storeList ((s.tile u).row v.toNat))
      = (s.dropVec u c.id).storeBytes (scratchKey u off) (c.storeList ((s.tile u).row v.toNat)) := by
    unfold State.completeOwnStore
    dsimp only
    rw [hwords]
    rfl
  rcases hi with ⟨a, o, hi⟩ | ⟨a, m, hi⟩ <;> (rw [hi, ← hdone]; rfl)

end

end Sys2Proof.Machine
end

section
/-! Scans along a chain (R63, R209 to R211). -/

namespace Sys2Proof.Machine

/-! ## Lanes of rows (R187) -/

theorem ofLanes_lt (w : Nat) : ∀ l : List Nat, ofLanes w l < 2 ^ (w * l.length)
  | [] => Nat.one_pos
  | v :: l => by
    have ih := ofLanes_lt w l
    have hv : v % 2 ^ w < 2 ^ w := Nat.mod_lt _ (Nat.two_pow_pos w)
    rw [ofLanes, List.length_cons, Nat.mul_succ, Nat.add_comm (w * l.length), pow_add]
    calc v % 2 ^ w + 2 ^ w * ofLanes w l < 2 ^ w * 1 + 2 ^ w * ofLanes w l := by rw [Nat.mul_one]; omega
      _ = 2 ^ w * (1 + ofLanes w l) := (Nat.mul_add ..).symm
      _ ≤ 2 ^ w * 2 ^ (w * l.length) := Nat.mul_le_mul_left _ (by omega)

theorem ofLanes_lane (w : Nat) : ∀ (l : List Nat) {j : Nat}, j < l.length →
    ofLanes w l / 2 ^ (w * j) % 2 ^ w = l.getD j 0 % 2 ^ w
  | v :: l, 0, _ => by
    rw [Nat.mul_zero, Nat.pow_zero, Nat.div_one, ofLanes, Nat.add_mul_mod_self_left, Nat.mod_mod]
    rfl
  | v :: l, j + 1, h => by
    have hdiv : (v % 2 ^ w + 2 ^ w * ofLanes w l) / 2 ^ w = ofLanes w l := by
      rw [Nat.add_mul_div_left _ _ (Nat.two_pow_pos w), Nat.div_eq_of_lt (Nat.mod_lt _ (Nat.two_pow_pos w)), Nat.zero_add]
    rw [Nat.mul_succ, Nat.add_comm (w * j), pow_add, ← Nat.div_div_eq_div_mul, ofLanes, hdiv,
      ofLanes_lane w l (Nat.lt_of_succ_lt_succ h), List.getD_cons_succ]

theorem ofLanes_lt_of_le {w n : Nat} {l : List Nat} (h : w * l.length ≤ n) : ofLanes w l < 2 ^ n :=
  (ofLanes_lt w l).trans_le (Nat.pow_le_pow_right Nat.two_pos h)

/-- A lane of the row of a list that fits in a row. -/
theorem lane_rowOf (w : Nat) {l : List Nat} (hfit : w * l.length ≤ 512) {j : Nat} (hj : j < l.length) :
    lane w (rowOf w l) j = l.getD j 0 % 2 ^ w := by
  rw [lane, rowOf, toNat_ofNat_of_lt (ofLanes_lt_of_le hfit), ofLanes_lane w l hj]

theorem lane_rowOf_32 {l : List Nat} (hlen : l.length = 16) {j : Nat} (hj : j < 16) :
    lane 32 (rowOf 32 l) j = l.getD j 0 % 2 ^ 32 := lane_rowOf 32 (by rw [hlen]) (hlen ▸ hj)

theorem getD_map_of_lt {f : Nat → Nat} {l : List Nat} {j : Nat} (h : j < l.length) : (l.map f).getD j 0 = f (l.getD j 0) := by
  simp [List.getD_eq_getElem?_getD, h]

/-! ## Scanned rows (R63, R208) -/

theorem length_koggeStone (ty : Ty) (op : Nat) (l : List Nat) : (koggeStone ty op l).length = 16 := rfl

/-- The rows of a scan of a tile from row `v` on are those that `scanRule` reads. -/
theorem scanRule_eq (ty : Ty) (op : Nat) (x : Tile) (v j : Nat) :
    scanRule ty op x v j = (koggeStone ty op (scanIn op (x.row v) (x.row (v + 1)))).getD j 0 := by
  have hin : (List.range 16).map (fun i => lane 32 (x.row v) i + if op = 3 then 2 ^ 32 * lane 32 (x.row (v + 1)) i else 0)
      = scanIn op (x.row v) (x.row (v + 1)) :=
    List.map_congr_left fun i _ => by rw [Nat.mul_comm (2 ^ 32)]
  rw [scanRule, hin]

section
variable {op : BitVec 2} {lanes : List Nat} (rows : Sparse Row) (v : VReg)

theorem scanOp_toNat_eq_three : op.toNat = 3 ↔ op = 3 := by
  rw [← BitVec.toNat_inj]
  rfl

/-- The rows that scanned lanes are written to: a pair for `rec`. -/
theorem rowsAfter_scan_rec (hop : op = 3) : rowsAfter rows ((rowSpan v 2).zip (scanOut op.toNat lanes))
    = (rows.put v.toNat (rowOf 32 (lanes.map (· % 2 ^ 32)))).put (v.toNat + 1) (rowOf 32 (lanes.map (· / 2 ^ 32))) := by
  rw [scanOut, if_pos (scanOp_toNat_eq_three.2 hop)]
  rfl

theorem rowsAfter_scan (hop : op ≠ 3) : rowsAfter rows ((rowSpan v 2).zip (scanOut op.toNat lanes))
    = rows.put v.toNat (rowOf 32 lanes) := by
  rw [scanOut, if_neg (fun h => hop (scanOp_toNat_eq_three.1 h))]
  rfl

theorem lane_rowsAfter_scan (hlen : lanes.length = 16) {j : Nat} (hj : j < 16) :
    lane 32 ((rowsAfter rows ((rowSpan v 2).zip (scanOut op.toNat lanes))).get 0 v.toNat) j = lanes.getD j 0 % 2 ^ 32 := by
  by_cases hop : op = 3
  · rw [rowsAfter_scan_rec rows v hop, Sparse.get_put_other _ _ (by omega), Sparse.get_put_same,
      lane_rowOf_32 (by rw [List.length_map, hlen]) hj, getD_map_of_lt (hlen ▸ hj), Nat.mod_mod]
  · rw [rowsAfter_scan rows v hop, Sparse.get_put_same, lane_rowOf_32 hlen hj]

theorem lane_rowsAfter_scan_second (hop : op = 3) (hlen : lanes.length = 16) {j : Nat} (hj : j < 16) :
    lane 32 ((rowsAfter rows ((rowSpan v 2).zip (scanOut op.toNat lanes))).get 0 (v.toNat + 1)) j
      = lanes.getD j 0 / 2 ^ 32 % 2 ^ 32 := by
  rw [rowsAfter_scan_rec rows v hop, Sparse.get_put_same, lane_rowOf_32 (by rw [List.length_map, hlen]) hj,
    getD_map_of_lt (hlen ▸ hj)]

theorem get_rowsAfter_scan_other {m : Nat} (hm : m ≠ v.toNat) (hm' : ¬(op = 3 ∧ m = v.toNat + 1)) :
    (rowsAfter rows ((rowSpan v 2).zip (scanOut op.toNat lanes))).get 0 m = rows.get 0 m := by
  by_cases hop : op = 3
  · rw [rowsAfter_scan_rec rows v hop, Sparse.get_put_other _ _ fun h => hm' ⟨hop, h⟩, Sparse.get_put_other _ _ hm]
  · rw [rowsAfter_scan rows v hop, Sparse.get_put_other _ _ hm]

end

/-! ## `XSCAN` at work (R209, R211) -/

/-- A lane of a scan with the carry that the command takes, if it takes one. -/
def carried (ty : Ty) (op : BitVec 2) (w : Option Word) (l : Nat) : Nat :=
  match w with
  | some w => combine ty op.toNat w.toNat l
  | none => l

/-- The lanes that an `XSCAN` writes. -/
def Tile.scanLanes (x : Tile) (ty : Ty) (v : VReg) (op : BitVec 2) (w : Option Word) : List Nat :=
  (koggeStone ty op.toNat (scanIn op.toNat (x.row v.toNat) (x.row (v.toNat + 1)))).map (carried ty op w)

theorem Tile.length_scanLanes (x : Tile) (ty : Ty) (v : VReg) (op : BitVec 2) (w : Option Word) :
    (x.scanLanes ty v op w).length = 16 := by rw [Tile.scanLanes, List.length_map, length_koggeStone]

theorem Tile.getD_scanLanes (x : Tile) (ty : Ty) (v : VReg) (op : BitVec 2) (w : Option Word) {j : Nat} (hj : j < 16) :
    (x.scanLanes ty v op w).getD j 0 = carried ty op w (scanRule ty op.toNat x v.toNat j) := by
  rw [Tile.scanLanes, getD_map_of_lt (by rwa [length_koggeStone]), scanRule_eq]

/-- The command leaves the unit and writes the rows of a list of lanes. -/
def State.scanDone (s : State) (u : TileName) (c : VCmd) (v : VReg) (op : BitVec 2) (lanes : List Nat) : State :=
  (s.dropVec u c.id).writeRows u ((rowSpan v 2).zip (scanOut op.toNat lanes))

/-- An `XSCAN` that has its carry, or takes none: it sends the carry `last` onward where its role has a next tile, and
waits while that tile's mailbox has no room. -/
def State.scanGoesOn (s : State) (u : TileName) (c : VCmd) (v : VReg) (dirOut op role : BitVec 2) (lanes : List Nat)
    (last : Nat) : State :=
  if !roleOut role then s.scanDone u c v op lanes
  else match neighbour u dirOut with
    | none => s.scanDone u c v op lanes
    | some n =>
      if 4 ≤ s.credits n (opposite dirOut) then s
      else (s.startLane u n dirOut (BitVec.ofNat 64 last)
        { origin := .slot u c.slot c.act, rid := c.id, epc := c.epc, iw := c.iw }).scanDone u c v op lanes

section
variable {s : State} {u : TileName} {c : VCmd}

theorem OneCommand.scanPops_none (h : OneCommand u c s) (dir : BitVec 2) : (s.tile u).scanPops dir c.id = false := by
  rw [Tile.scanPops, h.only, List.any_cons, decide_eq_false (Nat.lt_irrefl _)]
  rfl

/-- An `XSCAN` that has nothing to take changes nothing. -/
theorem State.completeScan_waits (ty : Ty) (v : VReg) {dirIn role : BitVec 2} (dirOut op : BitVec 2)
    (htakes : scanTakes (s.tile u) c dirIn role = none) : s.completeScan u c ty v dirIn dirOut op role = s := by
  unfold scanTakes at htakes
  split at htakes
  · cases htakes
  · rename_i hrole
    have hin : roleIn role = true := (roleIn_iff role).2 (not_not.1 hrole)
    split at htakes
    · cases htakes
    · rename_i hcarry hbox
      unfold State.completeScan
      simp [hin, hcarry, hbox]
    · rename_i w rest hcarry hbox
      split at htakes
      · rename_i hwait
        unfold State.completeScan
        simp [hin, hcarry, hwait]
      · cases htakes

/-- The tile from which a carry has been taken, if one was. -/
theorem OneCommand.scanTakes_tile (h : OneCommand u c s) {dirIn role : BitVec 2} {w : Option Word} {y : Tile}
    (htakes : scanTakes (s.tile u) c dirIn role = some (w, y)) :
    y.vq.filter (fun e => e.id != c.id) = [] ∧ y.rows = (s.tile u).rows ∧ y.mat.zeros = [] := by
  unfold scanTakes at htakes
  split at htakes
  · cases htakes
    exact ⟨h.leaves, rfl, h.noZeros⟩
  · split at htakes
    · cases htakes
      exact ⟨h.leaves, rfl, h.noZeros⟩
    · cases htakes
    · split at htakes
      · cases htakes
      · cases htakes
        have hvq : ((s.tile u).popBox dirIn).vq = c :: [] := h.only
        refine ⟨?_, rfl, h.noZeros⟩
        rw [Tile.onVec_front hvq fun e he => absurd he List.not_mem_nil]
        exact List.filter_cons_of_neg (by rw [bne_self_eq_false]; exact Bool.false_ne_true)

/-- An `XSCAN` goes on from the tile that its carry, if any, has been taken from. -/
theorem OneCommand.completeScan_goesOn (h : OneCommand u c s) (ty : Ty) (v : VReg) {dirIn role : BitVec 2}
    (dirOut op : BitVec 2) {w : Option Word} {y : Tile} (htakes : scanTakes (s.tile u) c dirIn role = some (w, y)) :
    ∃ r, OneTile u y s r ∧ SameBut [.tiles] s r ∧ s.completeScan u c ty v dirIn dirOut op role
      = r.scanGoesOn u c v dirOut op role ((s.tile u).scanLanes ty v op w)
          (carried ty op w (scanRule ty op.toNat (s.tile u) v.toNat 15)) := by
  rw [scanRule_eq]
  unfold scanTakes at htakes
  split at htakes
  · rename_i hrole
    have hin : roleIn role = false := Bool.eq_false_iff.2 fun hr => hrole ((roleIn_iff role).1 hr)
    cases htakes
    refine ⟨s, ⟨rfl, fun _ _ => rfl⟩, rfl, ?_⟩
    unfold State.completeScan
    rw [hin]
    rfl
  · rename_i hrole
    have hin : roleIn role = true := (roleIn_iff role).2 (not_not.1 hrole)
    split at htakes
    · rename_i w hcarry
      cases htakes
      refine ⟨s, ⟨rfl, fun _ _ => rfl⟩, rfl, ?_⟩
      unfold State.completeScan
      rw [hin, hcarry]
      rfl
    · cases htakes
    · rename_i w rest hcarry hbox
      split at htakes
      · cases htakes
      · rename_i hwait
        cases htakes
        refine ⟨s.setTile u (((s.tile u).popBox dirIn).onVec c.id fun e => { e with carry := some w }),
          (s.setTile_frame u _).1, rfl, ?_⟩
        unfold State.completeScan
        rw [hin, hcarry]
        dsimp only
        rw [h.scanPops_none, Bool.eq_false_iff.2 hwait, hbox]
        rfl

theorem OneCommand.exec_scan (h : OneCommand u c s) {ty : Ty} {v : VReg} {dirIn dirOut op role : BitVec 2}
    (hi : c.instr = .xscan ty v dirIn dirOut op role) (hsent : c.sent = false)
    (hrow : s.eccBad (scratchKey u (0x820000 + 64 * v.toNat)) 64 = false)
    (hnext : op = 3 → s.eccBad (scratchKey u (0x820000 + 64 * (v.toNat + 1))) 64 = false) :
    exec (.vectorCommandComplete u 0) s = .next (State.settleZeros u (s.completeScan u c ty v dirIn dirOut op role)) := by
  have hrows : s.badRow u c = none := State.badRow_none fun n hn => by
    rw [hi] at hn
    obtain ⟨hlo, hhi⟩ := mem_upFrom.1 (show n ∈ upFrom v.toNat (if op = 3 then 2 else 1) from hn)
    by_cases hn : n = v.toNat
    · rwa [hn]
    · by_cases hop : op = 3
      · rw [if_pos hop] at hhi
        rw [show n = v.toNat + 1 by omega]
        exact hnext hop
      · rw [if_neg hop] at hhi
        omega
  rw [exec_vectorCommandComplete, execVectorCommandComplete, h.only]
  dsimp only [List.getElem?_cons_zero]
  rw [h.started, hsent, hrows, hi]
  rfl

/-! ## What an `XSCAN` leaves -/

variable {r : State} {v : VReg} {dirOut op role : BitVec 2} {lanes : List Nat} {last : Nat}

theorem State.scanGoesOn_last (hrole : ¬(role = 0 ∨ role = 1)) :
    r.scanGoesOn u c v dirOut op role lanes last = r.scanDone u c v op lanes := by
  have hout : roleOut role = false := Bool.eq_false_iff.2 fun h => hrole ((roleOut_iff role).1 h)
  rw [State.scanGoesOn, hout]
  rfl

section
variable (hrole : role = 0 ∨ role = 1) {n : TileName} (hn : neighbour u dirOut = some n)
include hrole hn

theorem State.scanGoesOn_room (hroom : r.credits n (opposite dirOut) < 4) :
    r.scanGoesOn u c v dirOut op role lanes last
      = (r.startLane u n dirOut (BitVec.ofNat 64 last)
          { origin := .slot u c.slot c.act, rid := c.id, epc := c.epc, iw := c.iw }).scanDone u c v op lanes := by
  rw [State.scanGoesOn, (roleOut_iff role).2 hrole, hn]
  exact if_neg (Nat.not_le.2 hroom)

theorem State.scanGoesOn_full (hfull : 4 ≤ r.credits n (opposite dirOut)) :
    r.scanGoesOn u c v dirOut op role lanes last = r := by
  rw [State.scanGoesOn, (roleOut_iff role).2 hrole, hn]
  exact if_pos hfull

end

/-- The credits that a neighbour's mailbox has given out do not change with the tile that sends. -/
theorem State.credits_congr {y : Tile} (hr : OneTile u y s r) (hrest : SameBut [.tiles] s r) {n : TileName}
    (hn : neighbour u dirOut = some n) : r.credits n (opposite dirOut)
      = ((s.tile n).box (dirOut + 2)).length + s.lanes.countP fun l => l.2.dst = n && l.2.dir + 2 = dirOut + 2 := by
  have hlanes : r.lanes = s.lanes := (congrArg State.lanes hrest.symm :)
  rw [State.credits_eq, hr.2 n (neighbour_ne hn), hlanes]

/-- `t` is `s` after an `XSCAN` has written the scan of the rows of tile `u`, each lane with the carry `w`; otherwise the
tile is `y`. -/
structure ScanWritten (u : TileName) (ty : Ty) (v : VReg) (op : BitVec 2) (w : Option Word) (y : Tile)
    (s t : State) : Prop where
  lanes : ∀ j < 16, lane 32 ((t.tile u).row v.toNat) j = carried ty op w (scanRule ty op.toNat (s.tile u) v.toNat j) % 2 ^ 32
    ∧ (op = 3 → lane 32 ((t.tile u).row (v.toNat + 1)) j
        = carried ty op w (scanRule ty op.toNat (s.tile u) v.toNat j) / 2 ^ 32 % 2 ^ 32)
  others : ∀ m, m ≠ v.toNat → ¬(op = 3 ∧ m = v.toNat + 1) → (t.tile u).row m = (s.tile u).row m
  tile : OneTile u { y with vq := [], rows := (t.tile u).rows } s t

theorem OneCommand.scanWritten (h : OneCommand u c s) (ty : Ty) {dirIn : BitVec 2} {w : Option Word} {y : Tile}
    (htakes : scanTakes (s.tile u) c dirIn role = some (w, y)) (hr : OneTile u y s r) :
    let t := r.scanDone u c v op ((s.tile u).scanLanes ty v op w)
    ScanWritten u ty v op w y s t ∧ SameBut [.tiles, .ecc] r t ∧ (t.tile u).mat.zeros = [] := by
  obtain ⟨hvq, hrows, hzeros⟩ := h.scanTakes_tile htakes
  obtain ⟨hy, hothers⟩ := hr
  obtain ⟨⟨htile, hrest⟩, hframe⟩ :=
    r.dropVec_writeRows u c.id ((rowSpan v 2).zip (scanOut op.toNat ((s.tile u).scanLanes ty v op w)))
  rw [hy, hvq, hrows] at htile
  have hlen := (s.tile u).length_scanLanes ty v op w
  refine ⟨⟨fun j hj => ⟨?_, fun hop => ?_⟩, fun m hm hm' => ?_,
    ⟨?_, fun z hz => (hrest z hz).trans (hothers z hz)⟩⟩, hframe, ?_⟩
  · rw [State.scanDone, htile, ← Tile.getD_scanLanes _ _ _ _ _ hj]
    exact lane_rowsAfter_scan _ v hlen hj
  · rw [State.scanDone, htile, ← Tile.getD_scanLanes _ _ _ _ _ hj]
    exact lane_rowsAfter_scan_second _ v hop hlen hj
  · rw [State.scanDone, htile]
    exact get_rowsAfter_scan_other _ v hm hm'
  · rw [State.scanDone, htile]
  · rw [State.scanDone, htile]
    exact hzeros

end

end Sys2Proof.Machine
end

section
/-! The vector unit: the obligations about its commands (R190, R194, R202 to R211). -/

namespace Sys2Proof.Machine

section
variable {s : State} {u : TileName} {c : VCmd} {rest : List VCmd}

theorem State.setTile_rest (s : State) (u : TileName) (x : Tile) :
    SameBut [.tiles, .packets, .routers, .serial] s (s.setTile u x) := rfl

/-- A tile that changes, sends a packet, and changes again. -/
theorem State.setTile_inject_setTile (s : State) (u : TileName) (x y : Tile) (src dst vc flits stamp : Nat) (marked : Bool)
    (body : Body) :
    let t := ((s.setTile u x).inject src dst vc flits stamp marked body).setTile u y
    OneTile u y s t ∧ OnePacket s.serial (newPacket src dst vc flits stamp marked body) s t
      ∧ SameBut [.tiles, .packets, .routers, .serial] s t := by
  obtain ⟨hnew, hold⟩ := (s.setTile u x).inject_packet src dst vc flits stamp marked body
  have hrest := (s.setTile u x).inject_rest src dst vc flits stamp marked body
  have hothers (v : TileName) (hv : v ≠ u) := (State.tile_inject (s.setTile u x) src dst vc flits stamp marked body v).trans
    (s.tile_setTile_other x hv)
  exact ⟨State.oneTile_setTile _ hothers, ⟨hnew, hold⟩,
    (s.setTile_rest u x).trans (hrest.cons.trans (State.setTile_rest _ u y))⟩

/-- An access that has left: the tile that sent it, its request, and what stays (R77, R141, R278). -/
theorem MayStart.leaves (h : MayStart u c rest s) (acc : Access) {v o : Nat} (hloc : s.locate (some u) c.a 64 = .scratch v o)
    (hv : v < 2 ^ 19) :
    let t := ((s.setTile u ((s.tile u).starts c rest)).sendVec u c acc).onTile u
      (·.onVec c.id fun e => { e with sent := true })
    OneTile u { s.tile u with
        vq := { c with started := true, sent := true } :: rest
        offTile := if acc.isLimited then (s.tile u).offTile ++ [c.id] else (s.tile u).offTile } s t
      ∧ OnePacket s.serial
          (newPacket (tileNode u) (tileNode v) 0 acc.flits (s.bulk u.ret).region.toNat false
            (.req { acc := acc, addr := c.a,
                    who := { origin := .vec u c.slot c.act c.id, rid := c.id, epc := c.epc, iw := c.iw },
                    also := [], pid := (s.tile u).pid, hLevel := false, dest := none, counted := false, lc := false })) s t
      ∧ SameBut [.tiles, .packets, .routers, .serial] s t := by
  have hids : ∀ e ∈ rest, e.id ≠ c.id := fun e he => (h.others e he).2
  have hsent := State.sendVec_away (s := s.setTile u ((s.tile u).starts c rest)) acc hloc hv
  rw [State.tile_setTile_same, State.setTile_setTile] at hsent
  dsimp only
  rw [hsent, State.onTile, State.tile_inject, State.tile_setTile_same,
    Tile.onVec_front (c := { c with started := true }) (rest := rest) rfl hids]
  exact State.setTile_inject_setTile ..

/-- A load from own scratch (R202): the row holds the 64 bytes. -/
theorem OneCommand.load_writes (h : OneCommand u c s) (v : VReg) {bs : List Byte} (hlen : bs.length = 64) :
    let t := s.completeLoad u c v bs
    ((t.tile u).row v.toNat).toNat = ofBytes bs ∧ (∀ n, n ≠ v.toNat → (t.tile u).row n = (s.tile u).row n)
      ∧ OneTile u { s.tile u with vq := [], rows := (t.tile u).rows } s t ∧ SameBut [.tiles, .ecc] s t
      ∧ (t.tile u).mat.zeros = [] := by
  obtain ⟨⟨htile, hothers⟩, hframe⟩ := s.dropVec_writeRows u c.id [(v.toNat, BitVec.ofNat 512 (ofBytes bs))]
  rw [h.leaves] at htile
  refine ⟨?_, fun n hn => ?_, ⟨?_, hothers⟩, hframe, ?_⟩
  · rw [State.completeLoad, htile]
    exact (congrArg BitVec.toNat (Sparse.get_put_same ..)).trans (toNat_ofNat_of_lt (ofBytes_lt (by rw [hlen])))
  · rw [State.completeLoad, htile]
    exact Sparse.get_put_other _ _ hn _
  · rw [State.completeLoad, htile]
  · rw [State.completeLoad, htile]
    exact h.noZeros

theorem State.dropVec_rest (s : State) (u : TileName) (id : Nat) : SameBut [.mem, .ecc, .tiles] s (s.dropVec u id) := rfl
theorem State.storeBytes_rest (s : State) (key : Nat) (bs : List (Nat × Byte)) :
    SameBut [.mem, .ecc, .tiles] s (s.storeBytes key bs) := rfl

/-- A store to own scratch (R202, R203): the bytes that its mask names are those of the row. -/
theorem OneCommand.store_writes (h : OneCommand u c s) (r : Row) {key : Nat} (hclean : s.eccBad key 64 = false)
    (hw : MemCanonical s) :
    let t := (s.dropVec u c.id).storeBytes key (c.storeList r)
    (∀ j < 64, t.mem.read (key + j)
        = if c.m.getLsbD j then BitVec.ofNat 8 (r.toNat / 2 ^ (8 * j)) else s.mem.read (key + j))
      ∧ SameBytes key 64 s t ∧ OneTile u { s.tile u with vq := [] } s t ∧ SameBut [.mem, .ecc, .tiles] s t := by
  have hmem : ((s.dropVec u c.id).storeBytes key (c.storeList r)).mem = s.mem.writeAt key (c.storeList r) :=
    State.storeBytes_clean (s := s.dropVec u c.id) (State.badWords_clean hclean (c.storeList_lt r))
  have hdrop : OneTile u { s.tile u with vq := [] } s (s.dropVec u c.id) := by
    rw [State.dropVec, State.onTile, h.leaves]
    exact (s.setTile_frame u _).1
  refine ⟨fun j hj => ?_, fun k hk => ?_, hdrop, (s.dropVec_rest u c.id).trans (State.storeBytes_rest _ key _)⟩
  · rw [hmem]
    exact c.read_storeList r hw key hj
  · rw [hmem]
    refine Memory.read_writeAt_other _ _ _ _ fun b hb => ?_
    have := c.storeList_lt r b hb
    omega

end

/-- Settles O40: the command at the front starts or leaves, a load writes its row and a store its bytes, and an `XSCAN` goes
on from what it takes. -/
theorem vectorCompletes : Obligations.VectorCompletes := by
  unfold Obligations.VectorCompletes
  intro s u c off
  dsimp only
  refine ⟨fun rest hvq hfirst hothers hfree hmat => ?start, fun hidle => ?idle,
    fun v a o hone hi hdata hsent hown hin hclean => ?load, fun v hone hi hsent hrow hown _ hin hclean hw => ?store,
    fun ty v dirIn dirOut op role hone hi hsent hrow hnext => ⟨fun htakes => ?waits, fun w y htakes => ⟨fun hrole => ?last,
      fun n hrole hn => ⟨fun hroom => ?room, fun hfull => ?full⟩⟩⟩⟩
  case start =>
    have hmay : MayStart u c rest s := ⟨hvq, hfirst, hothers, hfree, hmat⟩
    refine ⟨fun hrow => ?_, fun acc hacc hgo => ⟨fun hown hin => ?_, fun v o hrows ha hv he hvu hin => ?_⟩⟩
    · exact .intro (hmay.exec_row ((s.tile u).vecAccess_none hrow)) (s.setTile_frame u _)
    · exact .intro (hmay.exec_own hacc hgo (State.vecOwn_own hown hin)) (s.setTile_frame u _)
    · have hloc := State.locate_other (some u) ha hv he hin
      have haway : s.vecOwn u c = none := by
        rw [State.vecOwn, hloc]
        exact if_neg hvu
      exact .intro (hmay.exec_away hacc hgo haway (State.badRow_none hrows)) (hmay.leaves acc hloc hv)
  case idle =>
    refine .intro (t := s) ?_ rfl
    rw [exec_vectorCommandStart, execVectorCommandStart]
    dsimp only
    cases hfind : (s.tile u).vq.find? fun e => !e.started with
    | none => rfl
    | some e =>
      have hheld : s.unitHeld u = true := hidle.resolve_right fun hall => by
        have he := List.find?_some hfind
        rw [hall e (List.mem_of_find?_eq_some hfind)] at he
        cases he
      dsimp only
      rw [hheld]
      rfl
  case load =>
    obtain ⟨hrow, hrows, htile, hframe, hzeros⟩ := hone.load_writes v (s.mem.length_readN (scratchKey u off) 64)
    exact .settled (hone.exec_load hi hdata hsent (State.vecOwn_own hown hin) hclean) hzeros ⟨hrow, hrows, htile, hframe⟩
  case store =>
    obtain ⟨hbytes, hsame, htile, hframe⟩ := hone.store_writes ((s.tile u).row v.toNat) hclean hw
    exact .settled (hone.exec_store hi hsent hrow (State.vecOwn_own hown hin) hclean) (by rw [htile.1]; exact hone.noZeros)
      ⟨hbytes, hsame, htile, hframe⟩
  all_goals have hexec := hone.exec_scan hi hsent hrow hnext
  case waits =>
    rw [State.completeScan_waits ty v dirOut op htakes] at hexec
    exact .settled hexec hone.noZeros rfl
  all_goals
    obtain ⟨r, hr, hrest, hgoes⟩ := hone.completeScan_goesOn ty v dirOut op htakes
    rw [hgoes] at hexec
  case last =>
    obtain ⟨⟨hlanes, hrows, htile⟩, hframe, hzeros⟩ := hone.scanWritten (v := v) (op := op) ty htakes hr
    rw [State.scanGoesOn_last hrole] at hexec
    have hfirst : SameBut [.tiles, .ecc] s r := hrest.cons (p := .ecc)
    exact .settled hexec hzeros ⟨⟨hlanes, hrows, htile⟩, hfirst.trans hframe⟩
  case room =>
    have hcredits := State.credits_congr hr hrest hn
    rw [State.scanGoesOn_room hrole hn (hcredits ▸ hroom)] at hexec
    have hlane : OneTile u y s (r.startLane u n dirOut
      (BitVec.ofNat 64 (carried ty op w (scanRule ty op.toNat (s.tile u) v.toNat 15)))
      { origin := .slot u c.slot c.act, rid := c.id, epc := c.epc, iw := c.iw }) := hr
    obtain ⟨⟨hlanes, hrows, htile⟩, hframe, hzeros⟩ := hone.scanWritten (v := v) (op := op) ty htakes hlane
    have hserial : r.serial = s.serial := (congrArg State.serial hrest.symm :)
    have hold : r.lanes = s.lanes := (congrArg State.lanes hrest.symm :)
    have hnew : (r.startLane u n dirOut (BitVec.ofNat 64 (carried ty op w (scanRule ty op.toNat (s.tile u) v.toNat 15)))
        { origin := .slot u c.slot c.act, rid := c.id, epc := c.epc, iw := c.iw }).lanes = s.lanes.put s.serial
          { src := u, dst := n, dir := dirOut,
            value := BitVec.ofNat 64 (carried ty op w (scanRule ty op.toNat (s.tile u) v.toNat 15)),
            who := { origin := .slot u c.slot c.act, rid := c.id, epc := c.epc, iw := c.iw } } := by
      rw [← hserial, ← hold]
      rfl
    have hkept := (congrArg State.lanes hframe.symm :).trans hnew
    have hfirst : SameBut [.tiles, .ecc, .lanes, .serial] s r :=
      ((hrest.cons (p := .ecc)).cons (p := .lanes)).cons (p := .serial)
    have hlast := (hframe.cons (p := .lanes)).cons (p := .serial)
    refine .settled hexec hzeros ⟨⟨hlanes, hrows, htile⟩, hfirst.trans hlast, ?_, fun m hm => ?_⟩
    · exact (congrArg (Sparse.find? · s.serial) hkept).trans (Sparse.find?_put_same ..)
    · exact (congrArg (Sparse.find? · m) hkept).trans (Sparse.find?_put_other _ hm _)
  case full =>
    have hcredits := State.credits_congr hr hrest hn
    obtain ⟨-, -, hzeros⟩ := hone.scanTakes_tile htakes
    rw [State.scanGoesOn_full hrole hn (hcredits ▸ hfull)] at hexec
    exact .settled hexec (by rw [hr.1]; exact hzeros) ⟨hr, hrest⟩

end Sys2Proof.Machine
end

section
/-! A row command whose request has left (R139, R194): the obligation about lanes. -/

namespace Sys2Proof.Machine

/-- A `VMOV` that is marked as sent completes without a look at the errors of the row that it reads. -/
theorem OneCommand.exec_vmov_sent {s : State} {u : TileName} {c : VCmd} (h : OneCommand u c s) {ty : Ty} {d a : VReg}
    (hi : c.instr = .vmov ty d a) (hsent : c.sent = true) :
    exec (.vectorCommandComplete u 0) s
      = .next (State.settleZeros u ((s.dropVec u c.id).writeRows u [(d.toNat, (s.tile u).row a.toNat)])) := by
  have hdone : s.completeRow u c = (s.dropVec u c.id).writeRows u [(d.toNat, (s.tile u).row a.toNat)] := by
    unfold State.completeRow Tile.scalarResult Tile.rowResult
    rw [hi]
    rfl
  rw [exec_vectorCommandComplete, execVectorCommandComplete, h.only]
  dsimp only [List.getElem?_cons_zero]
  rw [h.started, hsent, hi, ← hdone]
  rfl

/-- The slots of a tile are as before when such a command has completed. -/
theorem OneCommand.vmov_sent_slot {s t : State} {u : TileName} {c : VCmd} (h : OneCommand u c s) {ty : Ty} {d a : VReg}
    (hi : c.instr = .vmov ty d a) (hsent : c.sent = true) (ht : exec (.vectorCommandComplete u 0) s = .next t) (k : BitVec 2) :
    t.slot u k = s.slot u k := by
  obtain ⟨⟨htile, -⟩, -⟩ := s.dropVec_writeRows u c.id [(d.toNat, (s.tile u).row a.toNat)]
  rw [h.exec_vmov_sent hi hsent, State.settleZeros_none (by rw [htile]; exact h.noZeros)] at ht
  rw [← Host.Outcome.next.inj ht, State.slot, htile]
  rfl

/-- `VMOV` from row 2 to row 1, started and marked as sent. -/
def sentMove : VCmd :=
  { id := 1, instr := .vmov 0 1 2, slot := 0, act := 1, epc := 0, iw := 0, a := 0, m := 0, started := true, sent := true,
    data := none, carry := none, forwarded := false }

/-- The reset state with that command alone in the unit of tile 5, whose slot 0 holds its activation and is READY, and an
uncorrectable error in row 2. -/
def sentMoveState : State :=
  { State.reset.setTile 5 { Tile.reset.setSlot 0 { Slot.reset with state := .ready, act := 1 } with vq := [sentMove] } with
    ecc := [(rowKey 5 2 / 8, true)] }

/-- Refutes O39: its last clause leaves `sent` open, and a command that is marked as sent completes without a look at its
rows, so that it does not trap. In `sentMoveState` a `VMOV` reads row 2, which holds an uncorrectable error, and slot 0 stays
READY. The model sends accesses only: what the clause lacks is `c.sent = false`. -/
theorem not_vectorLanes : ¬ Obligations.VectorLanes := by
  unfold Obligations.VectorLanes
  intro h
  have hone : OneCommand 5 sentMove sentMoveState := ⟨rfl, rfl, rfl⟩
  have hquiet : Quiet 5 sentMove.slot sentMove.act sentMoveState := ⟨rfl, rfl, rfl, rfl, rfl⟩
  have hbad : ([2] : List VReg).find? (fun v => sentMoveState.eccBad (scratchKey 5 (0x820000 + 64 * v.toNat)) 64) = some 2 := by
    decide
  obtain ⟨-, -, -, -, hfails⟩ := h sentMoveState 5 sentMove hone
  obtain ⟨t, ht, -, -, -, hparked, -⟩ := hfails [2] (.inl ⟨_, rfl, rfl⟩) 2 hbad hquiet
  rw [hone.vmov_sent_slot rfl rfl ht, hquiet.ready] at hparked
  cases hparked

end Sys2Proof.Machine
end

section
/-! The matrix instructions that act at issue (R213 to R216, R226, R228). -/

namespace Sys2Proof.Machine

/-! ## The matrix slice of a tile -/

theorem State.onMat_eq (s : State) (u : TileName) (f : Matrix → Matrix) :
    s.onMat u f = s.setTile u { s.tile u with mat := f (s.tile u).mat } := rfl

@[simp] theorem Tile.row_passed (x : Tile) (k : BitVec 2) (len n : Nat) : (x.passed k len).row n = x.row n := rfl
@[simp] theorem Tile.rows_passed (x : Tile) (k : BitVec 2) (len : Nat) : (x.passed k len).rows = x.rows := rfl
@[simp] theorem Tile.mat_passed (x : Tile) (k : BitVec 2) (len : Nat) : (x.passed k len).mat = x.mat := rfl

theorem exec_gang (w : BitVec 3) (pos : BitVec 2) (s : State) : exec (.gang w pos) s = execGang w pos s := rfl
theorem exec_mopaAcc (ty : Ty) (acc : Acc) (s : State) : exec (.mopaAcc ty acc) s = execMopaAcc ty acc s := rfl
theorem exec_mopbAcc (ty : Ty) (acc : Acc) (s : State) : exec (.mopbAcc ty acc) s = execMopbAcc ty acc s := rfl
theorem exec_mopaBlock (ty : Ty) (a b : Reg) (s : State) : exec (.mopaBlock ty a b) s = execMopaBlock ty a b s := rfl
theorem exec_mopbBlock (ty : Ty) (a b : Reg) (s : State) : exec (.mopbBlock ty a b) s = execMopbBlock ty a b s := rfl
theorem exec_msca (acc : Acc) (pb : Bool) (vsa vsb : VReg) (s : State) :
    exec (.msca acc pb vsa vsb) s = execMsca acc pb vsa vsb s := rfl
theorem exec_mzero (acc : Acc) (s : State) : exec (.mzero acc) s = execMzero acc s := rfl
theorem exec_mstat (d : Reg) (s : State) : exec (.mstat d) s = execMstat d s := rfl
theorem exec_mwait (s : State) : exec .mwait s = execMwait s := rfl

/-! ## Operand descriptors (R215, R216) -/

section
variable {s : State} {u : TileName} {a : Word} {off n : Nat}

/-- The fields of an address of a block's scratch. -/
theorem fields_of_block (hr : u.ret < 80) (hoff : off < 2 ^ 20)
    (ha : a.toNat = 2 * 2 ^ 60 + (u.ret * 4096 + u.blk * 16) * 2 ^ 24 + off) :
    field a 60 4 = 2 ∧ field a 36 7 = u.ret ∧ field a 28 7 = u.blk ∧ field a 0 20 = off ∧ field a 43 17 = 0
      ∧ field a 20 8 = 0 ∧ bit a 35 = false := by
  have hb : u.blk < 128 := Nat.mod_lt _ (by decide)
  refine ⟨?_, ?_, ?_, ?_, ?_, ?_, ?_⟩
  case refine_7 =>
    rw [bit_eq_testBit, Nat.testBit_eq_decide_div_mod_eq, decide_eq_false_iff_not]
    simp only [Nat.reducePow] at *
    omega
  all_goals
    simp only [field, Nat.reducePow] at *
    omega

/-- An address of an existing block's scratch leads there (R72). -/
theorem State.locate_block (own : Option TileName) (hr : u.ret < 80) (hc : s.coresIn u.ret u.blk ≠ 0) (hn : 0 < n)
    (hin : off + n ≤ 0x100000) (ha : a.toNat = 2 * 2 ^ 60 + (u.ret * 4096 + u.blk * 16) * 2 ^ 24 + off) :
    s.locate own a n = .block u.ret u.blk off := by
  obtain ⟨htag, hret, hblk, hlow, hhigh, hmid, h35⟩ := fields_of_block hr (by omega) ha
  unfold State.locate
  rw [htag, hret, hblk, hlow, hhigh, hmid, h35]
  simp [hc, hin]

/-- A source in the scratch of the tile's own block that passes the checks of R216: base and layout as two words. -/
structure BlockSource (u : TileName) (ty : Ty) (base layout : Word) (off : Nat) (s : State) : Prop where
  addr : base.toNat = 2 * 2 ^ 60 + (u.ret * 4096 + u.blk * 16) * 2 ^ 24 + off
  ret : u.ret < 80
  cores : s.coresIn u.ret u.blk ≠ 0
  aligned : off % fmtUnit ty = 0
  pitch : layout.toNat % 2 ^ 16 % fmtUnit ty = 0
  tilePitch : layout.toNat / 2 ^ 16 % 2 ^ 16 % fmtUnit ty = 0
  inside : off + 15 * (layout.toNat % 2 ^ 16) + fmtRow ty ≤ 0x100000

theorem State.pitch_blockDesc (d : Desc) (ty : Ty) (base layout : Word) :
    (s.blockDesc d ty base layout).pitch = layout.toNat % 2 ^ 16
      ∧ field (s.blockDesc d ty base layout).layout 16 16 = layout.toNat / 2 ^ 16 % 2 ^ 16 := by
  unfold Desc.pitch State.blockDesc
  simp only [field, Nat.reducePow, BitVec.toNat_ofNat]
  omega

theorem State.blockDesc_layout (d : Desc) (ty : Ty) (base layout : Word) : s.blockDesc d ty base layout
    = { d with fmt := ty, block := true, base := base, layout := BitVec.ofNat 64 (layout.toNat % 2 ^ 34), gen := s.serial } := by
  rw [State.blockDesc, field, Nat.pow_zero, Nat.div_one]

theorem BlockSource.base_aligned {ty : Ty} {base layout : Word} (h : BlockSource u ty base layout off s) :
    base.toNat % fmtUnit ty = 0 := by
  have haddr := h.addr
  have haligned := h.aligned
  unfold fmtUnit at haligned ⊢
  split at haligned
  case isTrue h5 => rw [if_pos h5]; omega
  case isFalse h5 => rw [if_neg h5]; omega

theorem BlockSource.descOk {ty : Ty} {base layout : Word} (h : BlockSource u ty base layout off s) (d : Desc) :
    s.descOk u (s.blockDesc d ty base layout) = true := by
  have hin : off + 1 ≤ 0x100000 := by
    have hrow : 1 ≤ fmtRow ty := by unfold fmtRow; split <;> decide
    have hinside := h.inside
    omega
  have hloc : s.locate (some u) (s.blockDesc d ty base layout).base 1 = .block u.ret u.blk off :=
    State.locate_block _ h.ret h.cores Nat.one_pos hin h.addr
  have hend : off + 15 * (s.blockDesc d ty base layout).pitch + fmtRow ty ≤ 0x100000 := by
    rw [(State.pitch_blockDesc d ty base layout).1]
    exact h.inside
  rw [State.descOk, hloc]
  simp only [decide_true, Bool.true_and]
  exact decide_eq_true hend

/-- The checks of R216 let such a source pass. -/
theorem BlockSource.checks {ty : Ty} {base layout : Word} (h : BlockSource u ty base layout off s) (d : Desc) (act : State) :
    s.descChecks u (s.blockDesc d ty base layout) act = act := by
  obtain ⟨hpitch, htile⟩ := State.pitch_blockDesc (s := s) d ty base layout
  have halign : ((s.blockDesc d ty base layout).base.toNat % fmtUnit ty != 0
      || (s.blockDesc d ty base layout).pitch % fmtUnit ty != 0
      || field (s.blockDesc d ty base layout).layout 16 16 % fmtUnit ty != 0) = false := by
    rw [hpitch, htile, h.pitch, h.tilePitch, show (s.blockDesc d ty base layout).base = base from rfl, h.base_aligned]
    rfl
  unfold State.descChecks
  dsimp only
  rw [show (s.blockDesc d ty base layout).fmt = ty from rfl, halign, h.descOk d]
  rfl

end

/-! ## What passes, or waits, at issue -/

section
variable {s : State} {u : TileName} {k : BitVec 2} (hcur : s.cur = .slot u k)
include hcur

/-- An instruction that takes a number, changes its tile and passes. -/
theorem State.bump_setTile_retire (x : Tile) : OneTile u (x.passed k s.len) s (s.bump.setTile u x).retire
    ∧ SameBut [.tiles, .serial] s (s.bump.setTile u x).retire := by
  rw [State.retire_setTile (s := s.bump) hcur]
  exact ⟨State.oneTile_setTile _ fun _ _ => rfl, rfl⟩

theorem exec_gang_free (w : BitVec 3) (pos : BitVec 2) (hgang : w = 0 ∨ s.isGang u = true)
    (harr : (s.tile u).mat.arrivals = []) (hwait : (s.tile u).mat.waiting = none) (hrun : (s.tile u).mat.running = none) :
    exec (.gang w pos) s
      = .next ((s.onMat u fun m => { m with width := BitVec.ofNat 2 w.toNat, pos := pos }).retire) := by
  have hnamed : (w != 0 && !s.isGang u) = false := by
    rcases hgang with rfl | h
    · rfl
    · rw [h, Bool.not_true, Bool.and_false]
  rw [exec_gang, execGang, State.onTileOnly_slot hcur, hnamed]
  dsimp only
  rw [harr, hwait, hrun]
  rfl

theorem exec_gang_none {w : BitVec 3} (pos : BitVec 2) (hw : w ≠ 0) (hgang : s.isGang u = false) :
    exec (.gang w pos) s = .next (s.trap .noname (tileId u)) := by
  rw [exec_gang, execGang, State.onTileOnly_slot hcur, hgang, bne_iff_ne.2 hw]
  rfl

theorem exec_msca_free (acc : Acc) (pb : Bool) (vsa vsb : VReg) (hfree : (s.tile u).mat.scWaiting = none) :
    exec (.msca acc pb vsa vsb) s
      = .next ((s.bump.onMat u fun m => { m with scWaiting := some (s.localCmd (.msca acc pb vsa vsb) k) }).retire) := by
  rw [exec_msca, execMsca, State.onTileOnly_slot hcur, hfree]
  rfl

theorem exec_mwait_idle (h : (s.tile u).mat.open = []) : exec .mwait s = .next s.retire := by
  rw [exec_mwait, execMwait, State.onTileOnly_slot hcur, h]
  rfl

theorem exec_mwait_open (h : (s.tile u).mat.open ≠ []) :
    exec .mwait s = .next (s.issueAndWait (.older .mat s.serial)) := by
  rw [exec_mwait, execMwait, State.onTileOnly_slot hcur, if_neg (by rwa [List.isEmpty_iff])]

theorem exec_mstat_slot (d : Reg) : exec (.mstat d) s
    = .next ((s.onMat u fun m => { m with status := m.status &&& ~~~0xF#64 }).put d (s.tile u).mat.status) := by
  rw [exec_mstat, execMstat, State.onTileOnly_slot hcur]

theorem exec_mopaAcc_slot (ty : Ty) (acc : Acc) : exec (.mopaAcc ty acc) s
    = .next (s.bump.onMat u fun m => { m with descA := s.accDesc m.descA ty acc }).retire := by
  rw [exec_mopaAcc, execMopaAcc, State.onTileOnly_slot hcur]

theorem exec_mopbAcc_slot (ty : Ty) (acc : Acc) : exec (.mopbAcc ty acc) s
    = .next (s.bump.onMat u fun m => { m with descB := s.accDesc m.descB ty acc }).retire := by
  rw [exec_mopbAcc, execMopbAcc, State.onTileOnly_slot hcur]

theorem BlockSource.exec_mopaBlock {ty : Ty} {a b : Reg} {off : Nat}
    (h : BlockSource u ty (s.rd a) (s.rd b) off s) : exec (.mopaBlock ty a b) s
      = .next (s.bump.onMat u fun m => { m with descA := s.blockDesc (s.tile u).mat.descA ty (s.rd a) (s.rd b) }).retire := by
  rw [Machine.exec_mopaBlock, execMopaBlock, State.onTileOnly_slot hcur]
  dsimp only
  rw [h.checks]

theorem BlockSource.exec_mopbBlock {ty : Ty} {a b : Reg} {off : Nat}
    (h : BlockSource u ty (s.rd a) (s.rd b) off s) : exec (.mopbBlock ty a b) s
      = .next (s.bump.onMat u fun m => { m with descB := s.blockDesc (s.tile u).mat.descB ty (s.rd a) (s.rd b) }).retire := by
  rw [Machine.exec_mopbBlock, execMopbBlock, State.onTileOnly_slot hcur]
  dsimp only
  rw [h.checks]

theorem State.localCmd_slot (i : Instr) : s.localCmd i k
    = { id := s.serial, instr := i, slot := k, act := (s.slot u k).act, epc := s.pc, iw := s.iw,
        descA := { Desc.reset with block := true }, descB := { Desc.reset with block := true }, metaAddr := 0 } := by
  rw [State.localCmd, State.actNow_slot hcur]

end

/-! ## MSTATW (R229) -/

theorem field_statusAfter (st iw : Word) {sticky : Nat} (h : sticky < 16) :
    field (statusAfter st iw sticky) 16 16 = (field st 16 16 + 1) % 2 ^ 16
      ∧ field (statusAfter st iw sticky) 0 4 = field st 0 4 ||| sticky := by
  have hlow : field st 0 4 ||| sticky < 2 ^ 4 := Nat.or_lt_two_pow (Nat.mod_lt _ (by decide)) h
  unfold statusAfter
  generalize field st 0 4 ||| sticky = low at *
  have hfn : field iw 28 4 < 2 ^ 4 := Nat.mod_lt _ (by decide)
  have hacc : field iw 26 2 < 2 ^ 2 := Nat.mod_lt _ (by decide)
  have hpb : field iw 25 1 < 2 ^ 1 := Nat.mod_lt _ (by decide)
  generalize field iw 28 4 = fn at *
  generalize field iw 26 2 = acc at *
  generalize field iw 25 1 = pb at *
  generalize field st 16 16 = seq at *
  simp only [field, Nat.reducePow, BitVec.toNat_ofNat] at *
  omega

/-! ## `MZERO` (R228) -/

/-- The rows of an accumulator file once those of an accumulator are dropped. -/
theorem get_foldl_del {α : Type} (d : α) (j : Nat) : ∀ (l : List Nat) (m : Sparse α),
    (l.foldl (fun m r => m.del r) m).get d j = if j ∈ l then d else m.get d j
  | [], m => by simp
  | r :: l, m => by
    rw [List.foldl_cons, get_foldl_del d j l, Sparse.get_eq_getD d j (m.del r), Sparse.get_eq_getD d j m]
    by_cases hj : j = r
    · rw [hj, Sparse.find?_del_same]
      simp
    · rw [Sparse.find?_del_other hj]
      simp only [List.mem_cons, hj, false_or]

theorem mem_accRows {acc : Acc} {n : Nat} : n ∈ accRows acc ↔ n / 16 = acc.toNat := by
  rw [accRows, mem_upFrom]
  omega

section
variable {s : State} {u : TileName} {k : BitVec 2}

/-- A tile whose `MZERO` `c` of an accumulator has been performed: the rows read 0 and the command is complete. -/
def Tile.zeroed (x : Tile) (acc : Acc) (c : MCmd) : Tile :=
  { x with rows := (accRows acc).foldl (fun m r => m.del r) x.rows,
           mat := { x.mat with zeros := x.mat.zeros.filter fun z => z.id != c.id,
                               status := statusAfter x.mat.status c.iw 0 } }

theorem Tile.row_zeroed (x : Tile) (acc : Acc) (c : MCmd) (n : Nat) :
    (x.zeroed acc c).row n = if n / 16 = acc.toNat then 0 else x.row n := by
  rw [Tile.row, Tile.zeroed, get_foldl_del]
  simp only [mem_accRows]
  rfl

/-- Clearing the errors of rows leaves every tile. -/
theorem State.foldl_eccClear_frame (key : Nat → Nat) (n : Nat) : ∀ (l : List Nat) (s : State),
    (∀ v, (l.foldl (fun s r => s.eccClear (key r) n) s).tile v = s.tile v)
      ∧ SameBut [.ecc] s (l.foldl (fun s r => s.eccClear (key r) n) s)
  | [], _ => ⟨fun _ => rfl, rfl⟩
  | r :: l, s => State.foldl_eccClear_frame key n l (s.eccClear (key r) n)

theorem State.zeroAcc_frame {c : MCmd} {acc : Acc} (hi : c.instr = .mzero acc) :
    OneTile u ((s.tile u).zeroed acc c) s (s.zeroAcc u c) ∧ SameBut [.tiles, .ecc] s (s.zeroAcc u c) := by
  have heq : s.zeroAcc u c
      = (accRows acc).foldl (fun s r => s.eccClear (rowKey u r) 64) (s.setTile u ((s.tile u).zeroed acc c)) := by
    unfold State.zeroAcc
    rw [hi]
    rfl
  obtain ⟨htile, hrest⟩ := State.foldl_eccClear_frame (rowKey u) 64 (accRows acc) (s.setTile u ((s.tile u).zeroed acc c))
  obtain ⟨⟨hu, hothers⟩, -⟩ := s.setTile_frame u ((s.tile u).zeroed acc c)
  have hset : SameBut [.tiles, .ecc] s (s.setTile u ((s.tile u).zeroed acc c)) := rfl
  rw [heq]
  exact ⟨⟨(htile u).trans hu, fun v hv => (htile v).trans (hothers v hv)⟩, hset.trans hrest.cons⟩

/-- An `MZERO` acts at once where nothing else is in the matrix slice and the vector unit. -/
theorem Tile.zeroReady_alone {x : Tile} {c : MCmd} (hopen : x.mat.open = [c]) (hvq : x.vq = []) : x.zeroReady c = true := by
  rw [Tile.zeroReady, hopen, hvq, List.any_cons, decide_eq_false (lt_irrefl c.id)]
  rfl

/-- A tile on which an `MZERO` has issued. -/
def Tile.withZero (x : Tile) (c : MCmd) : Tile := { x with mat := { x.mat with zeros := x.mat.zeros ++ [c] } }

theorem Tile.zeros_withZero {x : Tile} (h : x.mat.open = []) (c : MCmd) : (x.withZero c).mat.zeros = [c] := by
  have hzeros : x.mat.zeros = [] := (List.append_eq_nil_iff.1 h).2
  rw [Tile.withZero, hzeros]
  rfl

theorem Tile.open_withZero {x : Tile} (h : x.mat.open = []) (c : MCmd) : (x.withZero c).mat.open = [c] := by
  have heq : (x.withZero c).mat.open = x.mat.open ++ [c] := (List.append_assoc ..).symm
  rw [heq, h, List.nil_append]

theorem Tile.zeroed_withZero (x : Tile) (acc : Acc) (c : MCmd) : (x.withZero c).zeroed acc c
    = { x with rows := ((x.withZero c).zeroed acc c).rows, mat := ((x.withZero c).zeroed acc c).mat } := by
  unfold Tile.zeroed
  generalize List.foldl (fun m r => m.del r) (x.withZero c).rows (accRows acc) = rows
  rfl

theorem Tile.mat_zeroed {x : Tile} (h : x.mat.open = []) (acc : Acc) (c : MCmd) :
    ((x.withZero c).zeroed acc c).mat = { x.mat with status := ((x.withZero c).zeroed acc c).mat.status } := by
  have hzeros : x.mat.zeros = [] := (List.append_eq_nil_iff.1 h).2
  have hleft : (x.withZero c).mat.zeros.filter (fun z => z.id != c.id) = x.mat.zeros := by
    rw [Tile.zeros_withZero h, hzeros, List.filter_cons_of_neg (by rw [bne_self_eq_false]; exact Bool.false_ne_true),
      List.filter_nil]
  have heq : ((x.withZero c).zeroed acc c).mat = { x.mat with
      zeros := (x.withZero c).mat.zeros.filter fun z => z.id != c.id, status := statusAfter x.mat.status c.iw 0 } := rfl
  rw [heq, hleft]

theorem exec_mzero_alone (hcur : s.cur = .slot u k) {acc : Acc} (hopen : (s.tile u).mat.open = []) (hvq : (s.tile u).vq = []) :
    exec (.mzero acc) s = .next ((s.bump.setTile u ((s.tile u).withZero (s.localCmd (.mzero acc) k))).zeroAcc u
      (s.localCmd (.mzero acc) k)).retire := by
  have hset : (s.bump.onMat u fun m => { m with zeros := m.zeros ++ [s.localCmd (.mzero acc) k] })
      = s.bump.setTile u ((s.tile u).withZero (s.localCmd (.mzero acc) k)) := rfl
  rw [exec_mzero, execMzero, State.onTileOnly_slot hcur, hset, State.settleZeros, State.tile_setTile_same,
    Tile.zeros_withZero hopen, List.foldl_cons, List.foldl_nil, State.tile_setTile_same,
    if_pos (Tile.zeroReady_alone (Tile.open_withZero hopen _) hvq)]

/-- What a frame that excepts tiles and errors says of the executing agent. -/
theorem SameBut.cur_len {t : State} (h : SameBut [.tiles, .ecc] s t) : t.cur = s.cur ∧ t.len = s.len :=
  ⟨(congrArg State.cur h).symm, (congrArg State.len h).symm⟩

/-- The module after an `MZERO` that has acted at once. -/
theorem State.zeroAcc_retire (hcur : s.cur = .slot u k) {acc : Acc} {c : MCmd} (hi : c.instr = .mzero acc) :
    OneTile u ((((s.tile u).withZero c).zeroed acc c).passed k s.len) s
        ((s.bump.setTile u ((s.tile u).withZero c)).zeroAcc u c).retire
      ∧ SameBut [.tiles, .ecc, .serial] s ((s.bump.setTile u ((s.tile u).withZero c)).zeroAcc u c).retire := by
  obtain ⟨⟨hu, hothers⟩, hrest⟩ := State.zeroAcc_frame (s := s.bump.setTile u ((s.tile u).withZero c)) (u := u) hi
  rw [State.tile_setTile_same] at hu
  have hone : OneTile u (((s.tile u).withZero c).zeroed acc c) s ((s.bump.setTile u ((s.tile u).withZero c)).zeroAcc u c) :=
    ⟨hu, fun v hv => (hothers v hv).trans (State.tile_setTile_other s.bump _ hv)⟩
  obtain ⟨hc, hl⟩ := hrest.cur_len
  obtain ⟨htile, hret⟩ := hone.retire hcur hc hl
  have hset : SameBut [.tiles, .ecc, .serial] s (s.bump.setTile u ((s.tile u).withZero c)) := rfl
  have hzero : SameBut [.tiles, .ecc, .serial] (s.bump.setTile u ((s.tile u).withZero c))
    ((s.bump.setTile u ((s.tile u).withZero c)).zeroAcc u c) := hrest.cons (p := .serial)
  have hpass : SameBut [.tiles, .ecc, .serial] ((s.bump.setTile u ((s.tile u).withZero c)).zeroAcc u c)
    ((s.bump.setTile u ((s.tile u).withZero c)).zeroAcc u c).retire := (hret.cons (p := .serial)).cons (p := .ecc)
  exact ⟨htile, (hset.trans hzero).trans hpass⟩

end

/-- Settles O41: each instruction through what it makes of its tile's slice. -/
theorem matrixIssue : Obligations.MatrixIssue := by
  unfold Obligations.MatrixIssue
  intro s u k hcur
  refine ⟨fun w pos hgang harr hwait hrun => ?_, fun w pos hw hgang hready => ?_, fun ty acc => ⟨?_, ?_⟩,
    fun ty a b off haddr hret hcores halign hpitch htile hin => ?_, fun acc pb vsa vsb hfree => ?_, fun acc hopen hvq => ?_,
    fun d => ?_, fun hopen => ?_, fun hopen => ?_⟩
  · refine .intro (exec_gang_free hcur w pos hgang harr hwait hrun) ?_
    rw [State.onMat_eq, State.retire_setTile hcur]
    exact ⟨State.oneTile_setTile _ fun _ _ => rfl, rfl⟩
  · exact .intro (exec_gang_none hcur pos hw hgang) (State.trap_traps hready _ _)
  · exact .intro (exec_mopaAcc_slot hcur ty acc) (State.bump_setTile_retire hcur _)
  · exact .intro (exec_mopbAcc_slot hcur ty acc) (State.bump_setTile_retire hcur _)
  · have hsource : BlockSource u ty (s.rd a) (s.rd b) off s := ⟨haddr, hret, hcores, halign, hpitch, htile, hin⟩
    dsimp only
    rw [← State.blockDesc_layout, ← State.blockDesc_layout]
    exact ⟨.intro (hsource.exec_mopaBlock hcur) (State.bump_setTile_retire hcur _),
      .intro (hsource.exec_mopbBlock hcur) (State.bump_setTile_retire hcur _)⟩
  · refine .intro (exec_msca_free hcur acc pb vsa vsb hfree) ?_
    rw [State.localCmd_slot hcur]
    exact State.bump_setTile_retire hcur _
  · refine .intro (exec_mzero_alone hcur hopen hvq) ?_
    obtain ⟨⟨htile, hothers⟩, hrest⟩ := State.zeroAcc_retire hcur (c := s.localCmd (.mzero acc) k) (acc := acc) rfl
    obtain ⟨hseq, hsticky⟩ := field_statusAfter (s.tile u).mat.status s.iw (sticky := 0) (by decide)
    rw [htile, Tile.mat_passed, Tile.rows_passed]
    refine ⟨fun n => ?_, Tile.mat_zeroed hopen acc _, hseq, hsticky.trans (Nat.or_zero _),
      ⟨htile.trans (congrArg (Tile.passed · k s.len) (Tile.zeroed_withZero ..)), hothers⟩, hrest⟩
    rw [Tile.row_passed, Tile.row_zeroed]
    rfl
  · refine .intro (exec_mstat_slot hcur d) ?_
    rw [State.onMat_eq, State.put_setTile hcur]
    exact s.setTile_frame u _
  · exact .intro (exec_mwait_idle hcur hopen) s.retire_passes
  · refine .intro (exec_mwait_open hcur hopen) ?_
    rw [State.issueAndWait_slot hcur]
    exact s.setTile_frame u _

end Sys2Proof.Machine
end

section
/-! The joining instructions (R216, R218, R220, R222, R224). -/

namespace Sys2Proof.Machine

theorem exec_mma (acc : Acc) (pb : Bool) (s : State) : exec (.mma acc pb) s = .next (s.joinIssue (.mma acc pb) 0) := rfl
theorem exec_mmas (acc : Acc) (a : Reg) (s : State) : exec (.mmas acc a) s = .next (s.joinIssue (.mmas acc a) (s.rd a)) := rfl

section
variable {s : State} {u : TileName} {k : BitVec 2} {i : Instr}

theorem exec_joining {addr : Word} (h : (∃ acc pb, i = .mma acc pb ∧ addr = 0) ∨ ∃ acc a, i = .mmas acc a ∧ addr = s.rd a) :
    exec i s = .next (s.joinIssue i addr) := by
  rcases h with ⟨acc, pb, rfl, rfl⟩ | ⟨acc, a, rfl, rfl⟩
  · exact exec_mma acc pb s
  · exact exec_mmas acc a s

/-- The arrival that a joining instruction of a slot leaves (R220). -/
def State.arrival (s : State) (u : TileName) (k : BitVec 2) (i : Instr) (addr : Word) : MCmd :=
  { id := s.serial, instr := i, slot := k, act := (s.slot u k).act, epc := s.pc, iw := s.iw, descA := (s.tile u).mat.descA,
    descB := (s.tile u).mat.descB, metaAddr := addr }

theorem State.joinIssue_slot (hcur : s.cur = .slot u k) (habort : (s.tile u).mat.abortAt (s.tile u).mat.arrivals.length = false)
    (addr : Word) : s.joinIssue i addr
      = if (s.arrival u k i addr).badCombo (decide ((s.tile u).mat.pos = 0)) then (s.signalAbort u).trap .matrixCombo (zext s.iw)
        else match ((s.arrival u k i addr).reads (decide ((s.tile u).mat.pos = 0))).find? fun d => d.block && !s.descOk u d with
          | some d => s.trap .noname d.base
          | none => s.metaCheck (s.arrival u k i addr) (decide ((s.tile u).mat.pos = 0))
              ((s.bump.onMat u fun m => { m with arrivals := m.arrivals ++ [s.arrival u k i addr] }).issueAndWait .gang) := by
  rw [State.joinIssue, State.onTileOnly_slot hcur, State.actNow_slot hcur]
  dsimp only
  rw [habort]
  rfl

/-- The check of the metadata address lets an aligned address within scratch pass (R224). -/
theorem State.metaCheck_ok {c : MCmd} {leader : Bool}
    (h : leader = true → c.metaAddr.toNat % 8 = 0 ∧ c.metaAddr.toNat + 128 ≤ 0x28000) (act : State) :
    s.metaCheck c leader act = act := by
  unfold State.metaCheck
  split
  case isTrue => rfl
  case isFalse hread =>
    have hleader : leader = true := by
      cases leader
      · exact absurd (congrArg not (Bool.and_false c.sparse)) hread
      · rfl
    obtain ⟨halign, hin⟩ := h hleader
    rw [halign, if_neg (by decide), if_neg (Nat.not_lt.2 hin)]

theorem State.joinIssue_arrives (hcur : s.cur = .slot u k) {addr : Word}
    (habort : (s.tile u).mat.abortAt (s.tile u).mat.arrivals.length = false)
    (hcombo : (s.arrival u k i addr).badCombo (decide ((s.tile u).mat.pos = 0)) = false)
    (hdesc : ∀ d ∈ (s.arrival u k i addr).reads (decide ((s.tile u).mat.pos = 0)), d.block = true → s.descOk u d = true)
    (hmeta : decide ((s.tile u).mat.pos = 0) = true → addr.toNat % 8 = 0 ∧ addr.toNat + 128 ≤ 0x28000) :
    s.joinIssue i addr
      = (s.bump.onMat u fun m => { m with arrivals := m.arrivals ++ [s.arrival u k i addr] }).issueAndWait .gang := by
  have hfind : (((s.arrival u k i addr).reads (decide ((s.tile u).mat.pos = 0))).find? fun d =>
      d.block && !s.descOk u d) = none := by
    refine List.find?_eq_none.2 fun d hd hbad => ?_
    obtain ⟨hblock, hout⟩ := Bool.and_eq_true_iff.1 hbad
    rw [hdesc d hd hblock] at hout
    exact Bool.false_ne_true hout
  rw [State.joinIssue_slot hcur habort, hcombo, if_neg Bool.false_ne_true, hfind]
  exact State.metaCheck_ok hmeta _

/-- A gang of one tile has no other member to signal an abort to (R222). -/
theorem State.signalAbort_alone (h : s.gangSet u = [u]) : s.signalAbort u = s := by
  rw [State.signalAbort, h, List.foldl_cons, List.foldl_nil, if_pos rfl]

theorem MCmd.badCombo_of_formats {c : MCmd} (h : formatsOk c.sparse c.descA.fmt c.descB.fmt = false) (leader : Bool) :
    c.badCombo leader = true := by
  rw [MCmd.badCombo, h]
  rfl

theorem State.joinIssue_traps (hcur : s.cur = .slot u k) {addr : Word}
    (habort : (s.tile u).mat.abortAt (s.tile u).mat.arrivals.length = false) (hgang : s.gangSet u = [u])
    (hcombo : (s.arrival u k i addr).badCombo (decide ((s.tile u).mat.pos = 0)) = true) :
    s.joinIssue i addr = s.trap .matrixCombo (zext s.iw) := by
  rw [State.joinIssue_slot hcur habort, hcombo, if_pos rfl, State.signalAbort_alone hgang]

end

/-- Settles O42: an instruction that the checks let pass reaches the end of `joinIssue`; a pair that R218 does not list is a
`MATRIX_COMBO`, which a gang of one signals to no one. The pairs of R218 are found by trying all. -/
theorem joinIssue : Obligations.JoinIssue := by
  unfold Obligations.JoinIssue
  refine ⟨fun i s u k addr hcur hi => ⟨fun habort hcombo hdesc hmeta => ?_, fun habort hgang hready hfmt => ?_⟩, by decide⟩
  · refine .intro (exec_joining hi) ?_
    rw [State.joinIssue_arrives hcur habort hcombo hdesc hmeta, State.onMat_eq,
      State.issueAndWait_setTile (s := s.bump) hcur, State.issueTime_slot hcur, State.ctx_slot hcur]
    exact ⟨State.oneTile_setTile _ fun _ _ => rfl, rfl⟩
  · refine .intro (exec_joining hi) ?_
    rw [State.joinIssue_traps hcur habort hgang (MCmd.badCombo_of_formats ?_ _)]
    · rw [← zext_eq_ofNat]
      exact State.trap_traps hready _ _
    · exact hfmt

end Sys2Proof.Machine
end

section
/-! The join and the abort of a gang of one (R220, R222). -/

namespace Sys2Proof.Machine

theorem exec_gangJoinCompletion (u : TileName) (s : State) :
    exec (.gangJoinCompletion u) s = execGangJoinCompletion u s := rfl
theorem exec_gangAbort (u : TileName) (s : State) : exec (.gangAbort u) s = execGangAbort u s := rfl

section
variable {s : State} {u : TileName} {c : MCmd}

/-! ## The join -/

theorem filter_id_ne_self (c : MCmd) : [c].filter (fun y => y.id != c.id) = [] := by
  rw [List.filter_cons_of_neg (by rw [bne_self_eq_false]; exact Bool.false_ne_true), List.filter_nil]

/-- Nothing holds back the join of a gang of one whose vector unit is empty (R220). -/
theorem State.joinReady_alone (harr : (s.tile u).mat.arrivals = [c]) (hwait : (s.tile u).mat.waiting = none)
    (haborts : (s.tile u).mat.aborts = []) (hvq : (s.tile u).vq = []) (hsparse : c.sparse = false) :
    s.joinReady [u] = some [(u, c)] := by
  simp [State.joinReady, harr, hwait, haborts, hvq, hsparse, Matrix.abortAt, Tile.vecHolds, State.metaBusy]

theorem Matrix.headGone_nil {m : Matrix} (h : m.aborts = []) : m.headGone = m := by
  rw [Matrix.headGone, h, List.map_nil, ← h]

/-- The operation of a dense join of one. -/
def MCmd.aloneOp (c : MCmd) (u : TileName) : MOp :=
  { cmd := c, leader := u, members := [u], descLead := c.descA, metaRows := [], aRows := [], bRows := [], eccBad := false,
    eccCorr := false }

/-- A tile whose only arrival has joined a gang of one (R220, R221). -/
def Tile.joined (x : Tile) (u : TileName) (c : MCmd) : Tile :=
  { x with mat := { x.mat with arrivals := [], waiting := some (c.aloneOp u), descA := x.mat.descA.advance c.descA,
                               descB := x.mat.descB.advance c.descB } }

theorem State.joinMember_alone (harr : (s.tile u).mat.arrivals = [c]) (haborts : (s.tile u).mat.aborts = [])
    (hact : (s.slot u c.slot).act = c.act) (hslot : (s.slot u c.slot).ctx.wait = .gang) :
    s.joinMember u c [u] [] false false (u, c) = (s.setTile u ((s.tile u).joined u c)).endsWait (.slot u c.slot) := by
  have hset : (s.onMat u fun m => { m.headGone with
      arrivals := m.arrivals.filter (fun y => y.id != c.id), waiting := some (c.aloneOp u),
      descA := if u = u then m.descA.advance c.descA else m.descA, descB := m.descB.advance c.descB })
      = s.setTile u ((s.tile u).joined u c) := by
    rw [State.onMat_eq, Matrix.headGone_nil haborts, harr, filter_id_ne_self, if_pos rfl]
    rfl
  have hkeeps : (s.setTile u ((s.tile u).joined u c)).slot u c.slot = s.slot u c.slot := by
    rw [State.slot, State.tile_setTile_same]
    rfl
  unfold State.joinMember
  dsimp only
  rw [show ({ cmd := c, leader := u, members := [u], descLead := c.descA, metaRows := [], aRows := [], bRows := [],
              eccBad := false, eccCorr := false } : MOp) = c.aloneOp u from rfl, hset, hkeeps, hact, hslot]
  exact if_pos (by simp)

theorem exec_gangJoinCompletion_alone (hgang : s.gangSet u = [u]) (harr : (s.tile u).mat.arrivals = [c])
    (hwait : (s.tile u).mat.waiting = none) (haborts : (s.tile u).mat.aborts = []) (hpos : (s.tile u).mat.pos = 0)
    (hvq : (s.tile u).vq = []) (hsparse : c.sparse = false) (hact : (s.slot u c.slot).act = c.act)
    (hslot : (s.slot u c.slot).ctx.wait = .gang) :
    exec (.gangJoinCompletion u) s = .next ((s.setTile u ((s.tile u).joined u c)).endsWait (.slot u c.slot)) := by
  have hfind : [(u, c)].find? (fun p => decide ((s.tile p.1).mat.pos = 0)) = some (u, c) := by
    simp [hpos]
  have hmeta : s.metaRows u c = [] := by rw [State.metaRows, hsparse, if_neg Bool.false_ne_true]
  rw [exec_gangJoinCompletion, execGangJoinCompletion, hgang, State.joinReady_alone harr hwait haborts hvq hsparse]
  dsimp only
  rw [if_neg (by simp [State.joinClash]), hfind]
  dsimp only
  rw [hsparse, Bool.false_and, Bool.false_and, hmeta, if_neg Bool.false_ne_true, List.foldl_cons, List.foldl_nil,
    List.map_cons, List.map_nil, State.joinMember_alone harr haborts hact hslot]

/-! ## The abort -/

/-- The abort that the only arrival of a tile meets is one of its place. -/
theorem findSome?_abort : ∀ {l : List Abort}, (l.any fun a => a.place = 0) = true →
    (l.findSome? fun a => [c][a.place]?.map fun c => (a.place, c)) = some (0, c)
  | a :: l, h => by
    rw [List.findSome?_cons]
    cases hp : a.place with
    | zero => rfl
    | succ n =>
      rw [List.any_cons, hp, decide_eq_false (Nat.succ_ne_zero n), Bool.false_or] at h
      exact findSome?_abort h

/-- Once it is taken, the aborts of later arrivals are one place nearer (R222). -/
theorem Matrix.aborts_takeAbort (m : Matrix) : (m.takeAbort 0).aborts
    = (m.aborts.filter fun a => a.place ≠ 0).map fun a => { a with place := a.place - 1 } := by
  have hfilter : (m.aborts.filter fun a => a.place != 0) = m.aborts.filter fun a => a.place ≠ 0 :=
    List.filter_congr fun a _ => by rw [decide_not]; rfl
  rw [Matrix.takeAbort, hfilter]
  refine List.map_congr_left fun a _ => ?_
  have hplace : (if 0 < a.place then a.place - 1 else a.place) = a.place - 1 := by split <;> omega
  rw [hplace]

/-- A trap parks its slot alone where PARKALL is 0 and no debug step runs, whatever the slot's state is. -/
theorem Tile.trapSlots_eq_trapPark {x : Tile} (hp : bit x.trapctl 0 = false) (hs : x.dbgActive = false) (k : BitVec 2)
    (cause : BitVec 8) (epc eval : Word) : x.trapSlots k cause epc eval = x.onSlot k (·.trapPark cause epc eval) := by
  unfold Tile.trapSlots
  rw [hp, if_neg Bool.false_ne_true]
  dsimp only
  rw [Tile.onSlot, Tile.setSlot_dbgActive, hs, Bool.false_and, if_neg Bool.false_ne_true]

/-- A slot whose joining instruction is undone and traps (R149, R222). -/
def Slot.unjoined (x : Slot) (c : MCmd) : Slot :=
  { x with state := .parked, cause := 0x09, epc := c.epc, eval := BitVec.ofNat 64 c.iw.toNat,
           ctx := { x.ctx with pc := x.ctx.ipc, wait := .none, noEnd := x.ctx.before.noEnd,
                               loop0 := x.ctx.before.loop0, loop1 := x.ctx.before.loop1,
                               loopH0 := x.ctx.before.loopH0, loopH1 := x.ctx.before.loopH1 } }

theorem Slot.trapPark_unissued {x : Slot} (h : x.state = .waiting) (c : MCmd) :
    Slot.trapPark { x with ctx := { x.ctx.unissued with wait := .none } } Cause.matrixCombo.code c.epc (zext c.iw)
      = x.unjoined c := by
  rw [zext_eq_ofNat]
  unfold Slot.trapPark Slot.park
  dsimp only
  rw [h]
  rfl

theorem Tile.slot_onSlot_same (x : Tile) (k : BitVec 2) (f : Slot → Slot) : (x.onSlot k f).slot k = f (x.slot k) :=
  Tile.slot_setSlot_same ..

theorem Tile.onSlot_onSlot (x : Tile) (k : BitVec 2) (f g : Slot → Slot) :
    (x.onSlot k f).onSlot k g = x.onSlot k fun y => g (f y) := by
  rw [Tile.onSlot, Tile.slot_onSlot_same, Tile.onSlot, Tile.setSlot_setSlot, Tile.onSlot]

theorem State.onSlot_setTile (x : Tile) (k : BitVec 2) (f : Slot → Slot) :
    (s.setTile u x).onSlot u k f = s.setTile u (x.onSlot k f) := by
  rw [State.onSlot_eq, State.setTile_setTile, State.tile_setTile_same]
  rfl

/-- A trap of a WAITING slot, where PARKALL is 0 and no debug step runs. -/
theorem State.slotTrap_waiting {x : Tile} {k : BitVec 2} (h : (x.slot k).state = .waiting) (hp : bit x.trapctl 0 = false)
    (hs : x.dbgActive = false) (r : TrapRec) : (s.setTile u x).slotTrap u k r
      = (s.setTile u (x.onSlot k (·.trapPark r.cause r.epc r.eval))).sendRecord (tileNode u) r := by
  unfold State.slotTrap State.onTile
  rw [State.slot, State.tile_setTile_same, if_neg (by rw [h]; decide), State.setTile_setTile]
  dsimp only
  rw [Tile.trapSlots_eq_trapPark hp hs]

/-- A tile without arrivals. -/
def Tile.noArrival (x : Tile) : Tile := { x with mat := { x.mat with arrivals := [] } }

/-- The trap of a waiting member of a join, of which only it has arrived (R222). -/
theorem State.joinTrap_waiting (harr : (s.tile u).mat.arrivals = [c]) (hz : (s.tile u).mat.zeros = [])
    (hact : (s.slot u c.slot).act = c.act) (hstate : (s.slot u c.slot).state = .waiting)
    (hp : bit (s.tile u).trapctl 0 = false) (hs : (s.tile u).dbgActive = false) :
    s.joinTrap u c = (s.setTile u ((s.tile u).noArrival.onSlot c.slot (·.unjoined c))).sendRecord (tileNode u)
      (slotRecord u c.slot Cause.matrixCombo.code c.epc (zext c.iw) true) := by
  have hset : (s.onMat u fun m => { m with arrivals := m.arrivals.filter fun y => y.id != c.id })
      = s.setTile u (s.tile u).noArrival := by
    rw [State.onMat_eq, harr, filter_id_ne_self]
    rfl
  have hslot : (s.setTile u (s.tile u).noArrival).slot u c.slot = s.slot u c.slot := by
    rw [State.slot, State.tile_setTile_same]
    rfl
  have hpark : (s.tile u).noArrival.onSlot c.slot (fun x =>
      Slot.trapPark { x with ctx := { x.ctx.unissued with wait := .none } } Cause.matrixCombo.code c.epc (zext c.iw))
      = (s.tile u).noArrival.onSlot c.slot (·.unjoined c) :=
    congrArg ((s.tile u).noArrival.setSlot c.slot) (Slot.trapPark_unissued hstate c)
  unfold State.joinTrap
  dsimp only
  rw [hset, State.settleZeros_none (by rw [State.tile_setTile_same]; exact hz), hslot, hact, bne_self_eq_false,
    if_neg Bool.false_ne_true, State.onSlot_setTile,
    State.slotTrap_waiting, Tile.onSlot_onSlot, ← hpark]
  · rfl
  · rw [Tile.slot_onSlot_same]
    exact hstate
  · exact hp
  · exact hs

/-- A tile whose only arrival an abort has met (R222). -/
def Tile.aborted (x : Tile) (c : MCmd) : Tile :=
  Tile.onSlot { x with mat := { x.mat with
      arrivals := [], aborts := (x.mat.aborts.filter fun a => a.place ≠ 0).map fun a => { a with place := a.place - 1 } } }
    c.slot (·.unjoined c)

theorem exec_gangAbort_waiting (harr : (s.tile u).mat.arrivals = [c]) (habort : (s.tile u).mat.abortAt 0 = true)
    (hz : (s.tile u).mat.zeros = []) (hact : (s.slot u c.slot).act = c.act) (hstate : (s.slot u c.slot).state = .waiting)
    (hp : bit (s.tile u).trapctl 0 = false) (hs : (s.tile u).dbgActive = false) :
    exec (.gangAbort u) s = .next ((s.setTile u ((s.tile u).aborted c)).sendRecord (tileNode u)
      (slotRecord u c.slot Cause.matrixCombo.code c.epc (zext c.iw) true)) := by
  have htile : (s.onMat u fun m => m.takeAbort 0).tile u = { s.tile u with mat := (s.tile u).mat.takeAbort 0 } :=
    State.tile_setTile_same ..
  have hslot : (s.onMat u fun m => m.takeAbort 0).slot u c.slot = s.slot u c.slot := by
    rw [State.slot, htile]
    rfl
  have haborted : Tile.noArrival { s.tile u with mat := (s.tile u).mat.takeAbort 0 } = { s.tile u with mat :=
      { (s.tile u).mat with arrivals := [], aborts := ((s.tile u).mat.takeAbort 0).aborts } } := rfl
  rw [exec_gangAbort, execGangAbort, harr, findSome?_abort habort]
  dsimp only
  rw [State.joinTrap_waiting (by rw [htile]; exact harr) (by rw [htile]; exact hz) (hslot ▸ hact) (hslot ▸ hstate)
    (by rw [htile]; exact hp) (by rw [htile]; exact hs), htile, haborted, Matrix.aborts_takeAbort, State.onMat_eq,
    State.setTile_setTile]
  rfl

end

end Sys2Proof.Machine
end

section
/-! The start of the array on a gang of one (R219, R220, R227, R230). -/

namespace Sys2Proof.Machine

theorem exec_matrixArrayStart (u : TileName) (s : State) : exec (.matrixArrayStart u) s = execMatrixArrayStart u s := rfl
theorem exec_mscaStageStart (u : TileName) (s : State) : exec (.mscaStageStart u) s = execMscaStageStart u s := rfl

theorem upFrom_eq_range' : ∀ n a : Nat, upFrom a n = List.range' a n
  | 0, _ => rfl
  | n + 1, a => by rw [upFrom, List.range'_succ, upFrom_eq_range' n (a + 1)]

theorem upFrom_zero (n : Nat) : upFrom 0 n = List.range n := by rw [upFrom_eq_range', List.range_eq_range']

section
variable {s : State} {u : TileName} {op : MOp}

/-! ## A module without errors in its words (R139) -/

theorem State.eccBad_nil (h : s.ecc = []) (key n : Nat) : s.eccBad key n = false := by rw [State.eccBad, h, List.any_nil]

theorem State.eccFixed_nil (h : s.ecc = []) (key n : Nat) : s.eccFixed key n = false := by
  rw [State.eccFixed, h, List.any_nil]

/-- A row of an operand: 64 bytes of block scratch, or 4 for FP4, or a row of an accumulator (R216, R217, R219). -/
def State.operandRow (s : State) (u : TileName) (d : Desc) (i : Nat) : Row :=
  if d.block then BitVec.ofNat 512 (ofBytes (s.mem.readN (blockKey u.ret u.blk (d.rowAddr i)) (fmtRow d.fmt)))
  else (s.tile u).row (16 * d.acc.toNat + i)

theorem State.operandRows_clean (h : s.ecc = []) (d : Desc) :
    s.operandRows u d = ((List.range 16).map (s.operandRow u d), none, false) := by
  have hrow : (fun i => if d.block then BitVec.ofNat 512 (ofBytes (s.mem.readN
        (if d.block then blockKey u.ret u.blk (d.rowAddr i) else rowKey u (16 * d.acc.toNat + i))
        (if d.block then fmtRow d.fmt else 64)))
      else (s.tile u).rows.get 0 (16 * d.acc.toNat + i)) = s.operandRow u d := by
    funext i
    unfold State.operandRow
    split <;> rfl
  unfold State.operandRows
  simp only [hrow, upFrom_zero, State.eccBad_nil h, State.eccFixed_nil h]
  simp

theorem State.oldErrors_clean (h : s.ecc = []) (c : MCmd) : s.oldErrors u c = (none, false) := by
  unfold State.oldErrors
  split
  · rw [State.operandRows_clean h]
  · rfl

/-! ## The start -/

theorem Matrix.holdsArray_none {m : Matrix} (hw : m.scWaiting = none) (hr : m.scRunning = none) (hz : m.zeros = []) (c : MCmd) :
    m.holdsArray c = false := by
  rw [Matrix.holdsArray, hw, hr, hz]
  rfl

/-- An operation that has read the operand rows of a gang of one. -/
def State.withOperands (s : State) (u : TileName) (op : MOp) : MOp :=
  { op with aRows := (List.range 16).map (s.operandRow u op.descLead),
            bRows := (List.range 16).map (s.operandRow u op.cmd.descB), eccBad := false }

theorem exec_matrixArrayStart_alone (hwait : (s.tile u).mat.waiting = some op) (hmem : op.members = [u]) (hlead : op.leader = u)
    (hbad : op.eccBad = false) (hrun : (s.tile u).mat.running = none) (hsw : (s.tile u).mat.scWaiting = none)
    (hsr : (s.tile u).mat.scRunning = none) (hz : (s.tile u).mat.zeros = []) (hbefore : s.accessBefore u op.cmd = false)
    (hecc : s.ecc = []) :
    exec (.matrixArrayStart u) s
      = .next (s.onMat u fun m => { m with waiting := none, running := some (s.withOperands u op) }) := by
  have hops : (op.members.filterMap fun v => (s.tile v).mat.waiting.map fun o => (v, o)) = [(u, op)] := by
    rw [hmem, List.filterMap_cons, hwait]
    rfl
  have hheld := Matrix.holdsArray_none hsw hsr hz op.cmd
  rw [exec_matrixArrayStart, execMatrixArrayStart, hwait]
  dsimp only
  rw [hops, hmem, hlead]
  simp [hrun, hheld, hbefore, State.operandRows_clean hecc, State.oldErrors_clean hecc, hbad, State.withOperands]

theorem exec_mscaStageStart_alone {c : MCmd} (hw : (s.tile u).mat.scWaiting = some c) (hr : (s.tile u).mat.scRunning = none)
    (hopen : (s.tile u).mat.open = [c]) (hvq : (s.tile u).vq = []) :
    exec (.mscaStageStart u) s = .next (s.onMat u fun m => { m with scWaiting := none, scRunning := some c }) := by
  have hholds : (s.tile u).holdsScale c = false := by
    rw [Tile.holdsScale, hopen, hvq, List.any_cons, decide_eq_false (lt_irrefl c.id)]
    rfl
  rw [exec_mscaStageStart, execMscaStageStart, hw]
  dsimp only
  rw [hr, hholds]
  rfl

end

end Sys2Proof.Machine
end

section
/-! Rows and partial results that the array and the scale stage write (R219, R225, R226, R229). -/

namespace Sys2Proof

/-- A run of keys written in ascending order. -/
theorem Sparse.get_foldl_put {α : Type} (d : α) (base : Nat) (f : Nat → α) (j : Nat) : ∀ (n a : Nat) (m : Sparse α),
    ((Machine.upFrom a n).foldl (fun p i => p.put (base + i) (f i)) m).get d j
      = if base + a ≤ j ∧ j < base + a + n then f (j - base) else m.get d j
  | 0, a, m => by rw [if_neg (by omega)]; rfl
  | n + 1, a, m => by
    rw [Machine.upFrom, List.foldl_cons, Sparse.get_foldl_put d base f j n (a + 1), Sparse.get_put]
    by_cases hj : j = base + a
    · rw [if_neg (by omega), if_pos hj, if_pos (by omega), hj, Nat.add_sub_cancel_left]
    · rw [if_neg hj]
      exact if_congr (by omega) rfl rfl

/-- A map whose `n` keys from `base` on are written. -/
@[irreducible] def Sparse.fill {α : Type} (m : Sparse α) (base n : Nat) (f : Nat → α) : Sparse α :=
  (Machine.upFrom 0 n).foldl (fun p i => p.put (base + i) (f i)) m

theorem Sparse.get_fill {α : Type} (d : α) (m : Sparse α) (base n : Nat) (f : Nat → α) (j : Nat) :
    (m.fill base n f).get d j = if base ≤ j ∧ j < base + n then f (j - base) else m.get d j := by
  rw [Sparse.fill, Sparse.get_foldl_put d base f j]
  rfl

end Sys2Proof

namespace Sys2Proof.Machine

theorem exec_matrixArrayComplete (u : TileName) (s : State) :
    exec (.matrixArrayComplete u) s = execMatrixArrayComplete u s := rfl
theorem exec_mscaStageComplete (u : TileName) (s : State) : exec (.mscaStageComplete u) s = execMscaStageComplete u s := rfl

theorem sticky_lt (nan ovf corr unc : Bool) : sticky nan ovf corr unc < 16 := by
  revert nan ovf corr unc
  decide

/-! ## Rows of an accumulator -/

/-- The rows of an accumulator whose lane j of row i is given. -/
@[irreducible] def accLanes (acc : Acc) (value : Nat → Nat → Nat) : List (Nat × Row) :=
  (upFrom 0 16).map fun i => (16 * acc.toNat + i, rowOf 32 ((upFrom 0 16).map (value i)))

theorem get_rowsAfter_accLanes (rows : Sparse Row) (acc : Acc) (value : Nat → Nat → Nat) (n : Nat) :
    (rowsAfter rows (accLanes acc value)).get 0 n
      = if n / 16 = acc.toNat then rowOf 32 ((upFrom 0 16).map (value (n - 16 * acc.toNat))) else rows.get 0 n := by
  rw [rowsAfter, accLanes, List.foldl_map,
    Sparse.get_foldl_put 0 (16 * acc.toNat) (fun i => rowOf 32 ((upFrom 0 16).map (value i))) n]
  exact if_congr (by omega) rfl rfl

theorem lane_rowOf_upFrom (f : Nat → Nat) {j : Nat} (hj : j < 16) : lane 32 (rowOf 32 ((upFrom 0 16).map f)) j = f j % 2 ^ 32 := by
  rw [lane_rowOf_32 (by rw [List.length_map]; rfl) hj, List.getD_eq_getElem?_getD, List.getElem?_map, getElem?_upFrom hj,
    Nat.zero_add]
  rfl

/-- The rows of an accumulator whose elements come with a mark. -/
def accElements (acc : Acc) (f : Nat → Nat → Nat × Bool) : List ((Nat × Row) × Bool) :=
  (upFrom 0 16).map fun i =>
    ((16 * acc.toNat + i, rowOf 32 (((upFrom 0 16).map (f i)).map (·.1))), ((upFrom 0 16).map (f i)).any (·.2))

theorem map_fst_accElements (acc : Acc) (f : Nat → Nat → Nat × Bool) :
    (accElements acc f).map (·.1) = accLanes acc fun i j => (f i j).1 := by
  rw [accElements, accLanes]
  generalize upFrom 0 16 = l
  rw [List.map_map]
  exact List.map_congr_left fun i _ => by rw [Function.comp_apply, List.map_map]; rfl

/-- `t` is `s` after rows of an accumulator of tile `u` have been written, whose lanes are given, and the matrix slice has
become `m`. -/
structure AccWritten (u : TileName) (acc : Acc) (value : Nat → Nat → Nat) (m : Matrix) (s t : State) : Prop where
  lanes : ∀ i < 16, ∀ j < 16, lane 32 ((t.tile u).row (16 * acc.toNat + i)) j = value i j % 2 ^ 32
  others : ∀ n, n / 16 ≠ acc.toNat → (t.tile u).row n = (s.tile u).row n
  mat : (t.tile u).mat = m
  tile : OneTile u { s.tile u with rows := (t.tile u).rows, mat := (t.tile u).mat } s t
  rest : SameBut [.tiles, .ecc] s t

/-- Rows are written, and the matrix slice changes. -/
theorem State.writeRows_onMat (s : State) (u : TileName) (l : List (Nat × Row)) (f : Matrix → Matrix) :
    OneTile u { s.tile u with rows := rowsAfter (s.tile u).rows l, mat := f (s.tile u).mat } s ((s.writeRows u l).onMat u f)
      ∧ SameBut [.tiles, .ecc] s ((s.writeRows u l).onMat u f) := by
  obtain ⟨⟨htile, hothers⟩, hrest⟩ := s.writeRows_frame u l
  have hset : SameBut [.tiles, .ecc] (s.writeRows u l) ((s.writeRows u l).onMat u f) := rfl
  refine ⟨?_, hrest.trans hset⟩
  rw [State.onMat_eq, htile]
  exact State.oneTile_setTile _ hothers

theorem State.accWritten_writeRows (s : State) (u : TileName) (acc : Acc) (value : Nat → Nat → Nat) (f : Matrix → Matrix) :
    AccWritten u acc value (f (s.tile u).mat) s ((s.writeRows u (accLanes acc value)).onMat u f) := by
  obtain ⟨⟨htile, hothers⟩, hrest⟩ := s.writeRows_onMat u (accLanes acc value) f
  have hget := get_rowsAfter_accLanes (s.tile u).rows acc value
  generalize rowsAfter (s.tile u).rows (accLanes acc value) = rows at htile hget
  have hrow (n : Nat) : (((s.writeRows u (accLanes acc value)).onMat u f).tile u).row n = rows.get 0 n := by
    rw [htile]
    rfl
  refine ⟨fun i hi j hj => ?_, fun n hn => ?_, by rw [htile], ⟨by rw [htile], hothers⟩, hrest⟩
  · rw [hrow, hget, if_pos (by omega), Nat.add_sub_cancel_left, lane_rowOf_upFrom _ hj]
  · rw [hrow, hget, if_neg hn]
    rfl

/-! ## The end of an operation -/

/-- A matrix slice whose running operation has completed (R229). -/
def Matrix.completed (m : Matrix) (iw : Word) (bits : Nat) : Matrix :=
  { m with running := none, status := statusAfter m.status iw bits }

section
variable {s : State} {u : TileName} {op : MOp}

theorem exec_matrixArrayComplete_acc (hrun : (s.tile u).mat.running = some op) (hbad : op.eccBad = false)
    (hcorr : op.eccCorr = false) (hfp4 : op.cmd.fp4 = false) (hz : (s.tile u).mat.zeros = []) {l : List (Nat × Row)}
    {ovf : Bool} (hres : op.accResult (s.tile u).row = (l, ovf)) :
    exec (.matrixArrayComplete u) s = .next ((s.writeRows u l).onMat u
      (·.completed op.cmd.iw (sticky op.nanIn ovf false false))) := by
  have hres' : (op.accResult fun i => (s.tile u).rows.get 0 i) = (l, ovf) := hres
  have hw := (s.writeRows_onMat u l (·.completed op.cmd.iw (sticky op.nanIn ovf false false))).1.1
  rw [exec_matrixArrayComplete, execMatrixArrayComplete, hrun]
  dsimp only
  rw [hbad, if_neg Bool.false_ne_true, hfp4, if_neg Bool.false_ne_true, hcorr, hres']
  exact congrArg _ (State.settleZeros_none ((congrArg (·.mat.zeros) hw).trans hz))

/-- The partial results of an FP4 operation, by index in their buffer (R225). -/
def MOp.fp4Partial (op : MOp) (n : Nat) : BitVec 16 := BitVec.ofInt 16 (op.fp4Element (n / 16) (n % 16))

/-- A matrix slice whose partial buffer `pb` holds the results of an FP4 operation. -/
def Matrix.fp4Stored (m : Matrix) (op : MOp) : Matrix :=
  { m with partials := m.partials.fill (256 * num op.cmd.pb) 256 op.fp4Partial }

/-- A matrix slice whose running scale command has completed (R229). -/
def Matrix.scaleCompleted (m : Matrix) (iw : Word) (bits : Nat) : Matrix :=
  { m with scRunning := none, status := statusAfter m.status iw bits }

/-- A tile whose FP4 operation has completed. -/
def Tile.fp4Completed (x : Tile) (op : MOp) : Tile :=
  { x with mat := (x.mat.fp4Stored op).completed op.cmd.iw 0 }

/-- The matrix slice changes, errors are cleared, and the slice changes again. -/
theorem State.onMat_eccClear_onMat (s : State) (u : TileName) (f g : Matrix → Matrix) (key n : Nat) :
    OneTile u { s.tile u with mat := g (f (s.tile u).mat) } s (((s.onMat u f).eccClear key n).onMat u g)
      ∧ SameBut [.tiles, .ecc] s (((s.onMat u f).eccClear key n).onMat u g) := by
  have htile : ((s.onMat u f).eccClear key n).tile u = { s.tile u with mat := f (s.tile u).mat } :=
    s.tile_setTile_same u _
  refine ⟨?_, rfl⟩
  rw [State.onMat_eq _ u g, htile]
  exact State.oneTile_setTile _ fun v hv => s.tile_setTile_other _ hv

theorem matrixArrayComplete_fp4 (hrun : (s.tile u).mat.running = some op) (hbad : op.eccBad = false)
    (hcorr : op.eccCorr = false) (hfp4 : op.cmd.fp4 = true) (hz : (s.tile u).mat.zeros = []) :
    Completes (.matrixArrayComplete u) s fun t =>
      OneTile u ((s.tile u).fp4Completed op) s t ∧ SameBut [.tiles, .ecc] s t := by
  have hset := s.onMat_eccClear_onMat u (·.fp4Stored op) (·.completed op.cmd.iw 0) (scratchKey u (partialOff op.cmd.pb)) 0x200
  refine .settled ?_ ((congrArg (·.mat.zeros) hset.1.1).trans hz) hset
  rw [exec_matrixArrayComplete, execMatrixArrayComplete, hrun]
  simp only [Matrix.fp4Stored, Sparse.fill]
  generalize upFrom 0 256 = l
  rw [hbad, if_neg Bool.false_ne_true, hfp4, if_pos rfl, hcorr]
  rfl

/-! ## The scale stage (R226) -/

/-- The accumulator lanes that `MSCA` writes (R226). -/
def State.scaled (s : State) (u : TileName) (acc : Acc) (pb : Bool) (vsa vsb : VReg) (i j : Nat) : Nat :=
  (scaleElement (lane 32 ((s.tile u).row (16 * acc.toNat + i)) j) ((s.tile u).mat.partialAt (256 * num pb + 16 * i + j))
    (lane 32 ((s.tile u).row vsa.toNat) i) (lane 32 ((s.tile u).row vsb.toNat) j)).1

theorem exec_mscaStageComplete_clean {c : MCmd} {acc : Acc} {pb : Bool} {vsa vsb : VReg}
    (hrun : (s.tile u).mat.scRunning = some c) (hi : c.instr = .msca acc pb vsa vsb) (hecc : s.ecc = [])
    (hz : (s.tile u).mat.zeros = []) : ∃ nan ovf, exec (.mscaStageComplete u) s = .next
      ((s.writeRows u (accLanes acc (s.scaled u acc pb vsa vsb))).onMat u (·.scaleCompleted c.iw (sticky nan ovf false false))) := by
  have hfind (l : List (Nat × Nat)) : l.find? (fun o => s.eccBad (scratchKey u o.1) o.2) = none :=
    List.find?_eq_none.2 fun o _ => by rw [State.eccBad_nil hecc]; exact Bool.false_ne_true
  have hfix (l : List (Nat × Nat)) : (l.any fun o => s.eccFixed (scratchKey u o.1) o.2) = false :=
    List.any_eq_false.2 fun o _ => by rw [State.eccFixed_nil hecc]; exact Bool.false_ne_true
  have hout : accLanes acc (s.scaled u acc pb vsa vsb) = _ := (map_fst_accElements acc fun i j =>
    scaleElement (lane 32 ((s.tile u).row (16 * acc.toNat + i)) j) ((s.tile u).mat.partialAt (256 * num pb + 16 * i + j))
      (lane 32 ((s.tile u).row vsa.toNat) i) (lane 32 ((s.tile u).row vsb.toNat) j)).symm
  rw [exec_mscaStageComplete, execMscaStageComplete, hrun]
  dsimp only
  rw [hi]
  dsimp only
  rw [hfind, hfix]
  dsimp only
  rw [hout]
  exact ⟨_, _, congrArg _ (State.settleZeros_none ((congrArg (·.mat.zeros) (s.writeRows_onMat u _ _).1.1).trans hz))⟩

end

end Sys2Proof.Machine
end

section
/-! The values that the array and the scale stage write (R59, R62, R218, R219, R224 to R226). -/

namespace Sys2Proof.Machine

theorem foldl_add_int (f : Nat → Int) (l : List Nat) : l.foldl (fun z n => z + f n) 0 = (l.map f).sum := by
  rw [List.sum_eq_foldl, List.foldl_map]

/-! ## Element formats -/

theorem width_of_fmtOf {fmt : BitVec 3} {f : Fmt} (h : fmtOf fmt.toNat = some f) : Ty.width fmt = f.width := by
  have hall : ∀ t : BitVec 3, ∀ g ∈ fmtOf t.toNat, Ty.width t = g.width := by decide
  exact hall fmt f h

theorem elementFP_of_fmtOf {fmt : BitVec 3} {f : Fmt} (h : fmtOf fmt.toNat = some f) (r : Row) (k : Nat) :
    elementFP fmt r k = f.value (lane f.width r k) := by
  rw [elementFP, h, element, width_of_fmtOf h]

/-- An integer element is not NaN (R229). -/
theorem isNan_elementFP_i8 (r : Row) (k : Nat) : (elementFP 7 r k).isNan = false := rfl

theorem formatsOk_dense_fp4 : ∀ a b : BitVec 3, formatsOk false a b = true → b = 5 → a = 5 := by decide

theorem formatsOk_sparse_fp4 : ∀ a b : BitVec 3, formatsOk true a b = true → a ≠ 5 := by decide

theorem denseK_of_ne_fp4 {fmt : BitVec 3} (h : fmt ≠ 5) : denseK fmt = if fmt = 1 ∨ fmt = 2 then 16 else 32 := by
  rw [denseK, if_neg h]
  exact if_congr (by simp) rfl rfl

section
variable {op : MOp}

theorem MOp.nanIn_i8 (ha : op.descLead.fmt = 7) (hb : op.cmd.descB.fmt = 7) : op.nanIn = false := by
  have hrow (k : Nat) (rows : List Row) : (rows.any fun r => (upFrom 0 k).any fun i => (elementFP 7 r i).isNan) = false :=
    List.any_eq_false.2 fun r _ => by
      rw [List.any_eq_false.2 fun i _ => by rw [isNan_elementFP_i8]; exact Bool.false_ne_true]
      exact Bool.false_ne_true
  rw [MOp.nanIn, ha, hb, hrow, hrow, Bool.or_false]

/-! ## Integer results (R62) -/

theorem MOp.intElement_eq (i j : Nat) : op.intElement i j = ((List.range 32).map fun n =>
    signed 8 (lane 8 (op.aRows.getD i 0) n) * signed 8 (lane 8 (op.bRows.getD j 0) n)).sum := by
  rw [MOp.intElement, upFrom_zero]
  exact foldl_add_int _ _

theorem wrap_mod (z : Int) : ((wrap 32 z % 2 ^ 32 : Nat) : Int) = z % 2 ^ 32 := by
  rw [wrap]
  omega

/-! ## Floating-point results (R219, R224) -/

theorem MOp.fpElement_eq (i j acc : Nat) : (op.fpElement i j acc).1 = gangElement op.groups (op.groupTerms i j) acc := by
  rw [MOp.fpElement, upFrom_zero, gangElement]
  exact List.foldl_map ..

theorem MOp.groupTerms_dense {fa fb : Fmt} (hs : op.cmd.sparse = false) (ha : fmtOf op.descLead.fmt.toNat = some fa)
    (hb : fmtOf op.cmd.descB.fmt.toNat = some fb) (i j : Nat) :
    op.groupTerms i j = denseTerms fa fb (op.aRows.getD i 0) (op.bRows.getD j 0) := by
  funext g
  rw [MOp.groupTerms, hs, if_neg Bool.false_ne_true, denseTerms, upFrom_eq_range', List.range'_eq_map_range, List.map_map]
  exact List.map_congr_left fun k _ => by
    rw [Function.comp_apply, elementFP_of_fmtOf ha, elementFP_of_fmtOf hb]

/-- The two positions of a group's metadata (R224). -/
theorem field_positions (w : Word) (g n : Nat) (hn : n < 2) :
    field w (4 * g) 4 / 4 ^ n % 4 = w.toNat / 2 ^ (4 * g + 2 * n) % 4 := by
  rw [field, pow_add, ← Nat.div_div_eq_div_mul]
  interval_cases n <;> omega

theorem MOp.groupTerms_sparse {fa fb : Fmt} (hs : op.cmd.sparse = true) (ha : fmtOf op.descLead.fmt.toNat = some fa)
    (hb : fmtOf op.cmd.descB.fmt.toNat = some fb) (i j : Nat) : op.groupTerms i j
      = sparseTerms fa fb (op.aRows.getD i 0) (op.bRows.getD j 0) (op.metaRows.getD i 0) := by
  funext g
  have hfst := field_positions (op.metaRows.getD i 0) g 0 (by decide)
  have hsnd := field_positions (op.metaRows.getD i 0) g 1 (by decide)
  have hlast : field (op.metaRows.getD i 0) (4 * g) 4 / 4 < 4 := by
    rw [field]
    omega
  rw [pow_zero, Nat.div_one] at hfst
  rw [pow_one, Nat.mod_eq_of_lt hlast] at hsnd
  rw [MOp.groupTerms, hs, if_pos rfl, sparseTerms]
  dsimp only
  rw [hfst, hsnd, elementFP_of_fmtOf ha, elementFP_of_fmtOf ha, elementFP_of_fmtOf hb, elementFP_of_fmtOf hb]
  rfl

/-! ## FP4 results (R59, R225) -/

theorem halves_eq : ∀ code < 16, halves code = e2m1Halves code := by decide

theorem e2m1Halves_bounds : ∀ code < 16, -12 ≤ e2m1Halves code ∧ e2m1Halves code ≤ 12 := by decide

theorem lane_four_lt (r : Row) (k : Nat) : lane 4 r k < 16 := Nat.mod_lt _ (by decide)

/-- The product of two elements, in units of 0.25. -/
def MOp.fp4Product (op : MOp) (i j k : Nat) : Int :=
  e2m1Halves (lane 4 (op.aRows.getD i 0) k) * e2m1Halves (lane 4 (op.bRows.getD j 0) k)

theorem MOp.fp4Element_eq (i j : Nat) : op.fp4Element i j = ((List.range 8).map (op.fp4Product i j)).sum := by
  have hprod (k : Nat) : halves (element 5 (op.aRows.getD i 0) k) * halves (element 5 (op.bRows.getD j 0) k)
      = op.fp4Product i j k := by
    rw [MOp.fp4Product, ← halves_eq _ (lane_four_lt ..), ← halves_eq _ (lane_four_lt ..)]
    rfl
  rw [MOp.fp4Element, upFrom_zero]
  simp only [hprod]
  exact foldl_add_int _ _

theorem MOp.fp4Product_bounds (i j k : Nat) : -144 ≤ op.fp4Product i j k ∧ op.fp4Product i j k ≤ 144 := by
  obtain ⟨ha, ha'⟩ := e2m1Halves_bounds _ (lane_four_lt (op.aRows.getD i 0) k)
  obtain ⟨hb, hb'⟩ := e2m1Halves_bounds _ (lane_four_lt (op.bRows.getD j 0) k)
  rw [MOp.fp4Product]
  constructor <;> nlinarith

/-- The sum of eight products fits in an entry of 16 bits. -/
theorem MOp.toInt_fp4Element (i j : Nat) : (BitVec.ofInt 16 (op.fp4Element i j)).toInt = op.fp4Element i j := by
  have hlow := List.card_nsmul_le_sum ((List.range 8).map (op.fp4Product i j)) (-144) fun z hz => by
    obtain ⟨k, -, rfl⟩ := List.mem_map.1 hz
    exact (op.fp4Product_bounds i j k).1
  have hhigh := List.sum_le_card_nsmul ((List.range 8).map (op.fp4Product i j)) 144 fun z hz => by
    obtain ⟨k, -, rfl⟩ := List.mem_map.1 hz
    exact (op.fp4Product_bounds i j k).2
  rw [← MOp.fp4Element_eq, List.length_map, List.length_range, nsmul_eq_mul] at hlow hhigh
  rw [BitVec.toInt_ofInt]
  exact Int.bmod_eq_of_le (by norm_num at *; omega) (by norm_num at *; omega)

end

end Sys2Proof.Machine
end

section
/-! The work of a gang of one tile (R219 to R222, R224 to R227). -/

namespace Sys2Proof.Machine

section
variable {s : State} {u : TileName} {op : MOp}

/-! ## The join and the abort -/

theorem gangJoinCompletion_alone {c : MCmd} (hgang : s.gangSet u = [u]) (harr : (s.tile u).mat.arrivals = [c])
    (hwait : (s.tile u).mat.waiting = none) (haborts : (s.tile u).mat.aborts = []) (hpos : (s.tile u).mat.pos = 0)
    (hvq : (s.tile u).vq = []) (hsparse : c.sparse = false) (hact : (s.slot u c.slot).act = c.act)
    (hslot : (s.slot u c.slot).ctx.wait = .gang) (hstate : (s.slot u c.slot).state = .waiting) :
    Completes (.gangJoinCompletion u) s fun t =>
      OneTile u (((s.tile u).joined u c).onSlot c.slot fun y => { y with state := .ready, ctx := { y.ctx with wait := .none } }) s t
        ∧ SameBut [.tiles, .progress] s t := by
  refine .intro (exec_gangJoinCompletion_alone hgang harr hwait haborts hpos hvq hsparse hact hslot) ?_
  obtain ⟨⟨-, hothers⟩, hset⟩ := s.setTile_frame u ((s.tile u).joined u c)
  obtain ⟨⟨htile, hothers'⟩, hrest⟩ := (s.setTile u ((s.tile u).joined u c)).endsWait_frame u c.slot
  have hjoined : (((s.tile u).joined u c).slot c.slot).state = .waiting := hstate
  rw [State.tile_setTile_same, Tile.onSlot_woken hjoined] at htile
  exact ⟨⟨htile, fun v hv => (hothers' v hv).trans (hothers v hv)⟩, hrest⟩

theorem gangAbort_waiting {c : MCmd} (harr : (s.tile u).mat.arrivals = [c]) (habort : (s.tile u).mat.abortAt 0 = true)
    (hz : (s.tile u).mat.zeros = []) (hact : (s.slot u c.slot).act = c.act) (hstate : (s.slot u c.slot).state = .waiting)
    (hp : bit (s.tile u).trapctl 0 = false) (hs : (s.tile u).dbgActive = false) :
    Completes (.gangAbort u) s fun t =>
      OneTile u ((s.tile u).aborted c) s t ∧ SameBut [.tiles, .packets, .routers, .serial] s t :=
  .intro (exec_gangAbort_waiting harr habort hz hact hstate hp hs)
    ⟨(s.setTile_frame u ((s.tile u).aborted c)).1, rfl⟩

/-! ## The array -/

/-- A result element of an accumulator operation, and whether it overflowed (R219). -/
def MOp.resultElement (op : MOp) (old : Nat → Row) (i j : Nat) : Nat × Bool :=
  if op.descLead.fmt = 7 then (wrap 32 ((lane 32 (old (16 * op.cmd.acc.toNat + i)) j : Int) + op.intElement i j), false)
  else op.fpElement i j (lane 32 (old (16 * op.cmd.acc.toNat + i)) j)

theorem MOp.accResult_eq (old : Nat → Row) : op.accResult old
    = (accLanes op.cmd.acc fun i j => (op.resultElement old i j).1,
        (accElements op.cmd.acc (op.resultElement old)).any (·.2)) := by
  rw [← map_fst_accElements]
  rfl

theorem any_snd_accElements {acc : Acc} {f : Nat → Nat → Nat × Bool} (h : ∀ i j, (f i j).2 = false) :
    (accElements acc f).any (·.2) = false := by
  rw [accElements]
  generalize upFrom 0 16 = l
  simp [h]

theorem matrixArrayComplete_acc (hrun : (s.tile u).mat.running = some op) (hbad : op.eccBad = false)
    (hcorr : op.eccCorr = false) (hfp4 : op.cmd.fp4 = false) (hz : (s.tile u).mat.zeros = []) :
    Completes (.matrixArrayComplete u) s (AccWritten u op.cmd.acc (fun i j => (op.resultElement (s.tile u).row i j).1)
      ((s.tile u).mat.completed op.cmd.iw
        (sticky op.nanIn ((accElements op.cmd.acc (op.resultElement (s.tile u).row)).any (·.2)) false false)) s) :=
  .intro (exec_matrixArrayComplete_acc hrun hbad hcorr hfp4 hz (MOp.accResult_eq _))
    (s.accWritten_writeRows u op.cmd.acc _ (·.completed op.cmd.iw _))

theorem field_status_completed (m : Matrix) (iw : Word) {bits : Nat} (h : bits < 16) :
    field (m.completed iw bits).status 16 16 = (field m.status 16 16 + 1) % 2 ^ 16 :=
  (field_statusAfter m.status iw h).1

/-- The exact I8 sums modulo 2^32 (R62, R219). -/
theorem matrixArrayComplete_i8 (hrun : (s.tile u).mat.running = some op) (hbad : op.eccBad = false)
    (hcorr : op.eccCorr = false) (hfp4 : op.cmd.fp4 = false) (ha : op.descLead.fmt = 7) (hb : op.cmd.descB.fmt = 7)
    (hz : (s.tile u).mat.zeros = []) :
    Completes (.matrixArrayComplete u) s (AccWritten u op.cmd.acc
      (fun i j => wrap 32 ((lane 32 ((s.tile u).row (16 * op.cmd.acc.toNat + i)) j : Int) + op.intElement i j))
      ((s.tile u).mat.completed op.cmd.iw 0) s) := by
  have hres (i j : Nat) : op.resultElement (s.tile u).row i j
      = (wrap 32 ((lane 32 ((s.tile u).row (16 * op.cmd.acc.toNat + i)) j : Int) + op.intElement i j), false) := if_pos ha
  have hacc := matrixArrayComplete_acc hrun hbad hcorr hfp4 hz
  rw [MOp.nanIn_i8 ha hb, any_snd_accElements fun i j => by rw [hres]] at hacc
  simp only [hres] at hacc
  exact hacc

/-- The sums that R219 and R224 round group by group. -/
theorem matrixArrayComplete_fp {acc : Acc} {n : Nat} {terms : Nat → Nat → Nat → List FP}
    (hrun : (s.tile u).mat.running = some op) (hbad : op.eccBad = false) (hcorr : op.eccCorr = false)
    (hfp4 : op.cmd.fp4 = false) (hz : (s.tile u).mat.zeros = []) (hfmt : op.descLead.fmt ≠ 7) (hacc : op.cmd.acc = acc)
    (hgroups : op.groups = n) (hterms : ∀ i j, op.groupTerms i j = terms i j) :
    Completes (.matrixArrayComplete u) s fun t =>
      (∀ i < 16, ∀ j < 16, lane 32 ((t.tile u).row (16 * acc.toNat + i)) j
          = gangElement n (terms i j) (lane 32 ((s.tile u).row (16 * acc.toNat + i)) j) % 2 ^ 32)
        ∧ (∀ n, n / 16 ≠ acc.toNat → (t.tile u).row n = (s.tile u).row n)
        ∧ field (t.tile u).mat.status 16 16 = (field (s.tile u).mat.status 16 16 + 1) % 2 ^ 16
        ∧ (t.tile u).mat = { (s.tile u).mat with running := none, status := (t.tile u).mat.status }
        ∧ OneTile u { s.tile u with rows := (t.tile u).rows, mat := (t.tile u).mat } s t ∧ SameBut [.tiles, .ecc] s t := by
  obtain ⟨t, hexec, h⟩ := matrixArrayComplete_acc hrun hbad hcorr hfp4 hz
  subst hacc hgroups
  refine .intro hexec ⟨fun i hi j hj => ?_, h.others, ?_, ?_, h.tile, h.rest⟩
  · rw [h.lanes i hi j hj, MOp.resultElement, if_neg hfmt, MOp.fpElement_eq, hterms]
  · rw [h.mat, field_status_completed _ _ (sticky_lt ..)]
  · rw [h.mat]
    rfl

theorem partialBase (pb : Bool) : 256 * num pb = if pb then 256 else 0 := (Nat.mul_comm ..).trans (num_mul pb 256)

theorem Tile.partialAt_fp4Completed (x : Tile) (op : MOp) (n : Nat) : (x.fp4Completed op).mat.partialAt n
    = if 256 * num op.cmd.pb ≤ n ∧ n < 256 * num op.cmd.pb + 256 then op.fp4Partial (n - 256 * num op.cmd.pb)
      else x.mat.partialAt n :=
  Sparse.get_fill ..

/-- An entry of the partial buffer that an FP4 operation writes. -/
theorem Tile.toInt_partialAt_fp4Completed (x : Tile) (op : MOp) {i j : Nat} (hi : i < 16) (hj : j < 16) :
    ((x.fp4Completed op).mat.partialAt (256 * num op.cmd.pb + 16 * i + j)).toInt
      = ((List.range 8).map (op.fp4Product i j)).sum := by
  have hsub : 256 * num op.cmd.pb + 16 * i + j - 256 * num op.cmd.pb = 16 * i + j := by omega
  have hrow : (16 * i + j) / 16 = i := by omega
  have hcol : (16 * i + j) % 16 = j := by omega
  rw [Tile.partialAt_fp4Completed, if_pos (by omega), hsub, MOp.fp4Partial, hrow, hcol, MOp.toInt_fp4Element, MOp.fp4Element_eq]

/-! ## The scale stage -/

theorem mscaStageComplete_clean {c : MCmd} {acc : Acc} {pb : Bool} {vsa vsb : VReg}
    (hrun : (s.tile u).mat.scRunning = some c) (hi : c.instr = .msca acc pb vsa vsb) (hecc : s.ecc = [])
    (hz : (s.tile u).mat.zeros = []) : ∃ nan ovf, Completes (.mscaStageComplete u) s
      (AccWritten u acc (s.scaled u acc pb vsa vsb) ((s.tile u).mat.scaleCompleted c.iw (sticky nan ovf false false)) s) := by
  obtain ⟨nan, ovf, hexec⟩ := exec_mscaStageComplete_clean hrun hi hecc hz
  exact ⟨nan, ovf, .intro hexec (s.accWritten_writeRows u acc _ (·.scaleCompleted c.iw _))⟩

end

/-- Settles O43: the join and the abort are those of an only arrival; the array and the scale stage start when nothing
holds them; what they write is `AccWritten` with the model's elements, which are the statement's sums. -/
theorem matrixWork : Obligations.MatrixWork := by
  unfold Obligations.MatrixWork
  intro s u c op
  dsimp only
  refine ⟨?_, ?_, ?_, ?_, ?_, ?_, ?_, ?_⟩
  · intro hgang harr hwait haborts hpos hvq hsparse hact hslot hstate
    exact gangJoinCompletion_alone hgang harr hwait haborts hpos hvq hsparse hact hslot hstate
  · intro harr habort hz hact hstate _ hp hs
    exact gangAbort_waiting harr habort hz hact hstate hp hs
  · intro hwait hmem hlead hbad hrun hsw hsr hz hbefore hecc
    exact .intro (exec_matrixArrayStart_alone hwait hmem hlead hbad hrun hsw hsr hz hbefore hecc) (s.setTile_frame u _)
  · intro acc pb hrun hbad hcorr hi hlead ha hb hz
    have hacc : op.cmd.acc = acc := by rw [MCmd.acc, hi]
    have hfp4 : op.cmd.fp4 = false := by rw [MCmd.fp4, ha]; simp
    obtain ⟨t, hexec, h⟩ := matrixArrayComplete_i8 hrun hbad hcorr hfp4 hlead hb hz
    rw [hacc] at h
    have hstatus := field_statusAfter (s.tile u).mat.status op.cmd.iw (sticky := 0) (by decide)
    refine .intro hexec ⟨fun i hi j hj => ?_, h.others, ?_, ?_, ?_, h.tile, h.rest⟩
    · rw [h.lanes i hi j hj, wrap_mod, MOp.intElement_eq]
    · rw [h.mat]
      exact hstatus.1
    · rw [h.mat]
      exact hstatus.2.trans (Nat.or_zero _)
    · rw [h.mat]
      rfl
  · intro fa fb acc hrun hbad hcorr hz hfa hfb
    have hfmt : op.descLead.fmt ≠ 7 := fun h => by rw [h] at hfa; cases hfa
    refine ⟨fun pb hi hok hne => ?_, fun a hi hok => ?_⟩
    · have hsparse : op.cmd.sparse = false := by rw [MCmd.sparse, hi]
      refine matrixArrayComplete_fp hrun hbad hcorr ?_ hz hfmt (by rw [MCmd.acc, hi]) ?_ (MOp.groupTerms_dense hsparse hfa hfb)
      · have hb : op.cmd.descB.fmt ≠ 5 := fun hb => hne (formatsOk_dense_fp4 _ _ hok hb)
        rw [MCmd.fp4, decide_eq_false hb, Bool.and_false]
      · rw [MOp.groups, hsparse, if_neg Bool.false_ne_true, denseK_of_ne_fp4 hne]
        split <;> rfl
    · have hsparse : op.cmd.sparse = true := by rw [MCmd.sparse, hi]
      refine matrixArrayComplete_fp hrun hbad hcorr ?_ hz hfmt (by rw [MCmd.acc, hi]) ?_ (MOp.groupTerms_sparse hsparse hfa hfb)
      · rw [MCmd.fp4, hsparse]
        rfl
      · rw [MOp.groups, hsparse, if_pos rfl, denseK_of_ne_fp4 (formatsOk_sparse_fp4 _ _ hok)]
        split <;> rfl
  · intro acc pb hrun hbad hcorr hi _ ha hb hz
    have hpb : op.cmd.pb = pb := by rw [MCmd.pb, hi]
    have hfp4 : op.cmd.fp4 = true := by rw [MCmd.fp4, MCmd.sparse, hi, ha, hb]; rfl
    obtain ⟨t, hexec, ⟨htile, hothers⟩, hrest⟩ := matrixArrayComplete_fp4 hrun hbad hcorr hfp4 hz
    refine .intro hexec ⟨fun i hi j hj => ?_, fun n hn => ?_, ?_, ?_, ?_, ⟨?_, hothers⟩, hrest⟩
    · rw [← partialBase, htile, ← hpb]
      exact Tile.toInt_partialAt_fp4Completed _ op hi hj
    · rw [← partialBase, ← hpb] at hn
      rw [htile, Tile.partialAt_fp4Completed, if_neg (by omega)]
    · rw [htile]
      rfl
    · rw [htile]
      exact field_status_completed _ _ (by decide)
    · rw [htile]
      rfl
    · rw [htile]
      rfl
  · intro hw hr hopen hvq
    exact .intro (exec_mscaStageStart_alone hw hr hopen hvq) (s.setTile_frame u _)
  · intro acc pb vsa vsb hrun hi hecc hz
    obtain ⟨nan, ovf, t, hexec, h⟩ := mscaStageComplete_clean hrun hi hecc hz
    refine .intro hexec ⟨fun i hi j hj => ?_, h.others, ?_, ?_, h.tile, h.rest⟩
    · rw [← partialBase]
      exact h.lanes i hi j hj
    · rw [h.mat]
      exact (field_statusAfter _ _ (sticky_lt ..)).1
    · rw [h.mat]
      rfl

end Sys2Proof.Machine
end

section
/-! Sparse maps that are written key by key, and numbers in consecutive bytes of memory (R10). -/

namespace Sys2Proof

theorem Sparse.get_del {α : Type} (d : α) (k j : Nat) (m : Sparse α) : (m.del k).get d j = if j = k then d else m.get d j := by
  simpa using Machine.get_foldl_del d j [k] m

/-- A map in which each key of a list is updated from its own value. -/
theorem Sparse.get_foldl_update {α : Type} {d : α} {step : Sparse α → Nat → Sparse α} {g : Nat → α → α}
    (hstep : ∀ m i j, (step m i).get d j = if j = i then g i (m.get d i) else m.get d j) :
    ∀ {l : List Nat}, l.Nodup → ∀ (m : Sparse α) (j : Nat),
      (l.foldl step m).get d j = if j ∈ l then g j (m.get d j) else m.get d j
  | [], _, m, j => by rw [if_neg List.not_mem_nil]; rfl
  | i :: l, hl, m, j => by
    obtain ⟨hi, hl⟩ := List.nodup_cons.1 hl
    rw [List.foldl_cons, Sparse.get_foldl_update hstep hl, hstep]
    by_cases hj : j = i
    · rw [hj, if_neg hi, if_pos rfl, if_pos List.mem_cons_self]
    · simp only [List.mem_cons, hj, false_or, if_false]

theorem Sparse.get_foldl_put_list {α : Type} (d : α) (v : Nat → α) {l : List Nat} (hl : l.Nodup) (m : Sparse α) (j : Nat) :
    (l.foldl (fun m i => m.put i (v i)) m).get d j = if j ∈ l then v j else m.get d j :=
  Sparse.get_foldl_update (g := fun i _ => v i) (fun m i j => Sparse.get_put d (v i) i j m) hl m j

end Sys2Proof

namespace Sys2Proof.Machine

theorem nodup_upFrom (a n : Nat) : (upFrom a n).Nodup := by
  rw [upFrom_eq_range']
  exact List.nodup_range'

theorem map_add_upFrom (a n : Nat) : (upFrom 0 n).map (a + ·) = upFrom a n := by
  rw [upFrom_eq_range', upFrom_eq_range', List.map_add_range']
  rfl

theorem indexed_eq_map (bs : List Byte) : indexed bs = (upFrom 0 bs.length).map fun i => (i, bs.getD i 0) := by
  rw [indexed, upFrom_zero]
  refine List.ext_getElem (by simp) fun i h _ => ?_
  have hi : i < bs.length := by simpa using h
  simp [hi]

theorem length_upFrom (a n : Nat) : (upFrom a n).length = n := by rw [upFrom_eq_range', List.length_range']

/-! ## Bytes of memory -/

/-- Some of the bytes of a range. -/
theorem Memory.drop_take_readN (m : Memory) (k : Nat) {N o n : Nat} (h : o + n ≤ N) :
    ((m.readN k N).drop o).take n = m.readN (k + o) n := by
  obtain ⟨r, rfl⟩ := Nat.exists_eq_add_of_le h
  have hsplit : m.readN k (o + n + r) = m.readN k o ++ (m.readN (k + o) n ++ m.readN (k + (o + n)) r) := by
    rw [Memory.readN_add, Memory.readN_add, List.append_assoc]
  rw [hsplit, List.drop_left' (Memory.length_readN m k o), List.take_left' (Memory.length_readN m (k + o) n)]

/-- Some of the bytes that have been written. -/
theorem Memory.readN_writeN_part {m : Memory} (hw : m.wf = true) (k : Nat) (bs : List Byte) {o n : Nat} (h : o + n ≤ bs.length) :
    (m.writeN k bs).readN (k + o) n = (bs.drop o).take n := by
  rw [← Memory.drop_take_readN _ k h, Memory.readN_writeN_same hw]

/-- The bytes of a number, in front of others. -/
theorem ofBytes_take_toBytes {n v : Nat} (hv : v < 256 ^ n) (rest : List Byte) :
    ofBytes ((toBytes n v ++ rest).take n) = v := by
  rw [List.take_left' (length_toBytes n v), ofBytes_toBytes, Nat.mod_eq_of_lt hv]

theorem length_chunks {f : Nat → List Byte} {w : Nat} (hf : ∀ i, (f i).length = w) :
    ∀ n a : Nat, ((upFrom a n).map f).flatten.length = w * n
  | 0, _ => rfl
  | n + 1, a => by
    rw [upFrom, List.map_cons, List.flatten_cons, List.length_append, hf, length_chunks hf n, Nat.mul_succ, Nat.add_comm]

/-- The chunks of a list from the one at a position on. -/
theorem drop_chunks {f : Nat → List Byte} {w : Nat} (hf : ∀ i, (f i).length = w) (rest : List Byte) :
    ∀ (n a c : Nat), c < n → ∃ tail, (((upFrom a n).map f).flatten ++ rest).drop (w * c) = f (a + c) ++ tail
  | n + 1, a, 0, _ => ⟨((upFrom (a + 1) n).map f).flatten ++ rest, by
      rw [upFrom, List.map_cons, List.flatten_cons, List.append_assoc]
      rfl⟩
  | n + 1, a, c + 1, h => by
    obtain ⟨tail, htail⟩ := drop_chunks hf rest n (a + 1) c (Nat.lt_of_succ_lt_succ h)
    refine ⟨tail, ?_⟩
    rw [upFrom, List.map_cons, List.flatten_cons, List.append_assoc, Nat.mul_succ, Nat.add_comm (w * c), ← List.drop_drop,
      List.drop_left' (hf a), htail, Nat.add_right_comm, Nat.add_assoc]

/-- A number of a table of numbers. -/
theorem ofBytes_table {v : Nat → Nat} {w : Nat} (hv : ∀ i, v i < 256 ^ w) (rest : List Byte) {n c : Nat} (hc : c < n) :
    ofBytes (((((upFrom 0 n).map fun i => toBytes w (v i)).flatten ++ rest).drop (w * c)).take w) = v c := by
  obtain ⟨tail, htail⟩ := drop_chunks (fun i => length_toBytes w (v i)) rest n 0 c hc
  rw [htail, Nat.zero_add, ofBytes_take_toBytes (hv c)]

/-! ## Words without errors (R139) -/

section
variable {s : State} {key n : Nat}

theorem State.eccWords_clean (h : s.eccBad key n = false) : s.eccWords key n = [] := by
  rw [State.eccWords, List.filter_eq_nil_iff.2 fun e he => List.any_eq_false.1 h e he, List.map_nil]

/-- A store into a range of words without errors writes every byte. -/
theorem State.storeBytes_range {bs : List (Nat × Byte)} (h : s.eccBad key n = false) (hbs : ∀ b ∈ bs, b.1 < n) :
    (s.storeBytes key bs).mem = s.mem.writeAt key bs := by
  refine State.storeBytes_clean (List.map_eq_nil_iff.2 (List.filter_eq_nil_iff.2 fun e he hbad => List.any_eq_false.1 h e he ?_))
  rw [Bool.and_eq_true, Bool.and_eq_true, List.any_eq_true] at hbad
  obtain ⟨⟨hset, b, hb, hword⟩, -⟩ := hbad
  have hlt := hbs b hb
  rw [decide_eq_true_eq] at hword
  rw [Bool.and_eq_true, Bool.and_eq_true, decide_eq_true_eq, decide_eq_true_eq]
  exact ⟨⟨hset, by omega⟩, by omega⟩

theorem State.cur_storeBytes (s : State) (key : Nat) (bs : List (Nat × Byte)) : (s.storeBytes key bs).cur = s.cur := rfl
theorem State.len_storeBytes (s : State) (key : Nat) (bs : List (Nat × Byte)) : (s.storeBytes key bs).len = s.len := rfl
theorem State.tile_storeBytes (s : State) (key : Nat) (bs : List (Nat × Byte)) (v : TileName) :
    (s.storeBytes key bs).tile v = s.tile v := rfl

theorem State.storeBytes_indexed {bs : List Byte} (h : s.eccBad key bs.length = false) :
    (s.storeBytes key (indexed bs)).mem = s.mem.writeN key bs :=
  State.storeBytes_range h fun _ hb => by
    have := mem_upFrom.mp (List.of_mem_zip hb).1
    omega

end

end Sys2Proof.Machine
end

section
/-! The fabric of a tile, read and changed by its slots: what each of its operations makes of the tile (R232 to R254). -/

namespace Sys2Proof.Machine

theorem exec_dpatch (cell : BitVec 9) (a d : Reg) (s : State) : exec (.dpatch cell a d) s = execDpatch cell a d s := rfl
theorem exec_dset (cell : BitVec 8) (a : Reg) (s : State) : exec (.dset cell a) s = execDset cell a s := rfl
theorem exec_dget (d : Reg) (cell : BitVec 8) (s : State) : exec (.dget d cell) s = execDget d cell s := rfl
theorem exec_dres (d : Reg) (cell : BitVec 8) (s : State) : exec (.dres d cell) s = execDres d cell s := rfl
theorem exec_dsave (a : Reg) (s : State) : exec (.dsave a) s = execDsave a s := rfl
theorem exec_dload (a : Reg) (s : State) : exec (.dload a) s = execDload a s := rfl
theorem exec_dclk (div : BitVec 4) (a : Reg) (s : State) : exec (.dclk div a) s = execDclk div a s := rfl
theorem exec_dstep (a : Reg) (s : State) : exec (.dstep a) s = execDstep a s := rfl
theorem exec_drun (s : State) : exec .drun s = execDrun s := rfl
theorem exec_dhalt (s : State) : exec .dhalt s = execDhalt s := rfl
theorem exec_dwait (s : State) : exec .dwait s = execDwait s := rfl
theorem exec_drdc (clr : Bool) (d : Reg) (cnt : BitVec 5) (s : State) : exec (.drdc clr d cnt) s = execDrdc clr d cnt s := rfl
theorem exec_dclrc (cnt : BitVec 5) (s : State) : exec (.dclrc cnt) s = execDclrc cnt s := rfl
theorem exec_dstat (d : Reg) (s : State) : exec (.dstat d) s = execDstat d s := rfl
theorem exec_dinj (a : Reg) (s : State) : exec (.dinj a) s = execDinj a s := rfl

/-! ## Cells, counts and the map block (R232, R234, R235, R246) -/

/-- A fabric without pending changes is what a reader sees. -/
theorem Fabric.view_settled {f : Fabric} (h : f.changes = []) : f.view = f := by
  rw [Fabric.view, h, List.foldl_nil, ← h]

theorem Fabric.settle_settled {f : Fabric} (h : f.changes = []) (at' : Nat) : f.settle at' = f := by
  rw [Fabric.settle, h, List.filter_nil, List.filter_nil, List.foldl_nil, ← h]

section
variable (f : Fabric)

theorem Fabric.cell_setCell (c : Nat) (x : Cell) (j : Nat) : (f.setCell c x).cell j = if j = c then x else f.cell j :=
  Sparse.get_put ..

theorem Fabric.count_clear (n j : Nat) : (f.apply (.clearCount n)).count j = if j = n then 0 else f.count j :=
  Sparse.get_put ..

theorem Fabric.count_sub_self (n j : Nat) : (f.apply (.subCount n (f.count n))).count j = if j = n then 0 else f.count j := by
  refine (Sparse.get_put ..).trans ?_
  rw [BitVec.sub_self]
  rfl

/-- The fabric once a run of cells has new patch words (R249). -/
def Fabric.patched (f : Fabric) (c n : Nat) (bs : List Byte) : Fabric :=
  ((upFrom 0 n).map fun i => FabChange.patch (c + i) ((bs.drop (32 * i)).take 32)).foldl Fabric.apply f

theorem Fabric.patched_rest : ∀ (l : List (Nat × List Byte)) (f : Fabric),
    (l.map fun p => FabChange.patch p.1 p.2).foldl Fabric.apply f
      = { f with cells := l.foldl (fun m p => m.put p.1 ((m.get f.base p.1).patch p.2)) f.cells }
  | [], _ => rfl
  | p :: l, f => Fabric.patched_rest l (f.apply (.patch p.1 p.2))

theorem Fabric.patched_eq (c n : Nat) (bs : List Byte) : f.patched c n bs = { f with
    cells := (upFrom c n).foldl (fun m j => m.put j ((m.get f.base j).patch ((bs.drop (32 * (j - c))).take 32))) f.cells } := by
  have hpairs := Fabric.patched_rest ((upFrom 0 n).map fun i => (c + i, (bs.drop (32 * i)).take 32)) f
  rw [List.map_map] at hpairs
  refine hpairs.trans ?_
  rw [← map_add_upFrom c n, List.foldl_map, List.foldl_map]
  simp only [Nat.add_sub_cancel_left]

theorem Fabric.patched_cells (c n : Nat) (bs : List Byte) : { f with cells := (f.patched c n bs).cells } = f.patched c n bs := by
  rw [Fabric.patched_eq]

theorem Fabric.cell_patched (c n : Nat) (bs : List Byte) (j : Nat) : (f.patched c n bs).cell j
    = if c ≤ j ∧ j < c + n then (f.cell j).patch ((bs.drop (32 * (j - c))).take 32) else f.cell j := by
  rw [Fabric.patched_eq]
  refine (Sparse.get_foldl_update (g := fun i x => x.patch ((bs.drop (32 * (i - c))).take 32))
    (fun m i k => Sparse.get_put ..) (nodup_upFrom c n) f.cells j).trans ?_
  simp only [mem_upFrom]
  rfl

theorem Fabric.apply_map (bs : List Byte) : f.apply (.map bs)
    = { f with map := (upFrom 0 bs.length).foldl (fun m i => m.put i (bs.getD i 0)) f.map } := by
  rw [Fabric.apply, indexed_eq_map, List.foldl_map]
  exact List.foldl_hom (fun m => { f with map := m }) (g₁ := fun m i => m.put i (bs.getD i 0))
    (g₂ := fun g i => { g with map := g.map.put i (bs.getD i 0) }) fun _ _ => rfl

theorem Fabric.apply_map_map (bs : List Byte) : { f with map := (f.apply (.map bs)).map } = f.apply (.map bs) := by
  rw [Fabric.apply_map]

theorem Fabric.mapByte_map {bs : List Byte} {i : Nat} (h : i < bs.length) : (f.apply (.map bs)).mapByte i = bs.getD i 0 := by
  rw [Fabric.apply_map]
  exact (Sparse.get_foldl_put_list _ _ (nodup_upFrom ..) _ _).trans (if_pos (mem_upFrom.2 ⟨Nat.zero_le i, by omega⟩))

end

/-! ## Changes at issue (R246) -/

/-- The module after slot `k` of a tile has changed the tile's fabric and is passed. -/
def State.fabricPassed (s : State) (u : TileName) (k : BitVec 2) (g : Fabric) : State :=
  s.setTile u (Tile.passed { s.tile u with fab := g } k s.len)

@[simp] theorem State.fab_fabricPassed (s : State) (u : TileName) (k : BitVec 2) (g : Fabric) :
    ((s.fabricPassed u k g).tile u).fab = g := by
  rw [State.fabricPassed, State.tile_setTile_same]
  rfl

theorem State.fabricPassed_frame (s : State) (u : TileName) (k : BitVec 2) (g : Fabric) :
    OneTile u (Tile.passed { s.tile u with fab := g } k s.len) s (s.fabricPassed u k g)
      ∧ SameBut [.tiles] s (s.fabricPassed u k g) :=
  s.setTile_frame u _

section
variable {s : State} {u : TileName} {k : BitVec 2}

theorem State.onFabric_eq (g : Fabric → Fabric) : s.onFabric u g = s.setTile u { s.tile u with fab := g (s.tile u).fab } := rfl

theorem State.onFabric_retire (hcur : s.cur = .slot u k) (g : Fabric → Fabric) :
    (s.onFabric u g).retire = s.fabricPassed u k (g (s.tile u).fab) := State.retire_setTile hcur _

/-- Changes of a fabric that is not RUNNING and has none pending apply at once. -/
theorem State.changeFabric_settled (hstate : (s.tile u).fab.state ≠ 2) (hsettled : (s.tile u).fab.changes = [])
    (cs : List FabChange) :
    s.changeFabric u cs = s.setTile u { s.tile u with fab := cs.foldl Fabric.apply (s.tile u).fab } := by
  rw [State.changeFabric, State.onFabric_eq, if_neg hstate, Fabric.view_settled hsettled]

theorem State.changeFabric_retire (hcur : s.cur = .slot u k) (hstate : (s.tile u).fab.state ≠ 2)
    (hsettled : (s.tile u).fab.changes = []) (cs : List FabChange) :
    (s.changeFabric u cs).retire = s.fabricPassed u k (cs.foldl Fabric.apply (s.tile u).fab) := by
  rw [State.changeFabric_settled hstate hsettled, State.retire_setTile hcur]
  rfl

/-! ## Operand ranges (R248) -/

/-- A range of own scratch that a fabric instruction names and may access at issue. -/
structure FabricRange (u : TileName) (k : BitVec 2) (a : Word) (align off n : Nat) (s : State) : Prop where
  cur : s.cur = .slot u k
  own : OwnAt u a off s
  divides : align ∣ 2 ^ 24
  aligned : off % align = 0
  some : n ≠ 0
  inside : off + n ≤ 0x28000
  free : OwnFree u off n s

variable {a : Word} {align off n : Nat}

theorem FabricRange.acts (h : FabricRange u k a align off n s) (act : TileName → Nat → State) :
    s.fabricRange a align n act = act u off := by
  have haligned : ¬(a.toNat % align != 0) = true := by
    rw [bne_iff_ne, not_not]
    exact (h.own.mod_eq h.divides).trans h.aligned
  rw [State.fabricRange, State.onTileOnly_slot h.cur, if_neg haligned, if_neg h.some, State.ownRange_own h.cur h.own h.inside]
  exact if_neg (by rw [h.free.not_busy]; exact Bool.false_ne_true)

theorem FabricRange.loads (h : FabricRange u k a align off n s) (act : List Byte → State) :
    s.fabricLoad a u off n act = act (s.mem.readN (scratchKey u off) n) := by
  rw [State.fabricLoad, State.eccWords_clean h.free.noEcc, h.cur, if_neg h.some]
  rfl

end

end Sys2Proof.Machine
end

section
/-! The save image of a fabric, written and restored (R237, R245, R251). -/

namespace Sys2Proof.Machine

/-- A value that is clamped to ±2^24 (R237). -/
theorem clampY_eq (z : Int) : clampY z = max (-2 ^ 24) (min (2 ^ 24) z) := rfl

theorem toInt_ofInt_clampY (z : Int) : (BitVec.ofInt 32 (clampY z)).toInt = max (-2 ^ 24) (min (2 ^ 24) z) := by
  rw [clampY_eq, BitVec.toInt_ofInt_eq_self (by decide)]
  all_goals omega

/-! ## What the image holds -/

section
variable {s : State} {u : TileName}

theorem length_packOut (f : Fabric) : (packOut f).length = 64 := by rw [packOut, List.length_map, length_upFrom]

/-- The image, as tables of numbers one behind another. -/
theorem State.fabricImage_settled (h : (s.tile u).fab.changes = []) : s.fabricImage u =
    ((upFrom 0 256).map fun c => toBytes 4 ((s.tile u).fab.cell c).y.toNat).flatten
      ++ (((upFrom 0 256).map fun c => toBytes 4 ((s.tile u).fab.cell c).res.toNat).flatten
      ++ (((upFrom 0 32).map fun k => toBytes 4 ((s.tile u).fab.count k).toNat).flatten
      ++ (packOut (s.tile u).fab ++ (bytesOf (s.tile u).fab.stat ++ (bytesOf (s.ddaCtl u) ++ toBytes 48 0))))) := by
  rw [State.fabricImage, Fabric.view_settled h]
  simp only [List.append_assoc]

/-- A number of the image. -/
def State.imageNumber (s : State) (u : TileName) (o n : Nat) : Nat := ofBytes (((s.fabricImage u).drop o).take n)

theorem length_table (v : Nat → Nat) (w n : Nat) : ((upFrom 0 n).map fun i => toBytes w (v i)).flatten.length = w * n :=
  length_chunks (fun i => length_toBytes w (v i)) n 0

theorem State.length_fabricImage (h : (s.tile u).fab.changes = []) : (s.fabricImage u).length = 2304 := by
  rw [State.fabricImage_settled h]
  simp only [List.length_append, length_table, length_packOut, length_bytesOf, length_toBytes]

/-- Behind a part of a known length. -/
theorem drop_part {l rest : List Byte} {n : Nat} (h : l.length = n) (o : Nat) : (l ++ rest).drop (n + o) = rest.drop o := by
  rw [← List.drop_drop, List.drop_left' h]

section
variable (h : (s.tile u).fab.changes = [])
include h

theorem State.imageNumber_y {c : Nat} (hc : c < 256) : s.imageNumber u (4 * c) 4 = ((s.tile u).fab.cell c).y.toNat := by
  rw [State.imageNumber, State.fabricImage_settled h]
  exact ofBytes_table (fun i => ((s.tile u).fab.cell i).y.isLt) _ hc

theorem State.imageNumber_res {c : Nat} (hc : c < 256) :
    s.imageNumber u (0x400 + 4 * c) 4 = ((s.tile u).fab.cell c).res.toNat := by
  rw [State.imageNumber, State.fabricImage_settled h, drop_part (length_table _ 4 256)]
  exact ofBytes_table (fun i => ((s.tile u).fab.cell i).res.isLt.trans (by decide)) _ hc

theorem State.imageNumber_count {n : Nat} (hn : n < 32) :
    s.imageNumber u (0x800 + 4 * n) 4 = ((s.tile u).fab.count n).toNat := by
  rw [State.imageNumber, State.fabricImage_settled h, show 0x800 + 4 * n = 0x400 + (0x400 + 4 * n) by omega,
    drop_part (length_table _ 4 256), drop_part (length_table _ 4 256)]
  exact ofBytes_table (fun i => ((s.tile u).fab.count i).isLt) _ hn

theorem State.imageNumber_stat : s.imageNumber u 0x8C0 8 = (s.tile u).fab.stat.toNat := by
  rw [State.imageNumber, State.fabricImage_settled h, show 0x8C0 = 0x400 + (0x400 + (0x80 + (0x40 + 0))) from rfl,
    drop_part (length_table _ 4 256), drop_part (length_table _ 4 256), drop_part (length_table _ 4 32),
    drop_part (length_packOut _), List.drop_zero]
  exact ofBytes_take_toBytes (s.tile u).fab.stat.isLt _

theorem State.imageNumber_ctl : s.imageNumber u 0x8C8 8 = (s.ddaCtl u).toNat := by
  rw [State.imageNumber, State.fabricImage_settled h, show 0x8C8 = 0x400 + (0x400 + (0x80 + (0x40 + (8 + 0)))) from rfl,
    drop_part (length_table _ 4 256), drop_part (length_table _ 4 256), drop_part (length_table _ 4 32),
    drop_part (length_packOut _), drop_part (length_bytesOf _), List.drop_zero]
  exact ofBytes_take_toBytes (s.ddaCtl u).isLt _

end

/-! ## `DSAVE` -/

/-- The module with the save image of a tile's fabric at an offset of its scratch. -/
def State.fabricSaved (s : State) (u : TileName) (off : Nat) : State :=
  s.storeBytes (scratchKey u off) (indexed (s.fabricImage u))

variable {off : Nat} (h : (s.tile u).fab.changes = []) (hecc : s.eccBad (scratchKey u off) 2304 = false)
include h hecc

theorem State.mem_fabricSaved : (s.fabricSaved u off).mem = s.mem.writeN (scratchKey u off) (s.fabricImage u) := by
  rw [State.fabricSaved, State.storeBytes_indexed]
  rw [State.length_fabricImage h]
  exact hecc

/-- What a reader of the saved image finds. -/
theorem State.number_fabricSaved (hw : MemCanonical s) {o n : Nat} (hin : o + n ≤ 2304) :
    ofBytes ((s.fabricSaved u off).mem.readN (scratchKey u off + o) n) = s.imageNumber u o n := by
  rw [State.mem_fabricSaved h hecc, Memory.readN_writeN_part hw _ _ (by rw [State.length_fabricImage h]; exact hin)]
  rfl

theorem State.fabricSaved_bytes : SameBytes (scratchKey u off) 2304 s (s.fabricSaved u off) := fun j hj => by
  rw [State.mem_fabricSaved h hecc]
  exact Memory.read_writeN_other _ _ _ _ (by rw [State.length_fabricImage h]; exact hj)

end

/-! ## `DLOAD` -/

section
variable {f : Fabric} (h : f.changes = []) (bs : List Byte)

/-- The number of n bytes at an offset of an image. -/
def numberAt (bs : List Byte) (o n : Nat) : Nat := ofBytes ((bs.drop o).take n)

theorem numberAt_readN (m : Memory) (key : Nat) {N o n : Nat} (hin : o + n ≤ N) :
    numberAt (m.readN key N) o n = ofBytes (m.readN (key + o) n) := by
  rw [numberAt, Memory.drop_take_readN m key hin]

/-- Cells and counts of which a list is restored. -/
def Fabric.restoredCells (f : Fabric) (bs : List Byte) (l : List Nat) : Sparse Cell :=
  l.foldl (fun m c => if (m.get f.base c).restore bs c = f.base then m.del c else m.put c ((m.get f.base c).restore bs c)) f.cells

def Fabric.restoredCounts (f : Fabric) (bs : List Byte) (l : List Nat) : Sparse (BitVec 32) :=
  l.foldl (fun m n => m.put n (BitVec.ofNat 32 (numberAt bs (0x800 + 4 * n) 4))) f.counts

theorem Fabric.get_restoredCells {l : List Nat} (hl : l.Nodup) (c : Nat) :
    (f.restoredCells bs l).get f.base c = if c ∈ l then (f.cell c).restore bs c else f.cell c := by
  refine Sparse.get_foldl_update (g := fun i x => x.restore bs i) (fun m i j => ?_) hl f.cells c
  split
  case isTrue hbase => rw [Sparse.get_del, hbase]
  case isFalse => rw [Sparse.get_put]

theorem Fabric.get_restoredCounts {l : List Nat} (hl : l.Nodup) (n : Nat) : (f.restoredCounts bs l).get 0 n
    = if n ∈ l then BitVec.ofNat 32 (numberAt bs (0x800 + 4 * n) 4) else f.count n :=
  Sparse.get_foldl_put_list 0 _ hl f.counts n

include h

theorem Fabric.tables_restore : (f.restore bs).cells = f.restoredCells bs (upFrom 0 256) ∧ (f.restore bs).blank = f.blank
    ∧ (f.restore bs).counts = f.restoredCounts bs (upFrom 0 32) := by
  rw [Fabric.restore, Fabric.view_settled h]
  generalize upFrom 0 256 = cells, upFrom 0 32 = counts
  exact ⟨rfl, rfl, rfl⟩

theorem Fabric.cell_restore {c : Nat} (hc : c < 256) : (f.restore bs).cell c = (f.cell c).restore bs c := by
  obtain ⟨hcells, hblank, -⟩ := Fabric.tables_restore h bs
  rw [Fabric.cell, hcells, Fabric.base, hblank, ← Fabric.base, Fabric.get_restoredCells bs (nodup_upFrom 0 256)]
  exact if_pos (mem_upFrom.2 ⟨Nat.zero_le c, by omega⟩)

theorem Fabric.count_restore {n : Nat} (hn : n < 32) : (f.restore bs).count n = BitVec.ofNat 32 (numberAt bs (0x800 + 4 * n) 4) := by
  obtain ⟨-, -, hcounts⟩ := Fabric.tables_restore h bs
  rw [Fabric.count, hcounts, Fabric.get_restoredCounts bs (nodup_upFrom 0 32)]
  exact if_pos (mem_upFrom.2 ⟨Nat.zero_le n, by omega⟩)

theorem Fabric.restore_keeps : (f.restore bs).state = f.state ∧ (f.restore bs).domain = f.domain ∧ (f.restore bs).steps = f.steps := by
  rw [Fabric.restore, Fabric.view_settled h]
  exact ⟨rfl, rfl, rfl⟩

end

end Sys2Proof.Machine
end

section
/-! Step domains of one tile, and the slots that wait for its fabric to halt (R155, R238, R241 to R244, R252). -/

namespace Sys2Proof.Machine

section
variable {s : State} {u : TileName} {k : BitVec 2}

/-! ## A domain of one tile (R241, R243) -/

theorem State.domainOf_own (h : (s.tile u).fab.domain = 0) : s.domainOf u = 2 ^ 20 + u := by
  rw [State.domainOf, domainKey, if_pos h]

theorem State.membersOf_own (h : (s.tile u).fab.domain = 0) : s.membersOf u = [u] := by
  rw [State.membersOf, if_pos h]

theorem State.budgetOf_one (u : TileName) : s.budgetOf [u] = (s.tile u).fab.budget.toNat := by
  rw [State.budgetOf, List.foldl_cons, List.foldl_nil]
  dsimp only
  split
  case isTrue hzero => exact hzero.symm
  case isFalse => rfl

/-- The start of a tile that has armed in a domain of its own is taken (R243). -/
theorem State.takeStart_armed (hdomain : (s.tile u).fab.domain = 0) (harmed : (s.tile u).fab.state = 1)
    (hrun : (s.domain (2 ^ 20 + u)).run = none) :
    s.takeStart u = s.withDomain (2 ^ 20 + u) { s.domain (2 ^ 20 + u) with
      run := some ([u], (s.tile u).fab.budget.toNat, (s.bulk u.ret).timer), halt := none, stop := false } := by
  have hready : ((s.domain (2 ^ 20 + u)).run.isNone && !([u] : List TileName).isEmpty
      && ([u] : List TileName).all fun m => (s.tile m).fab.state = 1) = true := by
    rw [hrun]
    simp [harmed]
  rw [State.takeStart, State.membersOf_own hdomain, State.domainOf_own hdomain]
  dsimp only
  rw [if_pos hready, State.budgetOf_one]
  rfl

/-- Nothing starts for a tile that has not armed. -/
theorem State.takeStart_unarmed (hdomain : (s.tile u).fab.domain = 0) (hidle : (s.tile u).fab.state ≠ 1) : s.takeStart u = s := by
  rw [State.takeStart, State.membersOf_own hdomain]
  refine if_neg fun h => hidle ?_
  simpa using (Bool.and_eq_true_iff.1 h).2

/-- The fabric of a tile that slot `k` has armed (R243, R252). -/
def State.armedFabric (s : State) (u : TileName) (k : BitVec 2) : Fabric :=
  { (s.tile u).fab with state := 1, was := 0, budget := (s.tile u).fab.steps,
                        armed := some { slot := k, act := (s.slot u k).act, epc := s.pc } }

/-- The domain of a tile alone whose start is taken. -/
def State.takenDomain (s : State) (u : TileName) : Domain :=
  { s.domain (2 ^ 20 + u) with run := some ([u], (s.tile u).fab.steps.toNat, (s.bulk u.ret).timer), halt := none, stop := false }

theorem State.armFabric_halted (hstate : (s.tile u).fab.state = 0) (hdomain : (s.tile u).fab.domain = 0)
    (hrun : (s.domain (2 ^ 20 + u)).run = none) :
    s.armFabric u (some { slot := k, act := (s.slot u k).act, epc := s.pc })
      = (s.withDomain (2 ^ 20 + u) (s.takenDomain u)).setTile u { s.tile u with fab := s.armedFabric u k } := by
  have hset : (s.onFabric u fun f =>
      { f with state := 1, armed := some { slot := k, act := (s.slot u k).act, epc := s.pc }, budget := f.steps, was := 0 })
        = s.setTile u { s.tile u with fab := s.armedFabric u k } := rfl
  rw [State.armFabric, if_pos hstate, hset, State.takeStart_armed, State.tile_setTile_same]
  · rfl
  · rw [State.tile_setTile_same]
    exact hdomain
  · rw [State.tile_setTile_same]
    rfl
  · exact hrun

theorem exec_drun_halted (hcur : s.cur = .slot u k) (hstate : (s.tile u).fab.state = 0) (hdomain : (s.tile u).fab.domain = 0)
    (hrun : (s.domain (2 ^ 20 + u)).run = none) :
    exec .drun s = .next ((s.withDomain (2 ^ 20 + u) (s.takenDomain u)).setTile u
      (Tile.passed { s.tile u with fab := s.armedFabric u k } k s.len)) := by
  rw [exec_drun, execDrun, State.onTileOnly_slot hcur, State.actNow_slot hcur, State.armFabric_halted hstate hdomain hrun,
    State.retire_setTile (s := s.withDomain _ _) hcur]
  rfl

theorem exec_dclk_halted (hcur : s.cur = .slot u k) (div : BitVec 4) (a : Reg) {d : BitVec 6} (hd : BitVec.ofNat 6 (s.rd a).toNat = d)
    (hstate : (s.tile u).fab.state = 0) (hold : (s.tile u).fab.domain = 0 ∨ (s.tile u).fab.domain = d)
    (hrun : (s.domain (domainKey u d)).run = none) :
    exec (.dclk div a) s = .next ((s.withDomain (domainKey u d)
      { s.domain (domainKey u d) with div := div, policy := bit (s.rd a) 8 }).setTile u
        (Tile.passed { s.tile u with fab := { (s.tile u).fab with domain := d } } k s.len)) := by
  rw [exec_dclk, execDclk]
  dsimp only
  rw [State.onTileOnly_slot hcur, if_neg (by rw [hstate]; decide), ofNat_field_zero _ le_rfl, hd, State.enrol_eq div d _ hold hrun,
    State.retire_setTile (s := s.withDomain _ _) hcur]
  rfl

@[simp] theorem State.tile_withDomain (r : State) (key : Nat) (x : Domain) (v : TileName) :
    (r.withDomain key x).tile v = r.tile v := rfl

theorem State.domain_withDomain (r : State) (key : Nat) (x : Domain) :
    (r.withDomain key x).domain key = x ∧ ∀ j, j ≠ key → (r.withDomain key x).domain j = r.domain j :=
  ⟨Sparse.get_put_same .., fun _ hj => Sparse.get_put_other _ _ hj _⟩

/-- A change of one domain and of one tile. -/
theorem State.withDomain_setTile_frame (key : Nat) (d : Domain) (x : Tile) :
    ((s.withDomain key d).setTile u x).domain key = d
      ∧ (∀ j, j ≠ key → ((s.withDomain key d).setTile u x).domain j = s.domain j)
      ∧ OneTile u x s ((s.withDomain key d).setTile u x) ∧ SameBut [.tiles, .domains] s ((s.withDomain key d).setTile u x) :=
  ⟨(s.domain_withDomain key d).1, (s.domain_withDomain key d).2, State.oneTile_setTile (r := s.withDomain key d) x fun _ _ => rfl, rfl⟩

/-! ## `DWAIT`s that complete (R155, R252) -/

/-- The end of a slot's wait for its fabric, if it waits so. -/
def State.dwaitEnds (s : State) (u : TileName) (k : BitVec 2) : State :=
  match (s.slot u k).ctx.wait with
  | .issued .dwait _ _ _ => s.endsWait (.slot u k)
  | _ => s

theorem State.dwaitDone_eq (s : State) (u : TileName) : s.dwaitDone u = allSlots.foldl (fun s k => s.dwaitEnds u k) s := rfl

theorem Tile.onSlot_self {x : Tile} {k : BitVec 2} {f : Slot → Slot} (h : f (x.slot k) = x.slot k) : x.onSlot k f = x := by
  have hset : x.slots.set k.toNat (x.slot k) k.isLt = x.slots := Vector.set_getElem_self _
  rw [Tile.onSlot, h, Tile.setSlot, hset]

theorem State.dwaitEnds_frame (s : State) (u : TileName) (k : BitVec 2) :
    OneTile u ((s.tile u).onSlot k Slot.dwaited) s (s.dwaitEnds u k) ∧ SameBut [.tiles, .progress] s (s.dwaitEnds u k) := by
  unfold State.dwaitEnds
  split
  case h_1 w r e hwait =>
    have hended : (s.tile u).onSlot k Slot.dwaited = (s.tile u).onSlot k Slot.woken := by
      have hslot : ((s.tile u).slot k).dwaited = ((s.tile u).slot k).woken := by
        unfold Slot.dwaited
        rw [show ((s.tile u).slot k).ctx.wait = _ from hwait]
        rfl
      rw [Tile.onSlot, Tile.onSlot, hslot]
    rw [hended]
    exact s.endsWait_frame u k
  case h_2 hwait =>
    have hslot : (s.slot u k).dwaited = s.slot u k := by
      unfold Slot.dwaited
      split
      case h_1 w r e h => exact absurd h (hwait w r e)
      case h_2 => rfl
    rw [Tile.onSlot_self hslot]
    exact ⟨⟨rfl, fun _ _ => rfl⟩, rfl⟩

/-- A slot that does not wait for its fabric is left as it is. -/
theorem State.dwaitEnds_none (h : (s.slot u k).dwaited = s.slot u k) : s.dwaitEnds u k = s := by
  unfold State.dwaitEnds
  split
  case h_1 w r e hwait =>
    have hnone : (s.slot u k).dwaited.ctx.wait = .none := by
      unfold Slot.dwaited
      rw [hwait]
    rw [h, hwait] at hnone
    cases hnone
  case h_2 => rfl

theorem State.dwaitDone_none (h : ∀ j, (s.slot u j).dwaited = s.slot u j) : s.dwaitDone u = s := by
  rw [State.dwaitDone_eq]
  exact foldl_of_fixed fun j _ => State.dwaitEnds_none (h j)

/-- A tile on which every slot of a list that waited for the fabric has gone on. -/
def Tile.dwaited (x : Tile) (l : List (BitVec 2)) : Tile := l.foldl (fun x k => x.onSlot k Slot.dwaited) x

theorem State.foldl_dwaitEnds_frame (u : TileName) : ∀ (l : List (BitVec 2)) (s : State),
    OneTile u ((s.tile u).dwaited l) s (l.foldl (fun s k => s.dwaitEnds u k) s)
      ∧ SameBut [.tiles, .progress] s (l.foldl (fun s k => s.dwaitEnds u k) s)
  | [], _ => ⟨⟨rfl, fun _ _ => rfl⟩, rfl⟩
  | k :: l, s => by
    obtain ⟨⟨hfirst, hothers⟩, hrest⟩ := s.dwaitEnds_frame u k
    obtain ⟨⟨htile, hothers'⟩, hrest'⟩ := State.foldl_dwaitEnds_frame u l (s.dwaitEnds u k)
    rw [hfirst] at htile
    exact ⟨⟨htile, fun v hv => (hothers' v hv).trans (hothers v hv)⟩, hrest.trans hrest'⟩

theorem Tile.dwaited_rest : ∀ (l : List (BitVec 2)) (x : Tile), x.dwaited l = { x with slots := (x.dwaited l).slots }
  | [], _ => rfl
  | k :: l, x => Tile.dwaited_rest l (x.onSlot k Slot.dwaited)

theorem Tile.slot_dwaited : ∀ (l : List (BitVec 2)), l.Nodup → ∀ (x : Tile) (j : BitVec 2),
    (x.dwaited l).slot j = if j ∈ l then (x.slot j).dwaited else x.slot j
  | [], _, _, _ => by rw [if_neg List.not_mem_nil]; rfl
  | k :: l, hl, x, j => by
    obtain ⟨hk, hl⟩ := List.nodup_cons.1 hl
    rw [Tile.dwaited, List.foldl_cons, ← Tile.dwaited, Tile.slot_dwaited l hl]
    by_cases hj : j = k
    · rw [hj, if_neg hk, if_pos List.mem_cons_self, Tile.slot_onSlot_same]
    · rw [Tile.onSlot, Tile.slot_setSlot_other _ _ hj]
      simp only [List.mem_cons, hj, false_or]

/-- A slot of a tile whose fabric has halted. -/
theorem Tile.slot_dwaited_all (x : Tile) (j : BitVec 2) : (x.dwaited allSlots).slot j = (x.slot j).dwaited := by
  rw [Tile.slot_dwaited allSlots (by decide), if_pos (by revert j; decide)]

/-- An ARMED tile whose start is not taken is HALTED at once (R252). -/
theorem exec_dhalt_armed (hcur : s.cur = .slot u k) (hstate : (s.tile u).fab.state = 1)
    (hrun : (s.domain (s.domainOf u)).run = none) (hwaits : ∀ j, (s.slot u j).dwaited = s.slot u j) :
    exec .dhalt s = .next (s.fabricPassed u k { (s.tile u).fab with state := 0, armed := none }) := by
  have hslots : ∀ j, ((s.onFabric u fun f => { f with state := 0, armed := none }).slot u j).dwaited
      = (s.onFabric u fun f => { f with state := 0, armed := none }).slot u j := by
    intro j
    rw [State.onFabric_eq, State.slot, State.tile_setTile_same]
    exact hwaits j
  rw [exec_dhalt, execDhalt, State.onTileOnly_slot hcur, State.haltFabric]
  dsimp only
  rw [hstate, if_neg (by decide), hrun, if_neg Bool.false_ne_true, State.dwaitDone_none hslots, State.onFabric_retire hcur]

theorem exec_dhalt_halted (hcur : s.cur = .slot u k) (hstate : (s.tile u).fab.state = 0) : exec .dhalt s = .next s.retire := by
  rw [exec_dhalt, execDhalt, State.onTileOnly_slot hcur, State.haltFabric, if_pos hstate]

theorem exec_dwait_halted (hcur : s.cur = .slot u k) (hstate : (s.tile u).fab.state = 0) : exec .dwait s = .next s.retire := by
  rw [exec_dwait, execDwait, State.onTileOnly_slot hcur, if_pos hstate]

theorem exec_dwait_waits (hcur : s.cur = .slot u k) (hstate : (s.tile u).fab.state ≠ 0) :
    exec .dwait s = .next (s.await .dwait) := by
  rw [exec_dwait, execDwait, State.onTileOnly_slot hcur, if_neg hstate]

end

end Sys2Proof.Machine
end

section
/-! The fabric instructions at issue: the obligation (R240, R246, R248 to R254). -/

namespace Sys2Proof.Machine

/-! ## Values (R245, R250, R254) -/

theorem outWord_eq (o : BitVec 2) :
    wrap 32 (outInt o) * 2 ^ 32 = (if o = 1 then 1 else if o = 3 then 2 ^ 32 - 1 else 0) * 2 ^ 32 := by
  revert o
  decide

theorem Fabric.stat_eq (f : Fabric) : f.stat = BitVec.ofNat 64 (f.state.toNat + (if f.sat then 4 else 0)
    + (if f.flt then 8 else 0) + (if f.xdom then 16 else 0) + (if f.badsrc then 32 else 0)
    + (if f.inj = [] then 0 else 64) + (if f.eccu then 128 else 0) + f.ovcell.toNat * 2 ^ 8 + f.stepn.toNat * 2 ^ 32) := by
  rw [Fabric.stat, num_mul, num_mul, num_mul, num_mul, num_not_isEmpty, num_mul]

section
variable {s : State} {u : TileName} {k : BitVec 2}

theorem exec_dget_settled (hcur : s.cur = .slot u k) (hsettled : (s.tile u).fab.changes = []) (d : Reg) (cell : BitVec 8) :
    exec (.dget d cell) s = .next (s.put d (BitVec.ofNat 64 (fpOfY ((s.tile u).fab.cell cell.toNat).y))) := by
  rw [exec_dget, execDget, State.onTileOnly_slot hcur, Fabric.view_settled hsettled]

theorem exec_dres_settled (hcur : s.cur = .slot u k) (hsettled : (s.tile u).fab.changes = []) (d : Reg) (cell : BitVec 8) :
    exec (.dres d cell) s = .next (s.put d (BitVec.ofNat 64 (((s.tile u).fab.cell cell.toNat).res.toNat
      + (if ((s.tile u).fab.cell cell.toNat).out = 1 then 1
         else if ((s.tile u).fab.cell cell.toNat).out = 3 then 2 ^ 32 - 1 else 0) * 2 ^ 32))) := by
  rw [exec_dres, execDres, State.onTileOnly_slot hcur, Fabric.view_settled hsettled]
  dsimp only
  rw [outWord_eq]

theorem exec_drdc_reads (hcur : s.cur = .slot u k) (hsettled : (s.tile u).fab.changes = []) (d : Reg) (cnt : BitVec 5) :
    exec (.drdc false d cnt) s = .next (s.put d (BitVec.ofInt 64 ((s.tile u).fab.count cnt.toNat).toInt)) := by
  rw [exec_drdc, execDrdc, State.onTileOnly_slot hcur, Fabric.view_settled hsettled]
  rfl

theorem exec_dstat_slot (hcur : s.cur = .slot u k) (d : Reg) : exec (.dstat d) s = .next (s.put d (s.tile u).fab.stat) := by
  rw [exec_dstat, execDstat, State.onTileOnly_slot hcur]

theorem exec_dstep_slot (hcur : s.cur = .slot u k) (a : Reg) : exec (.dstep a) s
    = .next (s.fabricPassed u k { (s.tile u).fab with steps := BitVec.ofNat 32 (s.rd a).toNat }) := by
  rw [exec_dstep, execDstep, State.onTileOnly_slot hcur, State.onFabric_retire hcur, ofNat_field_zero _ le_rfl]

/-! ## Operands in own scratch (R249, R251, R253) -/

section
variable {a d : Reg} {off : Nat}

theorem exec_dsave_halted (h : FabricRange u k (s.rd a) 64 off 2304 s) (hstate : (s.tile u).fab.state = 0)
    (hcode : s.codeLocked u off 2304 = false) (hbehind : Behind u off 2304 s) :
    exec (.dsave a) s = .next (s.fabricSaved u off).retire := by
  rw [exec_dsave, execDsave, h.acts, if_neg (by rw [hcode]; exact Bool.false_ne_true), if_neg (by rw [hstate]; decide),
    if_neg (by rw [hbehind.not_behind]; exact Bool.false_ne_true)]
  rfl

theorem exec_dload_halted (h : FabricRange u k (s.rd a) 64 off 2304 s) (hstate : (s.tile u).fab.state = 0) :
    exec (.dload a) s
      = .next (s.fabricPassed u k ((s.tile u).fab.restore (s.mem.readN (scratchKey u off) 2304))) := by
  rw [exec_dload, execDload, h.acts, if_neg (by rw [hstate]; decide), h.loads, State.onFabric_retire h.cur]

theorem exec_dinj_slot (h : FabricRange u k (s.rd a) 64 off 64 s) : exec (.dinj a) s
    = .next (s.fabricPassed u k { (s.tile u).fab with
        inj := s.injTaken u ++ [((s.bulk u.ret).timer, s.mem.readN (scratchKey u off) 64)] }) := by
  rw [exec_dinj, execDinj, h.acts, h.loads, State.onFabric_retire h.cur]
  rfl

end

/-! ## Changes of a fabric that is not RUNNING (R246) -/

section
variable (hcur : s.cur = .slot u k) (hstate : (s.tile u).fab.state ≠ 2) (hsettled : (s.tile u).fab.changes = [])
include hstate hsettled

theorem exec_dpatch_cells {cell : BitVec 9} {a d : Reg} {off n : Nat} (hcell : cell.toNat < 256)
    (hn : min (s.rd d).toNat (256 - cell.toNat) = n) (h : FabricRange u k (s.rd a) 32 off (32 * n) s) :
    exec (.dpatch cell a d) s
      = .next (s.fabricPassed u k ((s.tile u).fab.patched cell.toNat n (s.mem.readN (scratchKey u off) (32 * n)))) := by
  have hlow : bit cell 8 = false := by
    rw [bit_eq_testBit]
    exact Nat.testBit_lt_two_pow hcell
  rw [exec_dpatch, execDpatch]
  dsimp only
  rw [hlow, if_neg Bool.false_ne_true, hn, h.acts, h.loads, State.changeFabric_retire h.cur hstate hsettled]
  rfl

theorem exec_dpatch_map {cell : BitVec 9} {a d : Reg} {off : Nat} (hcell : 256 ≤ cell.toNat)
    (h : FabricRange u k (s.rd a) 32 off 64 s) :
    exec (.dpatch cell a d) s
      = .next (s.fabricPassed u k ((s.tile u).fab.apply (.map (s.mem.readN (scratchKey u off) 64)))) := by
  have hhigh : bit cell 8 = true := by
    rw [bit_eq_testBit, Nat.testBit_eq_decide_div_mod_eq, decide_eq_true_eq]
    have := cell.isLt
    omega
  rw [exec_dpatch, execDpatch]
  dsimp only
  rw [hhigh, if_pos rfl, h.acts, h.loads, State.changeFabric_retire h.cur hstate hsettled, List.foldl_cons, List.foldl_nil]

include hcur

theorem exec_dset_settled (cell : BitVec 8) (a : Reg) : exec (.dset cell a) s
    = .next (s.fabricPassed u k ((s.tile u).fab.apply (.setY cell.toNat (yOfFP (s.rd a).toNat)))) := by
  rw [exec_dset, execDset, State.onTileOnly_slot hcur, State.changeFabric_retire hcur hstate hsettled,
    List.foldl_cons, List.foldl_nil]

theorem exec_dclrc_settled (cnt : BitVec 5) : exec (.dclrc cnt) s
    = .next (s.fabricPassed u k ((s.tile u).fab.apply (.clearCount cnt.toNat))) := by
  rw [exec_dclrc, execDclrc, State.onTileOnly_slot hcur, State.changeFabric_retire hcur hstate hsettled,
    List.foldl_cons, List.foldl_nil]

theorem exec_drdc_clears (d : Reg) (cnt : BitVec 5) : exec (.drdc true d cnt) s
    = .next (s.setTile u (Tile.passedWith { s.tile u with
        fab := (s.tile u).fab.apply (.subCount cnt.toNat ((s.tile u).fab.count cnt.toNat)) } k s.len d
          (BitVec.ofInt 64 ((s.tile u).fab.count cnt.toNat).toInt))) := by
  rw [exec_drdc, execDrdc, State.onTileOnly_slot hcur, Fabric.view_settled hsettled]
  dsimp only
  rw [if_pos rfl, State.changeFabric_settled hstate hsettled, State.put_setTile hcur]
  rfl

end

end

/-- Settles O44: what each fabric instruction reads, loads, stores and changes where the domain is not RUNNING. -/
theorem fabricIssue : Obligations.FabricIssue := by
  unfold Obligations.FabricIssue
  intro s u k hcur hrunning hsettled
  dsimp only
  refine ⟨?patch, ?map, ?set, ?get, ?save, ?load, ?clk, ?step, ?run, ?halt, ?halted, ?wait, ?rdc, ?clrc, ?stat, ?inj⟩
  case patch =>
    intro cell a d off hown halign hcell hn ⟨hin, hfree⟩
    refine .intro (exec_dpatch_cells hrunning hsettled hcell rfl
      ⟨hcur, hown, ⟨2 ^ 19, rfl⟩, halign, by omega, hin, hfree⟩) ⟨fun c => ?_, ?_⟩
    · rw [State.fab_fabricPassed, Fabric.cell_patched]
      refine ite_congr rfl (fun hc => ?_) fun _ => rfl
      rw [Memory.drop_take_readN _ _ (by omega), scratchKey, scratchKey, Nat.add_assoc]
    · rw [State.fab_fabricPassed, Fabric.patched_cells]
      exact s.fabricPassed_frame u k _
  case map =>
    intro cell a d off hown halign hcell ⟨hin, hfree⟩
    refine .intro (exec_dpatch_map hrunning hsettled hcell
      ⟨hcur, hown, ⟨2 ^ 19, rfl⟩, halign, by decide, hin, hfree⟩) ⟨fun i hi => ?_, ?_⟩
    · rw [State.fab_fabricPassed, Fabric.mapByte_map _ (by rw [Memory.length_readN]; exact hi), Memory.getD_readN _ _ _ _ hi]
    · rw [State.fab_fabricPassed, Fabric.apply_map_map]
      exact s.fabricPassed_frame u k _
  case set =>
    intro cell a
    refine .intro (exec_dset_settled hcur hrunning hsettled cell a) ⟨?_, fun c hc => ?_, ?_⟩
    · rw [State.fab_fabricPassed]
      exact (Fabric.cell_setCell ..).trans (if_pos rfl)
    · rw [State.fab_fabricPassed]
      exact (Fabric.cell_setCell ..).trans (if_neg hc)
    · rw [State.fab_fabricPassed]
      exact s.fabricPassed_frame u k _
  case get =>
    exact fun d cell => ⟨.intro (exec_dget_settled hcur hsettled d cell) (s.put_writes d _),
      .intro (exec_dres_settled hcur hsettled d cell) (s.put_writes d _)⟩
  case save =>
    intro a off hown halign ⟨hin, hfree⟩ hstate hcode hbehind hmem
    refine .intro (exec_dsave_halted ⟨hcur, hown, ⟨2 ^ 18, rfl⟩, halign, by decide, hin, hfree⟩ hstate hcode hbehind) ?_
    have hread {o n : Nat} (ho : o + n ≤ 2304) := State.number_fabricSaved hsettled hfree.noEcc hmem ho
    rw [State.mem_retire]
    refine ⟨fun c hc => ⟨?_, ?_⟩, fun n hn => ?_, ?_, ?_, fun j hj => ?_, ?_⟩
    · rw [hread (by omega), State.imageNumber_y hsettled hc]
    · rw [hread (by omega), State.imageNumber_res hsettled hc]
    · rw [hread (by omega), State.imageNumber_count hsettled hn]
    · rw [hread (by omega), State.imageNumber_stat hsettled]
    · rw [hread (by omega), State.imageNumber_ctl hsettled]
    · rw [State.mem_retire]
      exact State.fabricSaved_bytes hsettled hfree.noEcc j hj
    · have htile := s.tile_storeBytes (scratchKey u off) (indexed (s.fabricImage u))
      obtain ⟨hone, hpassed⟩ := OneTile.retire ⟨htile u, fun v _ => htile v⟩ hcur (s.cur_storeBytes ..) (s.len_storeBytes ..)
      exact ⟨hone, (s.storeBytes_rest ..).trans hpassed.cons.cons⟩
  case load =>
    intro a off hown halign ⟨hin, hfree⟩ hstate
    refine .intro (exec_dload_halted ⟨hcur, hown, ⟨2 ^ 18, rfl⟩, halign, by decide, hin, hfree⟩ hstate) ?_
    obtain ⟨hst, hdom, hsteps⟩ := Fabric.restore_keeps hsettled (s.mem.readN (scratchKey u off) 2304)
    have hword {o : Nat} (ho : o + 4 ≤ 2304) := numberAt_readN s.mem (scratchKey u off) ho
    rw [State.fab_fabricPassed]
    refine ⟨fun c hc => ?_, fun n hn => ?_, hst.trans hstate, hdom, hsteps, s.fabricPassed_frame u k _⟩
    · rw [Fabric.cell_restore hsettled _ hc]
      refine ⟨?_, ?_, rfl, rfl⟩
      · rw [← hword (by omega)]
        exact toInt_ofInt_clampY _
      · rw [← hword (by omega)]
        exact BitVec.toNat_ofNat ..
    · rw [Fabric.count_restore hsettled _ hn, hword (by omega)]
      exact toNat_ofNat_of_lt (ofBytes_lt (by rw [Memory.length_readN]))
  case clk =>
    intro div a hstate hold hrun
    exact .intro (exec_dclk_halted hcur div a rfl hstate hold hrun) (State.withDomain_setTile_frame ..)
  case step => exact fun a => .intro (exec_dstep_slot hcur a) (s.fabricPassed_frame u k _)
  case run =>
    exact fun hstate hdomain hrun => .intro (exec_drun_halted hcur hstate hdomain hrun) (State.withDomain_setTile_frame ..)
  case halt =>
    exact fun hstate hrun hwaits => .intro (exec_dhalt_armed hcur hstate hrun hwaits) (s.fabricPassed_frame u k _)
  case halted =>
    exact fun hstate => ⟨.intro (exec_dhalt_halted hcur hstate) s.retire_passes,
      .intro (exec_dwait_halted hcur hstate) s.retire_passes⟩
  case wait => exact fun hstate => .intro (exec_dwait_waits hcur hstate) (State.await_frame hcur .dwait)
  case rdc =>
    refine fun d cnt => ⟨.intro (exec_drdc_reads hcur hsettled d cnt) (s.put_writes d _),
      .intro (exec_drdc_clears hcur hrunning hsettled d cnt) ⟨fun n => ?_, ?_⟩⟩
    · rw [State.tile_setTile_same]
      exact Fabric.count_sub_self ..
    · rw [State.tile_setTile_same]
      exact s.setTile_frame u _
  case clrc =>
    refine fun cnt => .intro (exec_dclrc_settled hcur hrunning hsettled cnt) ⟨fun n => ?_, ?_⟩
    · rw [State.fab_fabricPassed]
      exact Fabric.count_clear ..
    · rw [State.fab_fabricPassed]
      exact s.fabricPassed_frame u k _
  case stat =>
    intro d
    refine .intro (exec_dstat_slot hcur d) ?_
    rw [← Fabric.stat_eq]
    exact s.put_writes d _
  case inj =>
    intro a off hown halign ⟨hin, hfree⟩
    exact .intro (exec_dinj_slot ⟨hcur, hown, ⟨2 ^ 18, rfl⟩, halign, by decide, hin, hfree⟩) (s.fabricPassed_frame u k _)

end Sys2Proof.Machine
end

section
/-! One step of the cells of a fabric (R233, R236, R237, R253). -/

namespace Sys2Proof.Machine

/-! ## Patterns that a `DINJ` has given (R253) -/

theorem patternCode_nil (c : Nat) : patternCode [] c = 0 := by
  rw [patternCode, List.getD_nil]
  exact congrArg (BitVec.ofNat 2) (by rw [field, show (0 : Byte).toNat = 0 from rfl, Nat.zero_div, Nat.zero_mod])

theorem patternCode_eq (bs : List Byte) (c : Nat) :
    patternCode bs c = BitVec.ofNat 2 ((bs.getD (c / 4) 0).toNat / 4 ^ (c % 4)) := by
  rw [patternCode, ofNat_field _ _ le_rfl, Nat.pow_mul]

/-- The code that a pattern forces on a cell, none without a pattern. -/
theorem patternCode_getD (o : Option (List Byte)) (c : Nat) : patternCode (o.getD []) c = (match o with
    | some bs => BitVec.ofNat 2 ((bs.getD (c / 4) 0).toNat / 4 ^ (c % 4))
    | none => 0) := by
  cases o with
  | none => exact patternCode_nil c
  | some bs => exact patternCode_eq bs c

theorem Fabric.dueInj_eq (f : Fabric) (edge : Nat) : f.dueInj edge = (match f.inj with
    | (issued, bs) :: _ => if 2 * (issued.toNat + 2) + 2 ≤ edge then some bs else none
    | [] => none) := by
  rw [Fabric.dueInj]
  split
  case h_1 i rest hinj =>
    rw [hinj]
    exact ite_congr (decide_eq_true_eq) (fun _ => rfl) fun _ => rfl
  case h_2 hinj => rw [hinj]

/-! ## One cell (R236, R237) -/

/-- The sum of a cell before it is clamped (R236). -/
def State.cellSum (s : State) (ms : List TileName) (u : TileName) (x : Cell) : Int :=
  x.y.toInt + (x.dy.toList.map fun i => i.gain.toInt * 2 ^ i.shift.toNat * (s.source ms u i.src).v).sum

/-- The value that a cell transfers: its residue and its gated sum (R236). -/
def State.cellTransfer (s : State) (ms : List TileName) (u : TileName) (x : Cell) : Int :=
  (x.res.toNat : Int) + (s.source ms u x.dx).v * x.y.toInt

theorem foldl_add_map_sum {α : Type} (g : α → Int) : ∀ (l : List α) (a : Int), l.foldl (fun z i => z + g i) a = a + (l.map g).sum
  | [], a => (Int.add_zero a).symm
  | i :: l, a => by rw [List.foldl_cons, foldl_add_map_sum g l, List.map_cons, List.sum_cons, Int.add_assoc]

theorem outInt_outCode_outInt (o : BitVec 2) : outInt (outCode (outInt o)) = outInt o := by
  revert o
  decide

theorem clampY_ne_iff (z : Int) : clampY z ≠ z ↔ 2 ^ 24 < z ∨ z < -2 ^ 24 := by
  rw [clampY_eq]
  omega

section
variable {s : State} {ms : List TileName} {u : TileName} {x : Cell} {inj : BitVec 2}

theorem State.stepCell_sum : (x.dy.toList.map fun i => (i, s.source ms u i.src)).foldl
    (fun a i => a + i.1.gain.toInt * ((2 ^ i.1.shift.toNat : Nat) : Int) * i.2.v) x.y.toInt = s.cellSum ms u x := by
  rw [List.foldl_map]
  refine (foldl_add_map_sum
    (fun i : DyInput => i.gain.toInt * ((2 ^ i.shift.toNat : Nat) : Int) * (s.source ms u i.src).v) _ _).trans ?_
  simp only [Nat.cast_pow, Nat.cast_ofNat]
  rfl

theorem State.y_stepCell : (s.stepCell ms u x inj).cell.y = BitVec.ofInt 32 (clampY (s.cellSum ms u x)) := by
  rw [← State.stepCell_sum]
  rfl

theorem State.ovr_stepCell : (s.stepCell ms u x inj).ovr = true ↔ 2 ^ 24 < s.cellSum ms u x ∨ s.cellSum ms u x < -2 ^ 24 := by
  have hovr : (s.stepCell ms u x inj).ovr = (clampY (s.cellSum ms u x) != s.cellSum ms u x) := by
    rw [← State.stepCell_sum]
    rfl
  rw [hovr, bne_iff_ne, clampY_ne_iff]

theorem State.wiring_stepCell : (s.stepCell ms u x inj).cell.dx = x.dx ∧ (s.stepCell ms u x inj).cell.dy = x.dy := ⟨rfl, rfl⟩

theorem State.res_stepCell_idle (h : (s.source ms u x.dx).v = 0) : (s.stepCell ms u x inj).cell.res = x.res := by
  have hres : (s.stepCell ms u x inj).cell.res = BitVec.ofInt 24 (x.res.toNat : Int) :=
    congrArg (BitVec.ofInt 24) (if_pos h)
  rw [hres, BitVec.ofInt_natCast, BitVec.ofNat_toNat, BitVec.setWidth_eq]

theorem State.res_stepCell_eq (h : (s.source ms u x.dx).v ≠ 0) : (s.stepCell ms u x inj).cell.res
    = BitVec.ofInt 24 (s.cellTransfer ms u x - s.cellTransfer ms u x / 16777216 * 16777216) := by
  refine congrArg (BitVec.ofInt 24) ((if_neg h).trans ?_)
  rw [if_neg h]
  rfl

theorem State.res_stepCell (h : (s.source ms u x.dx).v ≠ 0) :
    (s.stepCell ms u x inj).cell.res.toInt % 2 ^ 24 = s.cellTransfer ms u x % 2 ^ 24 := by
  have hmod (z : Int) : z.bmod (2 ^ 24) % 2 ^ 24 = z % 2 ^ 24 := Int.bmod_emod
  rw [State.res_stepCell_eq h, BitVec.toInt_ofInt, hmod]
  omega

theorem State.out_stepCell_eq : (s.stepCell ms u x inj).cell.out = if inj = 0
    then outCode (if (s.source ms u x.dx).v = 0 then 0 else s.cellTransfer ms u x / 16777216) else outCode (outInt inj) := rfl

theorem State.out_stepCell : outInt (s.stepCell ms u x inj).cell.out = if inj ≠ 0 then outInt inj
    else if (s.source ms u x.dx).v = 0 then 0 else outInt (outCode (s.cellTransfer ms u x / 2 ^ 24)) := by
  rw [State.out_stepCell_eq]
  by_cases hinj : inj = 0
  · rw [if_pos hinj, if_neg (not_not.2 hinj)]
    split <;> rfl
  · rw [if_neg hinj, if_pos hinj, outInt_outCode_outInt]

/-- A cell of zeros stays as it is: its gains are 0, and so is what it transfers. -/
theorem State.stepCell_zero : (s.stepCell ms u Cell.zero 0).cell = Cell.zero ∧ (s.stepCell ms u Cell.zero 0).ovr = false := by
  have hsum : s.cellSum ms u Cell.zero = 0 := by simp [State.cellSum, Cell.zero, DyInput.reset]
  have htransfer : s.cellTransfer ms u Cell.zero = 0 := by simp [State.cellTransfer, Cell.zero]
  have hy : (s.stepCell ms u Cell.zero 0).cell.y = 0 := by
    rw [State.y_stepCell, hsum]
    rfl
  have hres : (s.stepCell ms u Cell.zero 0).cell.res = 0 := by
    by_cases hv : (s.source ms u Cell.zero.dx).v = 0
    · exact State.res_stepCell_idle hv
    · rw [State.res_stepCell_eq hv, htransfer]
      rfl
  have hout : (s.stepCell ms u Cell.zero 0).cell.out = 0 := by
    rw [State.out_stepCell_eq, htransfer, if_pos rfl]
    split <;> rfl
  have hcell : (s.stepCell ms u Cell.zero 0).cell = { Cell.zero with
    y := (s.stepCell ms u Cell.zero 0).cell.y, res := (s.stepCell ms u Cell.zero 0).cell.res,
    out := (s.stepCell ms u Cell.zero 0).cell.out } := rfl
  refine ⟨?_, Bool.eq_false_iff.2 fun h => ?_⟩
  · rw [hcell, hy, hres, hout]
    rfl
  · rw [State.ovr_stepCell, hsum] at h
    omega

/-- An unlisted cell stays as it is; at its reset value all its sources give 0. -/
theorem State.stepCell_base (f : Fabric) : (s.stepCell ms u f.base 0).cell = f.base ∧ (s.stepCell ms u f.base 0).ovr = false := by
  unfold Fabric.base
  split
  case isTrue => exact State.stepCell_zero
  case isFalse => exact ⟨rfl, rfl⟩

end

end Sys2Proof.Machine
end

section
/-! One step of a whole fabric: its cells, its counts and its status (R236, R237, R254). -/

namespace Sys2Proof.Machine

section
variable (s : State) (ms : List TileName) (u : TileName) (edge : Nat) (f : Fabric)

/-- What the step that began at `edge` makes of a cell (R236, R253). -/
def State.cellStep (c : Nat) : CellStep := s.stepCell ms u (f.cell c) (patternCode ((f.dueInj edge).getD []) c)

/-- The cells that a step looks at (R236). -/
def Fabric.activeAt (f : Fabric) (edge : Nat) : List Nat := f.active ((f.dueInj edge).getD [])

/-- The lowest cell that overruns in a step (R237). -/
def State.firstOverrun : Option Nat := (f.activeAt edge).find? fun c => (s.cellStep ms u edge f c).ovr

/-- The cells after a step. -/
def State.steppedCells : Sparse Cell :=
  (f.activeAt edge).foldl (fun m c => m.put c (s.cellStep ms u edge f c).cell) f.cells

/-- The counts after a step whose cells are as given (R254). -/
def Fabric.countedBy (f : Fabric) (cells : Sparse Cell) (l : List Nat) : Sparse (BitVec 32) :=
  l.foldl (fun m k => m.put k (f.count k + BitVec.ofInt 32 (outInt (cells.get f.base (f.mapByte (32 + k)).toNat).out))) f.counts

variable {s ms u edge f}

theorem Fabric.mem_activeAt {c : Nat} : c ∈ f.activeAt edge
    ↔ c < 256 ∧ ((f.cells.find? c).isSome = true ∨ patternCode ((f.dueInj edge).getD []) c ≠ 0) := by
  rw [Fabric.activeAt, Fabric.active, List.mem_filter, mem_upFrom, Bool.or_eq_true, bne_iff_ne, Nat.zero_add]
  exact and_congr_left fun _ => and_iff_right (Nat.zero_le c)

theorem Fabric.nodup_activeAt : (f.activeAt edge).Nodup := by
  rw [Fabric.activeAt, Fabric.active]
  exact (nodup_upFrom 0 256).filter _

/-- A cell that a step does not look at would stay as it is. -/
theorem State.cellStep_inactive {c : Nat} (hc : c < 256) (h : c ∉ f.activeAt edge) :
    (s.cellStep ms u edge f c).cell = f.cell c ∧ (s.cellStep ms u edge f c).ovr = false := by
  rw [Fabric.mem_activeAt, not_and, not_or, not_not] at h
  obtain ⟨hlisted, hcode⟩ := h hc
  have hbase : f.cell c = f.base := by
    rw [Fabric.cell, Sparse.get_eq_getD, Option.not_isSome_iff_eq_none.1 hlisted]
    rfl
  rw [State.cellStep, hcode, hbase]
  exact State.stepCell_base f

theorem State.get_steppedCells {c : Nat} (hc : c < 256) :
    (s.steppedCells ms u edge f).get f.base c = (s.cellStep ms u edge f c).cell := by
  rw [State.steppedCells, Sparse.get_foldl_put_list _ _ Fabric.nodup_activeAt]
  split
  case isTrue => rfl
  case isFalse hidle => exact (State.cellStep_inactive hc hidle).1.symm

theorem Fabric.get_countedBy (cells : Sparse Cell) {n : Nat} (hn : n < 32) : (f.countedBy cells (upFrom 0 32)).get 0 n
    = f.count n + BitVec.ofInt 32 (outInt (cells.get f.base (f.mapByte (32 + n)).toNat).out) := by
  rw [Fabric.countedBy, Sparse.get_foldl_put_list _ _ (nodup_upFrom 0 32)]
  exact if_pos (mem_upFrom.2 ⟨Nat.zero_le n, by omega⟩)

/-! ## Overruns (R237) -/

theorem State.firstOverrun_some {c : Nat} (hc : c < 256) (hovr : (s.cellStep ms u edge f c).ovr = true)
    (hfirst : ∀ j < c, (s.cellStep ms u edge f j).ovr = false) : s.firstOverrun ms u edge f = some c := by
  have hactive : c ∈ f.activeAt edge := by
    by_contra h
    rw [(State.cellStep_inactive hc h).2] at hovr
    cases hovr
  rw [State.firstOverrun, Fabric.activeAt, Fabric.active, List.find?_filter]
  refine find?_upFrom (Nat.zero_le c) (by omega) ?_ fun j _ hj => ?_
  · rw [decide_eq_true_eq]
    exact ⟨(List.mem_filter.1 hactive).2, hovr⟩
  · rw [decide_eq_false_iff_not, hfirst j hj]
    exact fun h => Bool.false_ne_true h.2

theorem State.firstOverrun_none (h : ∀ c < 256, (s.cellStep ms u edge f c).ovr = false) : s.firstOverrun ms u edge f = none :=
  List.find?_eq_none.2 fun c hc => by
    rw [h c (Fabric.mem_activeAt.1 hc).1]
    exact Bool.false_ne_true

theorem State.firstOverrun_isSome :
    (s.firstOverrun ms u edge f).isSome = true ↔ ∃ c < 256, (s.cellStep ms u edge f c).ovr = true := by
  refine ⟨fun h => ?_, fun ⟨c, hc, hovr⟩ => ?_⟩
  · obtain ⟨c, hfirst⟩ := Option.isSome_iff_exists.1 h
    exact ⟨c, (Fabric.mem_activeAt.1 (List.mem_of_find?_eq_some hfirst)).1, (List.find?_some hfirst :)⟩
  · by_contra hnone
    have hactive : c ∈ f.activeAt edge := by
      by_contra h
      rw [(State.cellStep_inactive hc h).2] at hovr
      cases hovr
    exact List.find?_eq_none.1 (Option.not_isSome_iff_eq_none.1 hnone) c hactive hovr

theorem State.overruns_eq : s.overruns ms edge u = (s.firstOverrun ms u edge (s.tile u).fab).isSome :=
  List.isSome_find?.symm

/-! ## The fabric after a step -/

variable (policy : Bool)

theorem State.stepFabric_rest : s.stepFabric ms policy edge u f = { f with
    cells := (s.stepFabric ms policy edge u f).cells, counts := (s.stepFabric ms policy edge u f).counts, stepn := f.stepn + 1,
    xdom := (s.stepFabric ms policy edge u f).xdom, badsrc := (s.stepFabric ms policy edge u f).badsrc,
    sat := (s.stepFabric ms policy edge u f).sat, ovcell := (s.stepFabric ms policy edge u f).ovcell,
    inj := if (f.dueInj edge).isSome then f.inj.drop 1 else f.inj } := by
  unfold State.stepFabric Fabric.active
  generalize upFrom 0 256 = cells, upFrom 0 32 = counts
  rfl

theorem State.base_stepFabric : (s.stepFabric ms policy edge u f).base = f.base := by
  have hblank : (s.stepFabric ms policy edge u f).blank = f.blank := by
    unfold State.stepFabric
    rfl
  rw [Fabric.base, hblank, Fabric.base]

theorem State.cells_stepFabric : (s.stepFabric ms policy edge u f).cells = s.steppedCells ms u edge f := List.foldl_map ..

theorem State.cell_stepFabric {c : Nat} (hc : c < 256) :
    (s.stepFabric ms policy edge u f).cell c = (s.cellStep ms u edge f c).cell := by
  rw [Fabric.cell, State.cells_stepFabric, State.base_stepFabric, State.get_steppedCells hc]

theorem State.counts_stepFabric : (s.stepFabric ms policy edge u f).counts
    = f.countedBy (s.stepFabric ms policy edge u f).cells (upFrom 0 32) := by
  unfold Fabric.countedBy State.stepFabric
  generalize upFrom 0 32 = l
  rfl

theorem State.count_stepFabric {n : Nat} (hn : n < 32) : (s.stepFabric ms policy edge u f).count n = f.count n
    + BitVec.ofInt 32 (outInt ((s.stepFabric ms policy edge u f).cell (f.mapByte (32 + n)).toNat).out) := by
  rw [Fabric.count, State.counts_stepFabric, Fabric.get_countedBy _ hn, Fabric.cell, State.base_stepFabric]

/-- The first cell that a step finds to overrun. -/
theorem State.find?_ovr : ((f.activeAt edge).map fun c => (c, s.cellStep ms u edge f c)).find? (fun r => r.2.ovr)
    = (s.firstOverrun ms u edge f).map fun c => (c, s.cellStep ms u edge f c) := List.find?_map ..

theorem State.sat_stepFabric :
    (s.stepFabric ms policy edge u f).sat = (f.sat || (policy && (s.firstOverrun ms u edge f).isSome)) := by
  have hsat : (s.stepFabric ms policy edge u f).sat = (f.sat || (policy
      && (((f.activeAt edge).map fun c => (c, s.cellStep ms u edge f c)).find? fun r => r.2.ovr).isSome)) := rfl
  rw [hsat, State.find?_ovr, Option.isSome_map]

theorem State.ovcell_stepFabric :
    (s.stepFabric ms policy edge u f).ovcell = ((s.firstOverrun ms u edge f).map (BitVec.ofNat 8)).getD f.ovcell := by
  have hovcell : (s.stepFabric ms policy edge u f).ovcell = (match
      ((f.activeAt edge).map fun c => (c, s.cellStep ms u edge f c)).find? fun r => r.2.ovr with
      | some r => BitVec.ofNat 8 r.1
      | none => f.ovcell) := rfl
  rw [hovcell, State.find?_ovr]
  cases s.firstOverrun ms u edge f <;> rfl

end

end Sys2Proof.Machine
end

section
/-! The run of a tile that is its own step domain: start, step, overrun, halt (R237, R238, R242 to R244). -/

namespace Sys2Proof.Machine

theorem exec_domainStart (u : TileName) (s : State) : exec (.domainStart u) s = execDomainStart u s := rfl
theorem exec_fabricStep (u : TileName) (s : State) : exec (.fabricStep u) s = execFabricStep u s := rfl
theorem exec_domainHalt (u : TileName) (s : State) : exec (.domainHalt u) s = execDomainHalt u s := rfl

section
variable {s : State} {u : TileName} {budget : Nat} {taken : Word}

/-! ## Edges of the step clock (R8, R240, R402) -/

theorem Domain.nextHalf_le (d : Domain) (time : Nat) : d.nextHalf time ≤ 2 * time + 2 := by
  rw [Domain.nextHalf]
  split <;> omega

theorem Domain.nextHalf_eq (d : Domain) (time : Nat) :
    d.nextHalf time = if d.div = 0 ∧ d.half < 2 * time + 1 then 2 * time + 1 else 2 * time + 2 := by
  rw [Domain.nextHalf]
  simp only [Bool.and_eq_true, decide_eq_true_eq]

/-- An edge lies in the cycle under way, or at its end. -/
theorem State.edgeOf_bounds (s : State) (u : TileName) (half : Nat) :
    2 * (s.bulk u.ret).timer.toNat + 1 ≤ s.edgeOf u half ∧ s.edgeOf u half ≤ 2 * (s.bulk u.ret).timer.toNat + 2 := by
  rw [State.edgeOf, State.now, endOf]
  split <;> omega

theorem State.startEdge_due (d : Domain) {c : Nat} (h : c < (s.bulk u.ret).timer.toNat) :
    s.startEdge u d c = some (d.nextHalf s.time) := by
  have hedge := (s.edgeOf_bounds u (d.nextHalf s.time)).1
  refine List.find?_cons_of_pos ?_
  rw [decide_eq_true_eq, endOf]
  omega

theorem State.startEdge_early (d : Domain) {c : Nat} (h : (s.bulk u.ret).timer.toNat < c) : s.startEdge u d c = none := by
  refine List.find?_eq_none.2 fun half _ => ?_
  have hedge := (s.edgeOf_bounds u half).2
  rw [decide_eq_true_eq, endOf]
  omega

/-! ## The start (R243) -/

/-- A domain that has started on an edge of the period under way. -/
def State.startedDomain (s : State) (u : TileName) (d : Domain) : Domain :=
  { d with started := true, edge := s.edgeOf u (d.nextHalf s.time), half := d.nextHalf s.time }

section
variable (hdomain : (s.tile u).fab.domain = 0) (hrun : (s.domain (2 ^ 20 + u)).run = some ([u], budget, taken))
include hdomain hrun

theorem exec_domainStart_due (hsettled : (s.tile u).fab.changes = []) (hstarted : (s.domain (2 ^ 20 + u)).started = false)
    (hdue : taken.toNat + 3 ≤ (s.bulk u.ret).timer.toNat) :
    exec (.domainStart u) s = .next ((s.withDomain (2 ^ 20 + u) (s.startedDomain u (s.domain (2 ^ 20 + u)))).setTile u
      { s.tile u with fab := { (s.tile u).fab with state := 2, stepn := 0, was := 0 } }) := by
  rw [exec_domainStart, execDomainStart]
  dsimp only
  rw [State.domainOf_own hdomain, hrun]
  dsimp only
  rw [if_pos hdomain, State.startEdge_due _ (by omega)]
  dsimp only
  rw [if_neg (by rw [hstarted]; exact Bool.false_ne_true), List.foldl_cons, List.foldl_nil, State.onFabric_eq,
    Fabric.view_settled hsettled]
  rfl

theorem exec_domainStart_early (hearly : (s.bulk u.ret).timer.toNat < taken.toNat + 2) : exec (.domainStart u) s = .next s := by
  rw [exec_domainStart, execDomainStart]
  dsimp only
  rw [State.domainOf_own hdomain, hrun]
  dsimp only
  rw [if_pos hdomain, State.startEdge_early _ hearly]

end

/-! ## A step (R236, R237, R244) -/

/-- Whether a step of a tile ends its run by an overrun under FAULT (R237). -/
def State.stepFault (s : State) (u : TileName) (d : Domain) : Bool := !d.policy && s.overruns [u] d.edge u

/-- The fabric of a tile alone after a step. -/
def State.steppedFabric (s : State) (u : TileName) (d : Domain) : Fabric :=
  { s.stepFabric [u] d.policy d.edge u (s.tile u).fab with flt := (s.tile u).fab.flt || s.stepFault u d }

/-- Whether a `DHALT` has been in time for a boundary (R244). -/
def Domain.haltDue (d : Domain) (edge : Nat) : Bool :=
  match d.halt with
  | some h => decide (endOf (h.toNat + 2) ≤ edge)
  | none => false

/-- The domain of a tile alone after a step, with the conditions of R244. -/
def State.steppedDomain (s : State) (u : TileName) (d : Domain) (budget : Nat) : Domain :=
  { d with edge := s.edgeOf u (d.nextHalf s.time), half := d.nextHalf s.time,
           stop := s.stepFault u d || (budget != 0 && decide (budget ≤ ((s.tile u).fab.stepn + 1).toNat)) || s.stopped u
             || d.haltDue (s.edgeOf u (d.nextHalf s.time)) }

/-- The module after a step of a tile alone, before any trap. -/
def State.stepped (s : State) (u : TileName) (budget : Nat) : State :=
  (s.withDomain (2 ^ 20 + u) (s.steppedDomain u (s.domain (2 ^ 20 + u)) budget)).setTile u
    { s.tile u with fab := s.steppedFabric u (s.domain (2 ^ 20 + u)) }

theorem filter_singleton_eq {α : Type} (p : α → Bool) (a : α) : [a].filter p = if p a then [a] else [] := by
  cases h : p a <;> simp [h]

/-- A fabric without pending changes has none due, whatever its status is. -/
theorem Fabric.settle_status {f : Fabric} (h : f.changes = []) (flt eccu : Bool) (at' : Nat) :
    Fabric.settle { f with flt := flt, eccu := eccu } at' = { f with flt := flt, eccu := eccu } :=
  Fabric.settle_settled (f := { f with flt := flt, eccu := eccu }) h at'

theorem not_isEmpty_singleton {α : Type} (b : Bool) (a : α) : (!(if b = true then [a] else []).isEmpty) = b := by
  cases b <;> rfl

section
variable (hdomain : (s.tile u).fab.domain = 0) (hrun : (s.domain (2 ^ 20 + u)).run = some ([u], budget, taken))
include hdomain hrun

theorem exec_fabricStep_early (h : 2 * s.time + 2 < (s.domain (2 ^ 20 + u)).half + 2 ^ (s.domain (2 ^ 20 + u)).div.toNat) :
    exec (.fabricStep u) s = .next s := by
  have hnext := (s.domain (2 ^ 20 + u)).nextHalf_le s.time
  rw [exec_fabricStep, execFabricStep]
  dsimp only
  rw [State.domainOf_own hdomain, hrun]
  dsimp only
  rw [if_pos]
  rw [Bool.or_eq_true, decide_eq_true_eq]
  exact .inr (by omega)

theorem exec_fabricStep_due (hsettled : (s.tile u).fab.changes = []) (hstarted : (s.domain (2 ^ 20 + u)).started = true)
    (hstop : (s.domain (2 ^ 20 + u)).stop = false)
    (hedge : (s.domain (2 ^ 20 + u)).half + 2 ^ (s.domain (2 ^ 20 + u)).div.toNat ≤ (s.domain (2 ^ 20 + u)).nextHalf s.time)
    (hbad : s.badCell u = none) :
    exec (.fabricStep u) s = .next (if s.stepFault u (s.domain (2 ^ 20 + u)) then (s.stepped u budget).overrunTrap u
      else s.stepped u budget) := by
  have hgo : ¬(!(s.domain (2 ^ 20 + u)).started || (s.domain (2 ^ 20 + u)).stop || !([u] : List TileName).contains u
      || decide ((s.domain (2 ^ 20 + u)).nextHalf s.time < (s.domain (2 ^ 20 + u)).half + 2 ^ (s.domain (2 ^ 20 + u)).div.toNat))
        = true := by
    rw [hstarted, hstop, decide_eq_false (Nat.not_lt.2 hedge)]
    simp
  have hclean : ([u] : List TileName).filter (fun m => (s.badCell m).isSome) = [] := by
    rw [filter_singleton_eq, hbad]
    rfl
  have hfault : (!(s.domain (2 ^ 20 + u)).policy && s.overruns [u] (s.domain (2 ^ 20 + u)).edge u)
      = s.stepFault u (s.domain (2 ^ 20 + u)) := rfl
  have hsettled' : (s.stepFabric [u] (s.domain (2 ^ 20 + u)).policy (s.domain (2 ^ 20 + u)).edge u (s.tile u).fab).changes = [] :=
    hsettled
  rw [exec_fabricStep, execFabricStep]
  dsimp only
  rw [State.domainOf_own hdomain, hrun]
  dsimp only
  rw [if_neg hgo, hclean, if_pos hdomain, filter_singleton_eq]
  simp only [List.foldl_cons, List.foldl_nil, State.onFabric_eq, not_isEmpty_singleton, hfault, State.tile_setTile_same,
    Fabric.settle_status hsettled', List.contains_nil, Bool.or_false, List.isEmpty_nil, Bool.not_true, List.any_cons, List.any_nil]
  by_cases hf : s.stepFault u (s.domain (2 ^ 20 + u)) = true
  · have hovr : s.overruns [u] (s.domain (2 ^ 20 + u)).edge u = true := (Bool.and_eq_true_iff.1 hf).2
    rw [if_pos hf, if_pos hf, if_pos hovr, List.foldl_cons, List.foldl_nil]
    rfl
  · rw [if_neg hf, if_neg hf]
    rfl

end

/-! ## The trap of an overrun (R238) -/

/-- A trap of an earlier instruction of a READY slot, where PARKALL is 0 and no debug step runs. -/
theorem State.lateTrap_ready {k : BitVec 2} (h : (s.slot u k).state = .ready) (hp : bit (s.tile u).trapctl 0 = false)
    (hs : (s.tile u).dbgActive = false) (cause : Cause) (epc eval : Word) : s.lateTrap u k cause epc eval
      = (s.setTile u ((s.tile u).onSlot k fun y => { y with state := .parked, cause := cause.code, epc := epc, eval := eval })).sendRecord
          (tileNode u) (slotRecord u k cause.code epc eval false) := by
  have htrap : s.lateTrap u k cause epc eval = s.slotTrap u k (slotRecord u k cause.code epc eval false) := rfl
  rw [htrap, State.slotTrap_parks h, Tile.trapSlots_alone _ _ _ _ _ hp hs h]
  rfl

/-- The parts that a record changes, besides those that a step does. -/
theorem forget_record (q : State) : [Part.tiles, .domains, .packets, .routers, .serial, .progress].foldr Part.forget q
    = [Part.packets, .routers, .serial, .tiles, .domains, .progress].foldr Part.forget q := by
  simp only [List.foldr_cons, List.foldr_nil, Part.forget]

/-- Tiles, domains and progress have no part in where a record enters its island. -/
theorem islandNode_forget (q : State) (b src : Nat) :
    ([Part.tiles, .domains, .progress].foldr Part.forget q).islandNode b src = q.islandNode b src := by
  simp only [List.foldr_cons, List.foldr_nil, Part.forget]
  rfl

/-- The packet that brings a record of a tile to its island (R277, R293). -/
def State.recordPacket (s : State) (u : TileName) (rec : TrapRec) : Packet :=
  newPacket (tileNode u) (s.islandNode u.ret (tileNode u)) 5 2 (s.stampOf (tileNode u / 4096) false) false (.trapRec rec)

/-- The record of a tile whose module differs in tiles, domains and progress alone. -/
theorem State.sendRecord_frame {r : State} (h : SameBut [.tiles, .domains, .progress] s r) {rec : TrapRec} (hr : rec.island = u.ret) :
    OnePacket s.serial (s.recordPacket u rec) s (r.sendRecord (tileNode u) rec)
      ∧ SameBut [.tiles, .domains, .packets, .routers, .serial, .progress] s (r.sendRecord (tileNode u) rec) := by
  have hserial : s.serial = r.serial := (congrArg State.serial h :)
  have hpackets : s.packets = r.packets := (congrArg State.packets h :)
  have hnode : s.islandNode u.ret (tileNode u) = r.islandNode u.ret (tileNode u) :=
    (islandNode_forget s _ _).symm.trans ((congrArg (fun q => q.islandNode u.ret (tileNode u)) h).trans (islandNode_forget r _ _))
  have hstamp : s.stampOf (tileNode u / 4096) false = r.stampOf (tileNode u / 4096) false :=
    congrArg (fun b : Bulk => b.region.toNat) (congrArg (fun q => q.bulk (tileNode u / 4096)) h :)
  obtain ⟨hsent, hothers⟩ := r.sendRecord_packet hr
  have hrest : SameBut [.tiles, .domains, .packets, .routers, .serial, .progress] s r :=
    (forget_record s).trans ((h.cons.cons.cons : SameBut [.packets, .routers, .serial, .tiles, .domains, .progress] s r).trans
      (forget_record r).symm)
  rw [State.recordPacket, hserial, hnode, hstamp]
  exact ⟨⟨hsent, fun m hm => (hothers m hm).trans (by rw [hpackets])⟩, hrest.trans rfl⟩

/-- A slot that runs on, or waits for its fabric, is READY once the fabric has halted. -/
theorem Slot.dwaited_ready {y : Slot} (h : (y.state = .ready ∧ y.ctx.wait = .none)
    ∨ (y.state = .waiting ∧ ∃ w r e, y.ctx.wait = .issued .dwait w r e)) : y.dwaited.state = .ready := by
  unfold Slot.dwaited
  rcases h with ⟨hstate, hwait⟩ | ⟨hstate, w, r, e, hwait⟩
  · rw [hwait]
    exact hstate
  · rw [hwait]
    exact if_pos hstate

/-- A tile whose slot `k` has taken an overrun. -/
def Tile.overrun (x : Tile) (k : BitVec 2) (epc eval : Word) : Tile :=
  x.onSlot k fun y => { y.dwaited with state := .parked, cause := 0x0A, epc := epc, eval := eval }

section
variable {a : Armed} (harmed : (s.tile u).fab.armed = some a)
include harmed

theorem State.overrunTrap_armed (hact : (s.slot u a.slot).act = a.act)
    (hstate : (s.slot u a.slot).state = .ready ∨ (s.slot u a.slot).state = .waiting) : s.overrunTrap u
      = (s.dwaitEnds u a.slot).lateTrap u a.slot .ddaOverrun a.epc (BitVec.ofNat 64 (s.tile u).fab.ovcell.toNat) := by
  have hholds : ((s.slot u a.slot).act = a.act && ((s.slot u a.slot).state = .ready || (s.slot u a.slot).state = .waiting
      || (s.slot u a.slot).state = .parked)) = true := by
    rcases hstate with h | h <;> simp [hact, h]
  rw [State.overrunTrap, harmed, ← zext_eq_ofNat]
  dsimp only
  rw [if_pos hholds]
  rfl

theorem State.overrunTrap_gone (hact : (s.slot u a.slot).act ≠ a.act) : s.overrunTrap u
    = s.noSlotRecord u .ddaOverrun a.epc (BitVec.ofNat 64 (s.tile u).fab.ovcell.toNat) := by
  rw [State.overrunTrap, harmed, ← zext_eq_ofNat]
  dsimp only
  rw [if_neg]
  rw [decide_eq_false hact]
  exact Bool.false_ne_true

end

/-! ## The end of a run (R242, R244, R252) -/

/-- The domain of a tile alone after its run, where no DIV or POLICY is held. -/
def Domain.halted (d : Domain) : Domain := { d with run := none, started := false, halt := none, stop := false }

theorem Domain.ended_eq {d : Domain} (h : d.held = none) : d.ended = d.halted := by
  rw [Domain.ended, h, Domain.halted, h]
  rfl

/-- A tile whose fabric has halted. -/
def Tile.fabricHalted (x : Tile) : Tile := { x with fab := { x.fab with state := 0, was := 0 } }

/-- The step domains stand as they did when slots have gone on. -/
theorem SameBut.domain_eq {r : State} (h : SameBut [.tiles, .progress] s r) (key : Nat) : s.domain key = r.domain key :=
  congrArg (Sparse.get Domain.reset · key) (congrArg State.domains h :)

theorem State.dwaitDone_frame (s : State) (u : TileName) : OneTile u ((s.tile u).dwaited allSlots) s (s.dwaitDone u)
    ∧ SameBut [.tiles, .progress] s (s.dwaitDone u) := State.foldl_dwaitEnds_frame u allSlots s

/-- What is left of a tile whose slots have gone on. -/
theorem Tile.fab_dwaited (x : Tile) (l : List (BitVec 2)) : (x.dwaited l).fab = x.fab := by rw [Tile.dwaited_rest]

theorem exec_domainHalt_due (hdomain : (s.tile u).fab.domain = 0)
    (hrun : (s.domain (2 ^ 20 + u)).run = some ([u], budget, taken)) (hsettled : (s.tile u).fab.changes = [])
    (hstarted : (s.domain (2 ^ 20 + u)).started = true) (hstop : (s.domain (2 ^ 20 + u)).stop = true)
    (hheld : (s.domain (2 ^ 20 + u)).held = none) (hgoing : s.stopped u = false) :
    exec (.domainHalt u) s = .next (((s.setTile u (s.tile u).fabricHalted).dwaitDone u).withDomain (2 ^ 20 + u)
      (s.domain (2 ^ 20 + u)).halted) := by
  obtain ⟨⟨htile, -⟩, hrest⟩ := (s.setTile u (s.tile u).fabricHalted).dwaitDone_frame u
  rw [State.tile_setTile_same] at htile
  have hkept : ((s.setTile u (s.tile u).fabricHalted).dwaitDone u).domain (2 ^ 20 + u) = s.domain (2 ^ 20 + u) :=
    (SameBut.domain_eq hrest _).symm
  have hhalted : (s.onFabric u fun f => { f.view with state := 0, was := if s.stopped u then 2 else 0 })
      = s.setTile u (s.tile u).fabricHalted := by
    rw [State.onFabric_eq, Fabric.view_settled hsettled, if_neg (by rw [hgoing]; exact Bool.false_ne_true)]
    rfl
  have hends : ((s.setTile u (s.tile u).fabricHalted).dwaitDone u).onDomain (2 ^ 20 + u) Domain.ended
      = ((s.setTile u (s.tile u).fabricHalted).dwaitDone u).withDomain (2 ^ 20 + u) (s.domain (2 ^ 20 + u)).halted := by
    rw [State.onDomain, hkept, Domain.ended_eq hheld]
    rfl
  have hfab (x : Domain) : ((((s.setTile u (s.tile u).fabricHalted).dwaitDone u).withDomain (2 ^ 20 + u) x).tile u).fab
      = (s.tile u).fabricHalted.fab := by rw [State.tile_withDomain, htile, Tile.fab_dwaited]
  rw [exec_domainHalt, execDomainHalt]
  dsimp only
  rw [State.domainOf_own hdomain, hrun]
  dsimp only
  rw [if_neg (by rw [hstarted, hstop]; exact Bool.false_ne_true), List.foldl_cons, List.foldl_nil, hhalted, hends,
    State.takeStart_unarmed]
  · rw [hfab]
    exact hdomain
  · rw [hfab]
    exact (by decide : (0 : BitVec 2) ≠ 1)

end

end Sys2Proof.Machine
end

section
/-! The run of a step domain of one tile: the obligation (R8, R233, R236 to R238, R240 to R244, R253). -/

namespace Sys2Proof.Machine

section
variable {s : State} {u : TileName} {budget : Nat} {d : Domain}

/-! ## What a step leaves (R236, R237) -/

/-- The FLT bit has no part in the cells and the counts of a fabric. -/
theorem Fabric.cell_flt (f : Fabric) (b : Bool) (c : Nat) : Fabric.cell { f with flt := b } c = f.cell c := rfl

theorem Fabric.count_flt (f : Fabric) (b : Bool) (n : Nat) : Fabric.count { f with flt := b } n = f.count n := rfl

theorem State.cell_steppedFabric {c : Nat} (hc : c < 256) :
    (s.steppedFabric u d).cell c = (s.cellStep [u] u d.edge (s.tile u).fab c).cell := by
  rw [State.steppedFabric, Fabric.cell_flt, State.cell_stepFabric d.policy hc]

theorem State.count_steppedFabric {n : Nat} (hn : n < 32) : (s.steppedFabric u d).count n = (s.tile u).fab.count n
    + BitVec.ofInt 32 (outInt ((s.steppedFabric u d).cell ((s.tile u).fab.mapByte (32 + n)).toNat).out) := by
  rw [State.steppedFabric, Fabric.count_flt, Fabric.cell_flt, State.count_stepFabric d.policy hn]

theorem State.steppedFabric_rest : s.steppedFabric u d = { (s.tile u).fab with
    cells := (s.steppedFabric u d).cells, counts := (s.steppedFabric u d).counts, stepn := (s.steppedFabric u d).stepn,
    xdom := (s.steppedFabric u d).xdom, badsrc := (s.steppedFabric u d).badsrc, inj := (s.steppedFabric u d).inj,
    flt := (s.steppedFabric u d).flt, sat := (s.steppedFabric u d).sat, ovcell := (s.steppedFabric u d).ovcell } := by
  rw [State.steppedFabric, State.stepFabric_rest]

theorem State.stepn_steppedFabric : (s.steppedFabric u d).stepn = (s.tile u).fab.stepn + 1 := by
  rw [State.steppedFabric, State.stepFabric_rest]

theorem State.inj_steppedFabric : (s.steppedFabric u d).inj
    = if ((s.tile u).fab.dueInj d.edge).isSome then (s.tile u).fab.inj.drop 1 else (s.tile u).fab.inj := by
  rw [State.steppedFabric, State.stepFabric_rest]

/-- A step faults where a cell overruns under FAULT. -/
theorem State.stepFault_iff : s.stepFault u d = true
    ↔ d.policy = false ∧ ∃ c < 256, (s.cellStep [u] u d.edge (s.tile u).fab c).ovr = true := by
  rw [State.stepFault, Bool.and_eq_true, Bool.not_eq_true', State.overruns_eq, State.firstOverrun_isSome]

theorem State.sat_steppedFabric : (s.steppedFabric u d).sat = true ↔ (s.tile u).fab.sat = true
    ∨ (d.policy = true ∧ ∃ c < 256, (s.cellStep [u] u d.edge (s.tile u).fab c).ovr = true) := by
  rw [State.steppedFabric, State.sat_stepFabric, Bool.or_eq_true, Bool.and_eq_true, State.firstOverrun_isSome]

theorem State.flt_steppedFabric :
    (s.steppedFabric u d).flt = true ↔ (s.tile u).fab.flt = true ∨ s.stepFault u d = true := Bool.or_eq_true_iff

theorem State.ovcell_steppedFabric_first {c : Nat} (hc : c < 256)
    (hovr : (s.cellStep [u] u d.edge (s.tile u).fab c).ovr = true)
    (hfirst : ∀ j < c, (s.cellStep [u] u d.edge (s.tile u).fab j).ovr = false) :
    (s.steppedFabric u d).ovcell = BitVec.ofNat 8 c := by
  rw [State.steppedFabric, State.ovcell_stepFabric, State.firstOverrun_some hc hovr hfirst]
  rfl

theorem State.ovcell_steppedFabric_none (h : ∀ c < 256, (s.cellStep [u] u d.edge (s.tile u).fab c).ovr = false) :
    (s.steppedFabric u d).ovcell = (s.tile u).fab.ovcell := by
  rw [State.steppedFabric, State.ovcell_stepFabric, State.firstOverrun_none h]
  rfl

/-- The conditions of R244 at the boundary that ends a step. -/
theorem State.stop_steppedDomain : (s.steppedDomain u d budget).stop = true ↔ s.stepFault u d = true
    ∨ (budget ≠ 0 ∧ budget ≤ ((s.tile u).fab.stepn + 1).toNat) ∨ s.stopped u = true
    ∨ ∃ h, d.halt = some h ∧ 2 * (h.toNat + 2) + 2 ≤ s.edgeOf u (d.nextHalf s.time) := by
  have hhalt : d.haltDue (s.edgeOf u (d.nextHalf s.time)) = true
      ↔ ∃ h, d.halt = some h ∧ 2 * (h.toNat + 2) + 2 ≤ s.edgeOf u (d.nextHalf s.time) := by
    unfold Domain.haltDue
    cases d.halt with
    | none => simp
    | some h =>
      simp only [endOf, Option.some.injEq, exists_eq_left']
      exact decide_eq_true_iff
  rw [State.steppedDomain, Bool.or_eq_true, Bool.or_eq_true, Bool.or_eq_true, Bool.and_eq_true, bne_iff_ne, decide_eq_true_eq,
    hhalt, or_assoc, or_assoc]

/-! ## What an overrun and the end of a run leave (R238, R244) -/

theorem State.stepped_frame (s : State) (u : TileName) (budget : Nat) :
    (s.stepped u budget).domain (2 ^ 20 + u) = s.steppedDomain u (s.domain (2 ^ 20 + u)) budget
      ∧ OneTile u { s.tile u with fab := s.steppedFabric u (s.domain (2 ^ 20 + u)) } s (s.stepped u budget)
      ∧ SameBut [.tiles, .domains] s (s.stepped u budget) := by
  obtain ⟨hkey, -, htile, hrest⟩ := State.withDomain_setTile_frame (s := s) (u := u) (2 ^ 20 + u)
    (s.steppedDomain u (s.domain (2 ^ 20 + u)) budget) { s.tile u with fab := s.steppedFabric u (s.domain (2 ^ 20 + u)) }
  exact ⟨hkey, htile, hrest⟩

theorem OneTile.trans {x y : Tile} {t r : State} (h : OneTile u x s t) (h' : OneTile u y t r) : OneTile u y s r :=
  ⟨h'.1, fun v hv => (h'.2 v hv).trans (h.2 v hv)⟩

/-- Progress that is noted as well as a step's changes. -/
theorem SameBut.noteProgress_after {t r : State} (h : SameBut [.tiles, .domains] s t) (h' : SameBut [.tiles, .progress] t r) :
    SameBut [.tiles, .domains, .progress] s r := by
  have hforget (q : State) : [Part.tiles, .domains, .progress].foldr Part.forget q
      = [Part.progress, .tiles, .domains].foldr Part.forget q := by simp only [List.foldr_cons, List.foldr_nil, Part.forget]
  have hforget' (q : State) : [Part.tiles, .domains, .progress].foldr Part.forget q
      = [Part.domains, .tiles, .progress].foldr Part.forget q := by simp only [List.foldr_cons, List.foldr_nil, Part.forget]
  have hfirst : SameBut [.tiles, .domains, .progress] s t :=
    (hforget s).trans ((h.cons : SameBut [.progress, .tiles, .domains] s t).trans (hforget t).symm)
  exact hfirst.trans ((hforget' t).trans ((h'.cons : SameBut [.domains, .tiles, .progress] t r).trans (hforget' r).symm))

section
variable {t : State} {a : Armed} (hst : SameBut [.tiles, .domains] s t) (harmed : (t.tile u).fab.armed = some a)
include hst harmed

/-- The slot that armed a tile takes its overrun. -/
theorem State.overrunTrap_armed_frame (hact : (t.slot u a.slot).act = a.act) (hp : bit (t.tile u).trapctl 0 = false)
    (hs : (t.tile u).dbgActive = false) (hready : ((t.slot u a.slot).state = .ready ∧ (t.slot u a.slot).ctx.wait = .none)
      ∨ ((t.slot u a.slot).state = .waiting ∧ ∃ w r e, (t.slot u a.slot).ctx.wait = .issued .dwait w r e)) :
    OneTile u ((t.tile u).overrun a.slot a.epc (BitVec.ofNat 64 (t.tile u).fab.ovcell.toNat)) t (t.overrunTrap u)
      ∧ (∀ key, (t.overrunTrap u).domain key = t.domain key)
      ∧ OnePacket s.serial (s.recordPacket u (slotRecord u a.slot 0x0A a.epc (BitVec.ofNat 64 (t.tile u).fab.ovcell.toNat) false))
          s (t.overrunTrap u)
      ∧ SameBut [.tiles, .domains, .packets, .routers, .serial, .progress] s (t.overrunTrap u) := by
  obtain ⟨⟨htile, hothers⟩, hrest⟩ := t.dwaitEnds_frame u a.slot
  have hslot : (t.dwaitEnds u a.slot).slot u a.slot = (t.slot u a.slot).dwaited := by
    rw [State.slot, htile, Tile.slot_onSlot_same, State.slot]
  have htrap : t.overrunTrap u = ((t.dwaitEnds u a.slot).setTile u
      ((t.tile u).overrun a.slot a.epc (BitVec.ofNat 64 (t.tile u).fab.ovcell.toNat))).sendRecord (tileNode u)
        (slotRecord u a.slot 0x0A a.epc (BitVec.ofNat 64 (t.tile u).fab.ovcell.toNat) false) := by
    rw [State.overrunTrap_armed harmed hact (hready.imp And.left And.left), State.lateTrap_ready, htile, Tile.onSlot_onSlot]
    · rfl
    · rw [hslot]
      exact Slot.dwaited_ready hready
    · rw [htile]
      exact hp
    · rw [htile]
      exact hs
  obtain ⟨hnew, hnewRest⟩ := (t.dwaitEnds u a.slot).setTile_frame u
    ((t.tile u).overrun a.slot a.epc (BitVec.ofNat 64 (t.tile u).fab.ovcell.toNat))
  have hparts : SameBut [.tiles, .progress] t ((t.dwaitEnds u a.slot).setTile u
      ((t.tile u).overrun a.slot a.epc (BitVec.ofNat 64 (t.tile u).fab.ovcell.toNat))) := hrest.trans rfl
  obtain ⟨hpacket, hframe⟩ := State.sendRecord_frame (hst.noteProgress_after hparts)
    (rec := slotRecord u a.slot 0x0A a.epc (BitVec.ofNat 64 (t.tile u).fab.ovcell.toNat) false) rfl
  rw [htrap]
  refine ⟨⟨?_, fun v hv => ?_⟩, fun key => (SameBut.domain_eq hparts key).symm, hpacket, hframe⟩
  · rw [State.tile_sendRecord, hnew.1]
  · rw [State.tile_sendRecord, hnew.2 v hv, hothers v hv]

/-- Where the activation that armed a tile is gone, the record of its overrun names no slot. -/
theorem State.overrunTrap_gone_frame (hact : (t.slot u a.slot).act ≠ a.act) :
    (∀ v, (t.overrunTrap u).tile v = t.tile v) ∧ (∀ key, (t.overrunTrap u).domain key = t.domain key)
      ∧ OnePacket s.serial (s.recordPacket u
          { slotRecord u 0 0x0A a.epc (BitVec.ofNat 64 (t.tile u).fab.ovcell.toNat) false with noSlot := true })
            s (t.overrunTrap u)
      ∧ SameBut [.tiles, .domains, .packets, .routers, .serial, .progress] s (t.overrunTrap u) := by
  have htrap : t.overrunTrap u = t.sendRecord (tileNode u)
      { slotRecord u 0 0x0A a.epc (BitVec.ofNat 64 (t.tile u).fab.ovcell.toNat) false with noSlot := true } := by
    rw [State.overrunTrap_gone harmed hact, State.noSlotRecord]
    rfl
  obtain ⟨hpacket, hframe⟩ := State.sendRecord_frame
    (hst.noteProgress_after (rfl : SameBut [.tiles, .progress] t t))
    (rec := { slotRecord u 0 0x0A a.epc (BitVec.ofNat 64 (t.tile u).fab.ovcell.toNat) false with noSlot := true }) rfl
  rw [htrap]
  exact ⟨fun v => State.tile_sendRecord .., fun _ => rfl, hpacket, hframe⟩

end

/-- A tile alone whose run has ended. -/
def State.haltedAlone (s : State) (u : TileName) : State :=
  ((s.setTile u (s.tile u).fabricHalted).dwaitDone u).withDomain (2 ^ 20 + u) (s.domain (2 ^ 20 + u)).halted

theorem State.haltedAlone_frame (s : State) (u : TileName) :
    (s.haltedAlone u).domain (2 ^ 20 + u) = (s.domain (2 ^ 20 + u)).halted
      ∧ OneTile u ((s.tile u).fabricHalted.dwaited allSlots) s (s.haltedAlone u)
      ∧ SameBut [.tiles, .domains, .progress] s (s.haltedAlone u) := by
  obtain ⟨⟨hhalted, hothers⟩, hrest⟩ := s.setTile_frame u (s.tile u).fabricHalted
  obtain ⟨⟨htile, hothers'⟩, hrest'⟩ := (s.setTile u (s.tile u).fabricHalted).dwaitDone_frame u
  rw [hhalted] at htile
  unfold State.haltedAlone
  generalize hr : (s.setTile u (s.tile u).fabricHalted).dwaitDone u = r at *
  have hdomains : SameBut [.tiles, .domains] r (r.withDomain (2 ^ 20 + u) (s.domain (2 ^ 20 + u)).halted) := rfl
  refine ⟨(r.domain_withDomain _ _).1, ⟨htile, fun v hv => (hothers' v hv).trans (hothers v hv)⟩, ?_⟩
  exact (SameBut.noteProgress_after (rfl : SameBut [.tiles, .domains] s (s.setTile u (s.tile u).fabricHalted)) hrest').trans
    (SameBut.noteProgress_after hdomains rfl)

end

/-- Settles O45: a run of a tile in a domain of its own starts on an edge of its step clock, steps its cells from the values
of the step before, and ends at a boundary, by an overrun with a record for the slot that armed it, or for none. -/
theorem fabricRun : Obligations.FabricRun := by
  unfold Obligations.FabricRun
  intro s u budget taken x f d now hdomain hrun hsettled
  refine ⟨?start, ?early, ?within, ?step, ?halt⟩
  case start =>
    intro hstarted hdue
    refine .intro (exec_domainStart_due hdomain hrun hsettled hstarted hdue) ?_
    obtain ⟨hkey, -, htile, hrest⟩ := State.withDomain_setTile_frame (s := s) (u := u) (2 ^ 20 + u) (s.startedDomain u d)
      { x with fab := { f with state := 2, stepn := 0, was := 0 } }
    refine ⟨hkey.trans ?_, htile, hrest⟩
    rw [State.startedDomain, Domain.nextHalf_eq]
  case early => exact fun _ hearly => .intro (exec_domainStart_early hdomain hrun hearly) rfl
  case within => exact fun _ hwithin => .intro (exec_fabricStep_early hdomain hrun hwithin) rfl
  case step =>
    intro hstarted hstop hedge hbad edge pattern forced sum exceeds fault steps
    obtain ⟨hdom, hone, hframe⟩ := s.stepped_frame u budget
    have hpattern : f.dueInj d.edge = pattern := Fabric.dueInj_eq ..
    have hcode (c : Nat) : patternCode ((f.dueInj d.edge).getD []) c = forced c := by
      rw [hpattern]
      exact patternCode_getD pattern c
    have hexceeds {c : Nat} (hc : c < 256) : exceeds c ↔ (s.cellStep [u] u d.edge f c).ovr = true :=
      (and_iff_right hc).trans State.ovr_stepCell.symm
    have hsome : (∃ c < 256, exceeds c) ↔ ∃ c < 256, (s.cellStep [u] u d.edge f c).ovr = true :=
      exists_congr fun _ => and_congr_right hexceeds
    have hfault : fault ↔ s.stepFault u d = true := (and_congr_right fun _ => hsome).trans State.stepFault_iff.symm
    have hdue := exec_fabricStep_due hdomain hrun hsettled hstarted hstop hedge hbad
    have hsteps (t : State) (hg : (t.tile u).fab = s.steppedFabric u d)
        (ht : t.domain (2 ^ 20 + u) = s.steppedDomain u d budget) : steps t := by
      dsimp only [steps]
      rw [hg, ht]
      refine ⟨fun c hc => ?_, fun n hn => State.count_steppedFabric hn, State.stepn_steppedFabric, ?_, ?_, ?_,
        fun c hc hover hfirst => ?_, fun hnone => ?_, State.steppedFabric_rest, ?_, rfl⟩
      · rw [State.cell_steppedFabric hc, State.cellStep, hcode]
        exact ⟨(congrArg BitVec.toInt State.y_stepCell).trans (toInt_ofInt_clampY _), State.res_stepCell, State.res_stepCell_idle,
          State.out_stepCell, State.wiring_stepCell⟩
      · rw [State.inj_steppedFabric, hpattern]
      · rw [State.flt_steppedFabric, hfault]
      · rw [State.sat_steppedFabric, hsome]
      · exact State.ovcell_steppedFabric_first hc ((hexceeds hc).1 hover) fun j hj =>
          Bool.eq_false_iff.2 fun h => hfirst j hj ((hexceeds (hj.trans hc)).2 h)
      · exact State.ovcell_steppedFabric_none fun c hc => Bool.eq_false_iff.2 fun h => hnone c hc ((hexceeds hc).2 h)
      · rw [State.stop_steppedDomain, hfault]
    have hfab := congrArg Tile.fab hone.1
    have hslot (j : BitVec 2) : (s.stepped u budget).slot u j = s.slot u j := by
      rw [State.slot, hone.1]
      rfl
    refine ⟨fun hno => ?_, fun a hyes harmed => ?_⟩
    · rw [hfault] at hno
      refine .intro (hdue.trans (by rw [if_neg hno])) ⟨hsteps _ hfab hdom, ?_, hframe⟩
      rw [hfab]
      exact hone
    rw [if_pos (hfault.1 hyes)] at hdue
    have harmed' : ((s.stepped u budget).tile u).fab.armed = some a := by
      rw [hfab, State.steppedFabric_rest]
      exact harmed
    refine ⟨fun hact hp hs hready => .intro hdue ?_, fun hact => .intro hdue ?_⟩
    · rw [← hslot] at hact hready
      obtain ⟨htile, hdomains, hpacket, hrest⟩ := State.overrunTrap_armed_frame hframe harmed' hact
        (by rw [hone.1]; exact hp) (by rw [hone.1]; exact hs) hready
      have hall := hone.trans htile
      rw [hone.1] at hall hpacket
      have hfab' : (((s.stepped u budget).overrunTrap u).tile u).fab = s.steppedFabric u d := congrArg Tile.fab hall.1
      dsimp only
      rw [hfab']
      exact ⟨hsteps _ hfab' ((hdomains _).trans hdom), hpacket, hrest, hall⟩
    · rw [← hslot] at hact
      obtain ⟨htiles, hdomains, hpacket, hrest⟩ := State.overrunTrap_gone_frame hframe harmed' hact
      have hall : OneTile u _ s ((s.stepped u budget).overrunTrap u) :=
        ⟨(htiles u).trans hone.1, fun v hv => (htiles v).trans (hone.2 v hv)⟩
      have hfab' : (((s.stepped u budget).overrunTrap u).tile u).fab = s.steppedFabric u d := congrArg Tile.fab hall.1
      rw [hone.1] at hpacket
      rw [hfab']
      exact ⟨hsteps _ hfab' ((hdomains _).trans hdom), hpacket, hrest, hall⟩
  case halt =>
    intro hstarted hstop hheld hgoing
    obtain ⟨hhalted, hone, hframe⟩ := s.haltedAlone_frame u
    have hdue : exec (.domainHalt u) s = .next (s.haltedAlone u) :=
      exec_domainHalt_due hdomain hrun hsettled hstarted hstop hheld hgoing
    have hfab : ((s.haltedAlone u).tile u).fab = (s.tile u).fabricHalted.fab := by rw [hone.1, Tile.fab_dwaited]
    refine .intro hdue ⟨hhalted, hfab, fun j => ?_, ⟨?_, hone.2⟩, hframe⟩
    · rw [State.slot, hone.1]
      exact Tile.slot_dwaited_all _ j
    · rw [hfab, hone.1]
      exact Tile.dwaited_rest ..

end Sys2Proof.Machine
end
